-- ==== Sys2Proof/Word.lean ====
section
/-! DEFINITION. The word type and its plainest arithmetic (R6, R58). -/

namespace Sys2Proof

/-- One instruction word (R58). -/
abbrev Word := BitVec 32

/-- A 64-bit virtual address or register pair (R29). -/
abbrev Addr := BitVec 64

/-- One bit for each of the 32 lanes of a skein (R3). -/
abbrev Mask := BitVec 32

/-- An origin set: bit i stands for tenant slot i (R24). -/
abbrev OSet := BitVec 16

/-- The slices of one lane laid end to end: slice s is bits [4s+3:4s] (R13). -/
abbrev LaneFile := BitVec 1024

/-- A byte of memory. -/
abbrev Byte := BitVec 8

/-- The two's complement reading of the low `w` bits of `x` (sx of R8). -/
def signed (w x : Nat) : Int :=
  let r := x % 2 ^ w
  if 2 * r < 2 ^ w then (r : Int) else (r : Int) - (2 ^ w : Nat)

/-- The low `w` bits of an exact integer (R19). -/
def wrap (w : Nat) (x : Int) : Nat := (x % ((2 ^ w : Nat) : Int)).toNat

/-- Bits [lo+n-1:lo] of `x`. -/
def bitsOf (x lo n : Nat) : Nat := (x / 2 ^ lo) % 2 ^ n

/-- The bytes of `x`, least significant first (R29). -/
def bytesLE : Nat → Nat → List Byte
  | 0, _ => []
  | n + 1, x => BitVec.ofNat 8 x :: bytesLE n (x / 256)

/-- The number whose little-endian bytes are given (R29). -/
def ofBytesLE : List Byte → Nat
  | [] => 0
  | b :: bs => b.toNat + 256 * ofBytesLE bs

/-- The lane numbers of a skein, ascending (R3). -/
def laneIds : List Nat := List.range 32

/-- Lane `l` is in the mask. -/
def inMask (m : Mask) (l : Nat) : Bool := m.getLsbD l

/-- The lanes of a mask, ascending (R8). -/
def lanesOf (m : Mask) : List Nat := laneIds.filter (inMask m)

/-- The mask that holds exactly the lanes satisfying `p`. -/
def maskOf (p : Nat → Bool) : Mask :=
  laneIds.foldl (fun m l => if p l then m ||| (1#32 <<< l) else m) 0#32

/-- The lowest lane of a mask, 32 when it is empty (R126). -/
def lowest (m : Mask) : Nat := (lanesOf m).headD 32

/-- The highest lane of a mask, 0 when it is empty (R299). -/
def highest (m : Mask) : Nat := (lanesOf m).getLastD 0

/-- `a` is a subset of `b` (R27). -/
def OSet.subset (a b : OSet) : Bool := a &&& ~~~b == 0#16

end Sys2Proof
end

