-- ==== Sys2Proof/Config.lean ====
section
/-! DEFINITION. What the specification leaves open: opaque constants applied to the counter of State, and functions whose
results only an outside party knows. -/

namespace Sys2Proof

/-- A free choice between two values (log 7). -/
opaque Config.freeBit : Nat → Bool

/-- For each of the 256 slices of a lane, a free choice between the old and the new value (R32, R77, log 7). -/
opaque Config.freeSlices : Nat → Nat → BitVec 256

/-- A free choice between the old and the new entry of a 64 KiB piece (R199, log 7). -/
opaque Config.freeEntry : Nat → Nat → Bool

/-- Whether a cache gives up a line by itself at a moment, and which line of a full set makes room (R214, R217, log 40). -/
opaque Config.freeEvict : Nat → Nat → Nat → Bool
opaque Config.freeWay : Nat → Nat → Nat

/-- For a byte of a load, or a part of one, a free choice among the values that the rules allow it (R192, R229, log 7). -/
opaque Config.freePick : Nat → Nat → Nat

/-- A free 64-bit value (log 7). -/
opaque Config.freeWord : Nat → BitVec 64

/-- An ML-DSA-65 signature over a digest verifies under a key (R406, R409, log 15). -/
opaque Config.verifies (key : Nat) (digest : BitVec 512) (signature : List (BitVec 8)) : Bool

/-- Bytes of the ML-DSA-65 signature that the module identity key gives (R410, log 15). -/
opaque Config.signByte : List (BitVec 8) → Nat → BitVec 8

/-- The Worsyn public key in the fuses, and the module's identity public key (R409, R410, log 15). -/
opaque Config.fuseKey : Nat
opaque Config.identityKey : List (BitVec 8)

/-- The digest of a partition's layout, by what the layout lists (R410, log 15). -/
opaque Config.layoutDigest : List Nat → BitVec 256

/-- The IDCODE of the IEEE 1149.1 port, and the bits of a scan chain (R375, log 15). -/
opaque Config.idcode : BitVec 64
opaque Config.chainBits : BitVec 16 → Nat → BitVec 64

end Sys2Proof
end

