-- ==== Sys2Proof/Syntax.lean ====
section
/-! DEFINITION. Every row of the table of operations and events as a constructor: the 174 instruction words of R58 to R87,
and the 109 events by which the other agents of the part move (95_what_each_step_holds.md). -/

namespace Sys2Proof

/-- The eight width codes of R16; code 000 is also the W of the memory majors (R63). -/
inductive Width where
  | i4 | i8 | i16 | i32 | i64 | f16 | b16 | f32
  deriving DecidableEq, Repr, Inhabited

/-- The 3-bit code of a width (R16). -/
def Width.code : Width → BitVec 3
  | .i4 => 0 | .i8 => 1 | .i16 => 2 | .i32 => 3 | .i64 => 4 | .f16 => 5 | .b16 => 6 | .f32 => 7

/-- What another member of a collective brings to a match (R283, R304), or the news that its function was reset or that a route
of it has failed (R397, R399). -/
structure Contribution where
  member : Nat
  kind : Nat
  len : Nat
  root : Nat
  data : List (BitVec 8)
  reset : Bool := false
  lost : Bool := false
  deriving DecidableEq, Repr, Inhabited

/-- What a hem port brings: the answer to a line of a send of this module, the bytes and the set of a send of another module, or
the news that the other members of a collective group have made their call (R281, R358, R396). A byte whose source failed is
absent (R275). -/
inductive SendOp where
  | out (ok : Bool)
  | into (data : List (Option (BitVec 8))) (set : BitVec 16)
  | joined
  deriving DecidableEq, Repr, Inhabited

/-- An offset of a function's base address register; register 6 stands for its configuration space (R391, log 14). -/
structure BarAt where
  bar : Nat
  off : Nat
  deriving DecidableEq, Repr, Inhabited

/-- Some bytes of BAR0 that a driver writes (R391). -/
structure RegAt where
  off : Nat
  len : Nat
  deriving DecidableEq, Repr, Inhabited

/-- An offset of the BAR4 of a host port (R433). -/
structure PortAt where
  port : Nat
  off : Nat
  deriving DecidableEq, Repr, Inhabited

/-- One virtqueue chain: the device-readable bytes and the size of the writable part (R390). -/
structure Chain where
  request : List (BitVec 8)
  writable : Nat
  deriving DecidableEq, Repr, Inhabited

/-- A kernel record of a code object (R51). -/
structure Kernel where
  entry : Nat
  slices : Nat
  skeins : Nat
  spad : Nat
  bays : Nat
  acc : Nat
  tack : Nat
  scratch : Nat
  deriving DecidableEq, Repr, Inhabited

/-- The sections of a linked object that a loader places (R45, R55). -/
inductive Section where
  | code | rodata | data | recipes
  deriving DecidableEq, Repr, Inhabited

/-- What a relocation fills (R56): of the four kinds only ABS64 is left to the loader, with its label and constant. -/
inductive RelocKind where
  | disp18 | soff | ridx
  | abs64 (label : Section) (off : Nat) (plus : Int)
  deriving DecidableEq, Repr, Inhabited

/-- An entry of the relocation list: the section and the offset of the field's first byte (R55, R56). -/
structure Reloc where
  sec : Section
  off : Nat
  kind : RelocKind
  deriving DecidableEq, Repr, Inhabited

/-- A code object as Finwesin loads it: sections, kernels, recipe table, origin sets and relocations (R55, R365). -/
structure ObjImage where
  code : Nat
  codeBytes : List (BitVec 8)
  rodata : Nat
  rodataBytes : List (BitVec 8)
  data : Nat
  dataBytes : List (BitVec 8)
  recipes : Nat
  recipeBytes : List (BitVec 8)
  kernels : List Kernel
  rodataOrigin : Option (BitVec 16)
  dataOrigin : Option (BitVec 16)
  relocs : List Reloc
  deriving DecidableEq, Repr, Inhabited

/-- A destination table entry (R404). -/
structure Dest where
  kind : Nat
  port : Nat
  target : Nat
  owner : Nat
  deriving DecidableEq, Repr, Inhabited

/-- One partition of the signed configuration on the boot flash (R291, R398, R404): its HBM ranges of 1 GiB ascending, its hem
ports, switch routes, Ethernet ports, and VLANs with the ports on which it has them, and the drive of each namespace. -/
structure PartConfig where
  identity : BitVec 64
  clusters : List Nat
  hbm : List Nat
  hemPorts : List Nat
  routes : List Nat
  ethPorts : List Nat
  vlans : List (Nat × Nat)
  otable : List (BitVec 16)
  dests : List Dest
  namespaces : List (BitVec 16)
  modules : List Nat
  selfIndex : Nat
  shares : List (Nat × Nat × Nat)
  sliceUnits : Nat
  keys : List Nat
  drives : List Nat := []
  deriving DecidableEq, Repr, Inhabited

/-- A virtual function that Finwesin binds: its number, host port, memory window in 64 KiB units, and the virtual address at which
the context sees the window (R389, R390). -/
structure VfConfig where
  id : Nat
  port : Nat
  units : Nat
  va : Nat
  deriving DecidableEq, Repr, Inhabited

/-- Host coherent frames that Finwesin maps for a context: virtual address, first frame, bytes, permissions and set (R186, R195,
R422). -/
structure SharedConfig where
  va : Nat
  frame : Nat
  len : Nat
  perm : Nat
  set : BitVec 16
  deriving DecidableEq, Repr, Inhabited

/-- One context Finwesin creates at boot, with the virtual function bound to it if any (R197, R333, R389). -/
structure CtxConfig where
  part : Nat
  tenant : Nat
  readMask : BitVec 16
  clusters : List Nat
  vf : Option VfConfig
  domain : Option Nat
  shared : List SharedConfig := []
  deriving DecidableEq, Repr, Inhabited

/-- Bytes with an ML-DSA-65 signature (R409). -/
structure Signed where
  bytes : List (BitVec 8)
  signature : List (BitVec 8)
  deriving DecidableEq, Repr, Inhabited

/-- What the boot sequence of R430 finds and reads. -/
structure BootConfig where
  /-- The images to verify: IO-die and management firmware, mender boot code and Finwesin; and a debug token if there is one
  (R375, R409). -/
  images : List Signed
  debugToken : Option Signed
  stacksUp : BitVec 24
  diesUp : BitVec 24
  seamsUp : BitVec 38
  offlineClusters : List Nat
  /-- Host ports whose links do not train, Ethernet ports that do not come up, and the drives behind NVMe ports that do not. -/
  portsFailed : List Nat
  partitionsOk : Bool
  localGiB : Nat
  /-- The 1 GiB ranges in which Finwesin keeps its own tables and backing regions (R131, R194, R398). -/
  own : List Nat
  partitions : List PartConfig
  contexts : List CtxConfig
  ethFailed : List Nat := []
  nvmeFailed : List Nat := []
  deriving DecidableEq, Repr, Inhabited

/-- The skein and item that a debugger command names (R440). -/
structure DbgItem where
  grid : Nat
  core : Nat
  slot : Nat
  item : Nat
  lane : Nat
  first : Nat
  count : Nat
  deriving DecidableEq, Repr, Inhabited

/-- The atomic memory operations of an application core (R245); `swap` and the rest are those of RVWMO's cores. -/
inductive AmoOp where
  | swap | add | xor | and | or | min | max | minu | maxu
  deriving DecidableEq, Repr, Inhabited

/-- What an application core does (R245, R360, R387, R424): accesses of 1 to 16 bytes, with the aq and rl of annotated ones,
fences by the classes they order, and a thread that starts or stops running on the core. -/
inductive AppOp where
  | load (len : Nat)
  | store (data : List (BitVec 8))
  | fence (pred succ : BitVec 2)
  | amo (op : AmoOp) (len : Nat) (x : BitVec 64) (aq rl : Bool)
  | amocas (len : Nat) (expect new : BitVec 128) (aq rl : Bool)
  | lr (len : Nat) (aq rl : Bool)
  | sc (data : List (BitVec 8)) (aq rl : Bool)
  | schedule (token : Nat) (on : Bool)
  deriving DecidableEq, Repr, Inhabited

/-- By which path a management command comes, and its tag: host port 0 or 1, 2 the MCTP sideband, 3 Finwesin itself; `written` when the
host has written it into the mailbox (R340, R438, R439). -/
structure Ticket where
  path : Nat
  tag : BitVec 64
  written : Bool := false
  deriving DecidableEq, Repr, Inhabited

/-- One row of the table: an instruction word, or an event of another agent. -/
inductive Instr where
  /-- ADD (R91): Adds a and b in each active lane, wrapping for integer widths and rounding once for floating widths. -/
  | add (w : Width) (d : BitVec 8) (a : BitVec 8) (b : BitVec 7)
  /-- SUB (R91): Subtracts b from a in each active lane, wrapping for integer widths and rounding once for floating widths. -/
  | sub (w : Width) (d : BitVec 8) (a : BitVec 8) (b : BitVec 7)
  /-- MUL (R91): Multiplies a by b, keeping the low bits for integer widths and rounding once for floating widths. -/
  | mul (w : Width) (d : BitVec 8) (a : BitVec 8) (b : BitVec 7)
  /-- MULH (R92): Writes the high half of the signed exact product. -/
  | mulh (w : Width) (d : BitVec 8) (a : BitVec 8) (b : BitVec 7)
  /-- MULHU (R92): Writes the high half of the unsigned exact product. -/
  | mulhu (w : Width) (d : BitVec 8) (a : BitVec 8) (b : BitVec 7)
  /-- MAD (R91): Computes d := a × b + d, wrapping for integer widths or fused with one rounding for floating widths. -/
  | mad (w : Width) (d : BitVec 8) (a : BitVec 8) (b : BitVec 7)
  /-- MIN (R93): Writes the signed minimum, or the IEEE minimumNumber for floating widths. -/
  | min (w : Width) (d : BitVec 8) (a : BitVec 8) (b : BitVec 7)
  /-- MAX (R93): Writes the signed maximum, or the IEEE maximumNumber for floating widths. -/
  | max (w : Width) (d : BitVec 8) (a : BitVec 8) (b : BitVec 7)
  /-- MINU (R93): Writes the unsigned minimum. -/
  | minu (w : Width) (d : BitVec 8) (a : BitVec 8) (b : BitVec 7)
  /-- MAXU (R93): Writes the unsigned maximum. -/
  | maxu (w : Width) (d : BitVec 8) (a : BitVec 8) (b : BitVec 7)
  /-- ADDS (R94): Adds with signed saturation to the destination width. -/
  | adds (w : Width) (d : BitVec 8) (a : BitVec 8) (b : BitVec 7)
  /-- SUBS (R94): Subtracts with signed saturation to the destination width. -/
  | subs (w : Width) (d : BitVec 8) (a : BitVec 8) (b : BitVec 7)
  /-- ADDUS (R94): Adds with unsigned saturation to the destination width. -/
  | addus (w : Width) (d : BitVec 8) (a : BitVec 8) (b : BitVec 7)
  /-- SUBUS (R94): Subtracts with unsigned saturation to the destination width. -/
  | subus (w : Width) (d : BitVec 8) (a : BitVec 8) (b : BitVec 7)
  /-- AND (R95): Bitwise AND of zero-extended sources. -/
  | and (w : Width) (d : BitVec 8) (a : BitVec 8) (b : BitVec 7)
  /-- OR (R95): Bitwise OR of zero-extended sources. -/
  | or (w : Width) (d : BitVec 8) (a : BitVec 8) (b : BitVec 7)
  /-- XOR (R95): Bitwise XOR of zero-extended sources. -/
  | xor (w : Width) (d : BitVec 8) (a : BitVec 8) (b : BitVec 7)
  /-- ANDN (R95): Computes a AND NOT b. -/
  | andn (w : Width) (d : BitVec 8) (a : BitVec 8) (b : BitVec 7)
  /-- SHL (R96): Shifts left by b mod width, shifting in zeros. -/
  | shl (w : Width) (d : BitVec 8) (a : BitVec 8) (b : BitVec 7)
  /-- SHR (R96): Shifts right logically by b mod width. -/
  | shr (w : Width) (d : BitVec 8) (a : BitVec 8) (b : BitVec 7)
  /-- SAR (R96): Shifts right arithmetically by b mod width. -/
  | sar (w : Width) (d : BitVec 8) (a : BitVec 8) (b : BitVec 7)
  /-- ROT (R96): Rotates left within the width by b mod width. -/
  | rot (w : Width) (d : BitVec 8) (a : BitVec 8) (b : BitVec 7)
  /-- BFX (R97): Extracts a bitfield of a, with optional sign extension, at the position and length held in b. -/
  | bfx (w : Width) (d : BitVec 8) (a : BitVec 8) (b : BitVec 7)
  /-- BFI (R97): Inserts the low bits of a into d at the position and length held in b. -/
  | bfi (w : Width) (d : BitVec 8) (a : BitVec 8) (b : BitVec 7)
  /-- CMPEQ (R98): Writes an all-ones or all-zeros predicate that is true when a equals b. -/
  | cmpeq (w : Width) (d : BitVec 8) (a : BitVec 8) (b : BitVec 7)
  /-- CMPNE (R98): Writes a predicate that is true when a differs from b, or when either is NaN. -/
  | cmpne (w : Width) (d : BitVec 8) (a : BitVec 8) (b : BitVec 7)
  /-- CMPLT (R98): Signed or ordered less-than compare. -/
  | cmplt (w : Width) (d : BitVec 8) (a : BitVec 8) (b : BitVec 7)
  /-- CMPLE (R98): Signed or ordered less-or-equal compare. -/
  | cmple (w : Width) (d : BitVec 8) (a : BitVec 8) (b : BitVec 7)
  /-- CMPLTU (R98): Unsigned, or floating unordered, less-than compare. -/
  | cmpltu (w : Width) (d : BitVec 8) (a : BitVec 8) (b : BitVec 7)
  /-- CMPLEU (R98): Unsigned, or floating unordered, less-or-equal compare. -/
  | cmpleu (w : Width) (d : BitVec 8) (a : BitVec 8) (b : BitVec 7)
  /-- SEL (R100): Copies a into d in the lanes whose predicate bit 0 is 1; d counts as written in every active lane. -/
  | sel (w : Width) (d : BitVec 8) (a : BitVec 8) (b : BitVec 7)
  /-- DOT8_I4 (R101): Accumulates the dot product of eight signed int4 pairs into d, modulo 2^32. -/
  | dot8I4 (d : BitVec 8) (a : BitVec 8) (b : BitVec 7)
  /-- DOT4_I8 (R101): Accumulates the dot product of four signed int8 pairs into d, modulo 2^32. -/
  | dot4I8 (d : BitVec 8) (a : BitVec 8) (b : BitVec 7)
  /-- DOT2_B16 (R101): Adds two exact BF16 products to the F32 value in d with one rounding. -/
  | dot2B16 (d : BitVec 8) (a : BitVec 8) (b : BitVec 7)
  /-- ADDI (R102): Adds a signed immediate to a, wrapping. -/
  | addi (w : Width) (d : BitVec 8) (a : BitVec 8) (imm : BitVec 7)
  /-- ANDI (R102): ANDs a with an unsigned immediate. -/
  | andi (w : Width) (d : BitVec 8) (a : BitVec 8) (imm : BitVec 7)
  /-- ORI (R102): ORs a with an unsigned immediate. -/
  | ori (w : Width) (d : BitVec 8) (a : BitVec 8) (imm : BitVec 7)
  /-- XORI (R102): XORs a with an unsigned immediate. -/
  | xori (w : Width) (d : BitVec 8) (a : BitVec 8) (imm : BitVec 7)
  /-- SHLI (R102): Shifts left by the immediate mod width. -/
  | shli (w : Width) (d : BitVec 8) (a : BitVec 8) (imm : BitVec 7)
  /-- SHRI (R102): Shifts right logically by the immediate mod width. -/
  | shri (w : Width) (d : BitVec 8) (a : BitVec 8) (imm : BitVec 7)
  /-- SARI (R102): Shifts right arithmetically by the immediate mod width. -/
  | sari (w : Width) (d : BitVec 8) (a : BitVec 8) (imm : BitVec 7)
  /-- CMPEQI (R102): Compares the low bits of a with the immediate for equality. -/
  | cmpeqi (w : Width) (d : BitVec 8) (a : BitVec 8) (imm : BitVec 7)
  /-- CMPLTI (R102): Compares a signed against the immediate for less-than. -/
  | cmplti (w : Width) (d : BitVec 8) (a : BitVec 8) (imm : BitVec 7)
  /-- MOVI (R102): Writes the immediate modulo 2^width, with co as its only set. -/
  | movi (w : Width) (d : BitVec 8) (imm : BitVec 7)
  /-- MOV (R103): Copies a to d. -/
  | mov (w : Width) (d : BitVec 8) (a : BitVec 8)
  /-- NOT (R103): Writes the bitwise NOT of a. -/
  | not (w : Width) (d : BitVec 8) (a : BitVec 8)
  /-- NEG (R103): Negates a modulo 2^w, or inverts the sign bit for floating widths. -/
  | neg (w : Width) (d : BitVec 8) (a : BitVec 8)
  /-- ABS (R103): Writes the absolute value modulo 2^w, or clears the sign bit for floating widths. -/
  | abs (w : Width) (d : BitVec 8) (a : BitVec 8)
  /-- CLZ (R103): Counts the leading zero bits of a. -/
  | clz (w : Width) (d : BitVec 8) (a : BitVec 8)
  /-- CTZ (R103): Counts the trailing zero bits of a. -/
  | ctz (w : Width) (d : BitVec 8) (a : BitVec 8)
  /-- POPC (R103): Counts the one bits of a. -/
  | popc (w : Width) (d : BitVec 8) (a : BitVec 8)
  /-- BREV (R103): Reverses the bit order of a. -/
  | brev (w : Width) (d : BitVec 8) (a : BitVec 8)
  /-- BSWAP (R103): Reverses the byte order of a. -/
  | bswap (w : Width) (d : BitVec 8) (a : BitVec 8)
  /-- CLASS (R104): Writes a 16-bit mask with one bit set that classifies the floating value a. -/
  | fclass (w : Width) (d : BitVec 8) (a : BitVec 8)
  /-- SXT (R105): Sign-extends a from the source width named by the function code to the width code's width. -/
  | sxt (w : Width) (d : BitVec 8) (a : BitVec 8) (src : BitVec 2)
  /-- ZXT (R105): Zero-extends a from the source width named by the function code to the width code's width. -/
  | zxt (w : Width) (d : BitVec 8) (a : BitVec 8) (src : BitVec 2)
  /-- SQRT (R106): Writes the correctly rounded square root of a. -/
  | sqrt (w : Width) (d : BitVec 8) (a : BitVec 8)
  /-- RCP (R106): Writes the correctly rounded reciprocal of a. -/
  | rcp (w : Width) (d : BitVec 8) (a : BitVec 8)
  /-- RSQ (R106): Writes the correctly rounded reciprocal square root of a. -/
  | rsq (w : Width) (d : BitVec 8) (a : BitVec 8)
  /-- EXP2 (R106): Writes the correctly rounded value of 2^a. -/
  | exp2 (w : Width) (d : BitVec 8) (a : BitVec 8)
  /-- LOG2 (R106): Writes the correctly rounded value of log2(a). -/
  | log2 (w : Width) (d : BitVec 8) (a : BitVec 8)
  /-- SIN (R106): Writes the correctly rounded value of sin(π·a). -/
  | sin (w : Width) (d : BitVec 8) (a : BitVec 8)
  /-- COS (R106): Writes the correctly rounded value of cos(π·a). -/
  | cos (w : Width) (d : BitVec 8) (a : BitVec 8)
  /-- FLOOR (R107): Rounds a to an integral value toward -∞. -/
  | floor (w : Width) (d : BitVec 8) (a : BitVec 8)
  /-- CEIL (R107): Rounds a to an integral value toward +∞. -/
  | ceil (w : Width) (d : BitVec 8) (a : BitVec 8)
  /-- TRUNC (R107): Rounds a to an integral value toward zero. -/
  | trunc (w : Width) (d : BitVec 8) (a : BitVec 8)
  /-- RINT (R107): Rounds a to an integral value, to nearest even. -/
  | rint (w : Width) (d : BitVec 8) (a : BitVec 8)
  /-- CVT_FROM_E4M3 (R109): Converts an E4M3 value exactly to the destination floating format. -/
  | cvtFromE4M3 (w : Width) (d : BitVec 8) (a : BitVec 8)
  /-- CVT_FROM_E5M2 (R109): Converts an E5M2 value exactly to the destination floating format. -/
  | cvtFromE5M2 (w : Width) (d : BitVec 8) (a : BitVec 8)
  /-- CVT_TO_E4M3 (R110): Converts a floating value to E4M3 under RNE, giving NaN on overflow. -/
  | cvtToE4M3 (w : Width) (d : BitVec 8) (a : BitVec 8)
  /-- CVT_TO_E4M3_SAT (R110): Converts a floating value to E4M3 under RNE, saturating to ±448. -/
  | cvtToE4M3Sat (w : Width) (d : BitVec 8) (a : BitVec 8)
  /-- CVT_TO_E5M2 (R110): Converts a floating value to E5M2 under RNE, giving ±∞ on overflow. -/
  | cvtToE5M2 (w : Width) (d : BitVec 8) (a : BitVec 8)
  /-- CVT_TO_E5M2_SAT (R110): Converts a floating value to E5M2 under RNE, saturating to ±57,344. -/
  | cvtToE5M2Sat (w : Width) (d : BitVec 8) (a : BitVec 8)
  /-- CVT (R111): Converts between floating and integer or floating formats in the encoded rounding mode, with clamping or overflow handling. -/
  | cvt (w : Width) (d : BitVec 8) (a : BitVec 8) (src : Width) (uns : BitVec 1) (rnd : BitVec 2)
  /-- BRA (R114): Transfers unconditionally to the displacement target. -/
  | bra (disp : BitVec 18)
  /-- BZ (R115): Branches when the uniform predicate's bit 0 is 0, joining the predicate's set into co. -/
  | bz (p : BitVec 8) (disp : BitVec 18)
  /-- BNZ (R115): Branches when the uniform predicate's bit 0 is 1, joining the predicate's set into co. -/
  | bnz (p : BitVec 8) (disp : BitVec 18)
  /-- CALL (R116): Writes the return address into the link pair and transfers to the target. -/
  | call (d : BitVec 8) (disp : BitVec 18)
  /-- SPLIT (R132): Divides the split on a predicate into taken and fall-through splits and pushes a reconvergence entry. -/
  | split (p : BitVec 8) (disp : BitVec 18)
  /-- LAUNCH (R175): The block leader creates child grids from per-lane descriptors and writes a status in each active lane. -/
  | launch (x : BitVec 8) (disp : BitVec 18)
  /-- RET (R117): Transfers to the address held in a register pair. -/
  | ret (a : BitVec 8)
  /-- JMPI (R117): Jumps indirectly to a uniform address held in a register pair. -/
  | jmpi (a : BitVec 8)
  /-- CALLI (R117): Calls indirectly through a pair, writing the link pair. -/
  | calli (d : BitVec 8) (a : BitVec 8)
  /-- LDG (R118): Loads from global memory into slices as a long-latency instruction, joining the page sets. -/
  | ldg (w : Width) (d : BitVec 8) (n : BitVec 5) (pol : BitVec 4) (la : BitVec 4)
  /-- STG (R119): Stores slices to global memory after the translation, permission and ORIGIN checks. -/
  | stg (w : Width) (d : BitVec 8) (n : BitVec 5) (pol : BitVec 4)
  /-- LDS (R207): Loads from the block's scratchpad after a range check. -/
  | lds (w : Width) (d : BitVec 8) (n : BitVec 5) (la : BitVec 4)
  /-- LDC (R207): Loads from the context's cluster-SRAM window after a range check. -/
  | ldc (w : Width) (d : BitVec 8) (n : BitVec 5) (la : BitVec 4)
  /-- STS (R207): Stores to the scratchpad after the range and ORIGIN checks. -/
  | sts (w : Width) (d : BitVec 8) (n : BitVec 5)
  /-- STC (R207): Stores to the cluster-SRAM window after the range and ORIGIN checks. -/
  | stc (w : Width) (d : BitVec 8) (n : BitVec 5)
  /-- AADD (R210): Atomically adds to memory and returns the old value. -/
  | aadd (ss : BitVec 3) (g : BitVec 5) (wc : BitVec 2) (f : BitVec 1) (n : BitVec 5) (o : BitVec 2) (la : BitVec 4)
  /-- AMIN (R210): Atomic signed minimum returning the old value. -/
  | amin (ss : BitVec 3) (g : BitVec 5) (wc : BitVec 2) (f : BitVec 1) (n : BitVec 5) (o : BitVec 2) (la : BitVec 4)
  /-- AMAX (R210): Atomic signed maximum returning the old value. -/
  | amax (ss : BitVec 3) (g : BitVec 5) (wc : BitVec 2) (f : BitVec 1) (n : BitVec 5) (o : BitVec 2) (la : BitVec 4)
  /-- AMINU (R210): Atomic unsigned minimum returning the old value. -/
  | aminu (ss : BitVec 3) (g : BitVec 5) (wc : BitVec 2) (f : BitVec 1) (n : BitVec 5) (o : BitVec 2) (la : BitVec 4)
  /-- AMAXU (R210): Atomic unsigned maximum returning the old value. -/
  | amaxu (ss : BitVec 3) (g : BitVec 5) (wc : BitVec 2) (f : BitVec 1) (n : BitVec 5) (o : BitVec 2) (la : BitVec 4)
  /-- AAND (R210): Atomic AND returning the old value. -/
  | aand (ss : BitVec 3) (g : BitVec 5) (wc : BitVec 2) (f : BitVec 1) (n : BitVec 5) (o : BitVec 2) (la : BitVec 4)
  /-- AOR (R210): Atomic OR returning the old value. -/
  | aor (ss : BitVec 3) (g : BitVec 5) (wc : BitVec 2) (f : BitVec 1) (n : BitVec 5) (o : BitVec 2) (la : BitVec 4)
  /-- AXOR (R210): Atomic XOR returning the old value. -/
  | axor (ss : BitVec 3) (g : BitVec 5) (wc : BitVec 2) (f : BitVec 1) (n : BitVec 5) (o : BitVec 2) (la : BitVec 4)
  /-- AXCHG (R210): Atomic exchange returning the old value. -/
  | axchg (ss : BitVec 3) (g : BitVec 5) (wc : BitVec 2) (f : BitVec 1) (n : BitVec 5) (o : BitVec 2) (la : BitVec 4)
  /-- ACAS (R210): Atomic compare-and-swap returning the old value into the data operand. -/
  | acas (ss : BitVec 3) (g : BitVec 5) (wc : BitVec 2) (f : BitVec 1) (n : BitVec 5) (o : BitVec 2) (la : BitVec 4)
  /-- SHFL (R161): Writes to each active lane the value of a from the lane named by its index. -/
  | shfl (w : Width) (d : BitVec 8) (a : BitVec 8) (b : BitVec 7)
  /-- BALLOT (R158): Gathers the predicate bits of the active lanes into a 32-bit mask. -/
  | ballot (d : BitVec 8) (a : BitVec 8)
  /-- EQMASK (R159): Writes, for each active lane, the mask of active lanes that hold an equal value. -/
  | eqmask (w : Width) (d : BitVec 8) (a : BitVec 8)
  /-- ANY (R160): Writes a uniform predicate that is true when any active lane's predicate is true. -/
  | any (w : Width) (d : BitVec 8) (a : BitVec 8)
  /-- ALL (R160): Writes a uniform predicate that is true when every active lane's predicate is true. -/
  | all (w : Width) (d : BitVec 8) (a : BitVec 8)
  /-- RDS (R163): Reads a special register into d. -/
  | rds (w : Width) (d : BitVec 8) (num : BitVec 8)
  /-- WRS_EM (R164): Writes em from the highest active lane, ANDed with the members, and joins the source's set into co. -/
  | wrsEm (a : BitVec 8)
  /-- WRS_SW (R164): Writes bits [1:0] of sw from the highest active lane. -/
  | wrsSw (a : BitVec 8)
  /-- KRD (R166): Reads a block register with the visibility that R144 permits. -/
  | krd (d : BitVec 8) (k : BitVec 8)
  /-- KWR (R167): Writes a block register under the per-epoch writer rule, or raises K-CONFLICT. -/
  | kwr (k : BitVec 8) (a : BitVec 8)
  /-- RDCYC (R165): Reads the cluster's 64-bit cycle counter. -/
  | rdcyc (d : BitVec 8)
  /-- LBLR (R121): Writes the origin set of a named register. -/
  | lblr (d : BitVec 8) (a : BitVec 8)
  /-- LBLQ (R122): Writes the origin set of the page at an address, or 0 when it cannot be read, without faulting. -/
  | lblq (d : BitVec 8) (a : BitVec 8)
  /-- BAR (R171): Arrives at a block barrier and holds until the phase completes. -/
  | bar (b : BitVec 4)
  /-- BARARR (R171): Writes the current phase as a token, then arrives without waiting. -/
  | bararr (b : BitVec 4) (y : BitVec 8) (la : BitVec 4)
  /-- BARWAIT (R171): Holds while the barrier's phase equals the token, then acquires. -/
  | barwait (b : BitVec 4) (y : BitVec 8)
  /-- BARDROP (R171): Arrives with a drop, leaving participation for later phases. -/
  | bardrop (b : BitVec 4)
  /-- SBINIT (R223): Initialises a scratchpad barrier object with a count. -/
  | sbinit (x : BitVec 8) (y : BitVec 8)
  /-- SBARR (R223): Writes the phase token and arrives at a scratchpad barrier. -/
  | sbarr (x : BitVec 8) (y : BitVec 8) (la : BitVec 4)
  /-- SBEXP (R223): Adds expected bytes to a scratchpad barrier and tests for completion. -/
  | sbexp (x : BitVec 8) (y : BitVec 8)
  /-- SBWAIT (R223): Holds while the scratchpad barrier's phase equals the token. -/
  | sbwait (x : BitVec 8) (y : BitVec 8)
  /-- SBDROP (R223): Decrements n and arrives at a scratchpad barrier. -/
  | sbdrop (y : BitVec 8)
  /-- BITWAIT (R177): Holds until the named bit in memory reads 1 in every active lane. -/
  | bitwait (x : BitVec 8) (y : BitVec 8)
  /-- SPAWN (R173): Places one thread per active lane into a cluster spawn bin and writes a status. -/
  | spawn (x : BitVec 8) (y : BitVec 8) (la : BitVec 4)
  /-- FENCE (R212): Stalls the split until its earlier accesses are performed at the scope, with acquire, release or both. -/
  | fence (ord : BitVec 2) (sc : BitVec 3)
  /-- CLEAN (R213): Writes back dirty die-L2 copies of the lines in the range. -/
  | clean (x : BitVec 8) (y : BitVec 8)
  /-- INVAL (R213): Drops the issuing core's L1 copies of the range, and the die L2 copies of PCIe lines. -/
  | inval (x : BitVec 8) (y : BitVec 8)
  /-- PREF (R213): Prefetches the range into L2 and L1 as a run-ahead fetch. -/
  | pref (x : BitVec 8) (y : BitVec 8)
  /-- IPREF (R213): Prefetches the range into the instruction cache as a run-ahead fetch. -/
  | ipref (x : BitVec 8) (y : BitVec 8)
  /-- ICINV (R213): Drops the issuing core's instruction-cache copies of the range. -/
  | icinv (x : BitVec 8) (y : BitVec 8)
  /-- STREAM (R218): Arms a stream prefetch and writes its handle, or NOSLOT. -/
  | stream (x : BitVec 8) (y : BitVec 8) (la : BitVec 4)
  /-- STREAMX (R219): Stops the stream that the handle names. -/
  | streamx (y : BitVec 8)
  /-- SPILL (R221): Stores a run of slices and their register sets as a record. -/
  | spill (x : BitVec 8) (y : BitVec 8)
  /-- FILL (R221): Loads a spill record back into slices, joining the recorded and page sets. -/
  | fill (x : BitVec 8) (y : BitVec 8) (la : BitVec 4)
  /-- SYSCALL (R354): Parks the split and hands each active lane's call to the mender. -/
  | syscall (imm : BitVec 7)
  /-- TRAP (R352): Stops the skein with cause 2. -/
  | trap (imm : BitVec 7)
  /-- BRK (R352): Stops the skein with cause 3. -/
  | brk (imm : BitVec 7)
  /-- TACK (R353): A pre-emption point: stops with cause 5 when a request is pending, and otherwise has no effect. -/
  | tack (idx : BitVec 12)
  /-- UINT (R361): Sets interrupt pending bits for registered targets and writes a per-lane status. -/
  | uint (d : BitVec 8) (a : BitVec 8)
  /-- WCOPY (R303): Issues a Wringer copy between the two spaces of the pair. -/
  | wcopy (x : BitVec 8) (y : BitVec 8) (sp : BitVec 3)
  /-- WGATH (R303): Issues a Wringer gather through an index list. -/
  | wgath (x : BitVec 8) (y : BitVec 8) (sp : BitVec 3)
  /-- WSCAT (R303): Issues a Wringer scatter through an index list. -/
  | wscat (x : BitVec 8) (y : BitVec 8) (sp : BitVec 3)
  /-- WFILL (R303): Issues a Wringer fill of a region with a 32-bit pattern. -/
  | wfill (x : BitVec 8) (y : BitVec 8) (sp : BitVec 3)
  /-- WSEND (R281): Issues a Wringer send to a module of the partition. -/
  | wsend (x : BitVec 8)
  /-- WCOLL_SUMF32 (R283): Issues a collective FP32 sum across a collective group. -/
  | wcollSumF32 (x : BitVec 8)
  /-- WCOLL_SUMB16 (R283): Issues a collective BF16 sum across a collective group. -/
  | wcollSumB16 (x : BitVec 8)
  /-- WCOLL_SUMI32 (R283): Issues a collective INT32 sum across a collective group. -/
  | wcollSumI32 (x : BitVec 8)
  /-- WCOLL_GATHER (R283): Issues a collective all-gather across a collective group. -/
  | wcollGather (x : BitVec 8)
  /-- WCOLL_BCAST (R283): Issues a collective broadcast from the root member. -/
  | wcollBcast (x : BitVec 8)
  /-- MBAY_BAY (R307): Claims the lowest free run of bays, or returns NOROOM. -/
  | mbayBay (x : BitVec 8) (y : BitVec 8) (la : BitVec 4)
  /-- MBAY_ACC (R307): Claims the lowest free run of accumulator tiles, or returns NOROOM. -/
  | mbayAcc (x : BitVec 8) (y : BitVec 8) (la : BitVec 4)
  /-- MWLOAD (R310): Issues a Mangle weight and scale load into a bay. -/
  | mwload (x : BitVec 8)
  /-- MMA (R311): Issues one tile operation against a bay into a tile. -/
  | mma (x : BitVec 8)
  /-- MDRAIN (R312): Issues a tile drain to scratchpad, advancing the dither phase under DITHER. -/
  | mdrain (x : BitVec 8)
  /-- MZERO (R313): Issues the zeroing of a tile. -/
  | mzero (x : BitVec 8)
  /-- MFREE_BAY (R308): Returns claimed bays to the block. -/
  | mfreeBay (x : BitVec 8) (y : BitVec 8)
  /-- MFREE_ACC (R308): Returns claimed accumulator tiles to the block. -/
  | mfreeAcc (x : BitVec 8) (y : BitVec 8)
  /-- CLOSE (R315): Closes the open batch of a class and writes its number. -/
  | close (x : BitVec 8) (cls : BitVec 3) (la : BitVec 4)
  /-- WAITB (R316): Holds until the named batch condition holds, then acquires. -/
  | waitb (y : BitVec 8) (cls : BitVec 3)
  /-- TESTB (R317): Writes whether the batch condition holds, acquiring when it does. -/
  | testb (x : BitVec 8) (y : BitVec 8) (cls : BitVec 3) (la : BitVec 4)
  /-- QPUSH (R321): Pushes an entry into a basket, or hands it to the longest-held QPOP. -/
  | qpush (x : BitVec 8) (y : BitVec 8) (la : BitVec 4)
  /-- QPOP (R322): Pops the oldest entry, or holds until an entry, GONE or REASSIGN arrives. -/
  | qpop (x : BitVec 8) (y : BitVec 8) (la : BitVec 4)
  /-- QTRY (R323): Pops an entry if one is present, and otherwise returns a status without waiting. -/
  | qtry (x : BitVec 8) (y : BitVec 8) (la : BitVec 4)
  /-- SETFR (R325): Sets the split's format register, refusing reserved values. -/
  | setfr (y : BitVec 8)
  /-- GETFR (R326): Reads the split's format register. -/
  | getfr (x : BitVec 8) (la : BitVec 4)
  /-- XIMM (R74): Hint word that supplies the upper bits of the next instruction's immediate. -/
  | ximm (p : BitVec 23)
  /-- OFFS (R75): Hint word that supplies a signed byte offset to the next memory instruction. -/
  | offs (p : BitVec 23)
  /-- PERM (R76): Hint word that routes the sources through the lane crossbar. -/
  | perm (p : BitVec 16)
  /-- MIXW (R78): Hint word that gives each operand its own width. -/
  | mixw (p : BitVec 9)
  /-- LKA (R79): Hint word that sets a lookahead of up to 63 for the next instruction. -/
  | lka (l : BitVec 6)
  /-- LONG_LATENCY_WRITE_LANDS (R32): The data of an outstanding long-latency instruction lands in its destination slices in program order, releasing interlocked readers. -/
  | longLatencyWriteLands (sid : Nat)
  /-- JOIN_DEADLOCK (R136): Within 64 cycles of every split being in JOIN-WAIT with one unarrived, the core raises the JOIN-DEADLOCK trap. -/
  | joinDeadlock (sid : Nat)
  /-- SBWAIT_POLL (R225): The core re-reads a waited scratchpad barrier object at least every 1,024 cycles. -/
  | sbwaitPoll (sid : Nat) (uid : Nat)
  /-- BITWAIT_POLL (R177): The core re-reads a BITWAIT word at least every 1,024 cycles and on each invalidation, releasing the split when all bits are 1. -/
  | bitwaitPoll (sid : Nat) (uid : Nat)
  /-- YIELD_RELEASE (R157): A yielding split becomes eligible again after 64 issue cycles or once the other READY splits have issued. -/
  | yieldRelease (sid : Nat) (uid : Nat)
  /-- BLOCK_RETIRE (R146): Once its skeins, commands and children are done, a block sets its completion bit and frees its resources. -/
  | blockRetire (grid : Nat) (blk : Nat)
  /-- BLOCK_PLACEMENT (R335): The dispatcher places the highest-ranked placeable block that fits, on the lowest core that fits. -/
  | blockPlacement (cl : Nat)
  /-- DEPENDENCY_POLL (R336): The dispatcher re-reads a held block's producer bit at least every 1,024 cycles. -/
  | dependencyPoll (grid : Nat) (blk : Nat)
  /-- STREAM_FETCH (R193): An armed stream fetches its next line within 16 lines of its position. -/
  | streamFetch (core : Nat) (slot : Nat)
  /-- FETCH_AHEAD (R377): The fetch unit fetches ahead of a split, dropping fetches that cannot be served. -/
  | fetchAhead (sid : Nat) (uid : Nat) (va : Nat)
  /-- INSTRUCTION_FETCH_FILL (R376): An instruction-cache miss fill arrives and the waiting split's group can issue. -/
  | instructionFetchFill (core : Nat) (line : Nat)
  /-- TRANSLATION_PARK_RESOLVE (R442): The mender maps the pages and replays the parked instruction, or ends the context. -/
  | translationParkResolve (cl : Nat) (entry : Nat)
  /-- TRANSLATION_INVALIDATE (R199): The mender's invalidation of a translation completes once no command holds it. -/
  | translationInvalidate (ctx : Nat) (va : Nat)
  /-- PCIE_COMPLETION (R211): A completion for a device read or AtomicOp arrives from the root complex and finishes the access. -/
  | pcieCompletion (sid : Nat) (uid : Nat) (status : Nat)
  /-- PCIE_COMPLETION_TIMEOUT (R394): A PCIe read or AtomicOp without completion after 50 ms ends with HOST-TIMEOUT. -/
  | pcieCompletionTimeout (sid : Nat) (uid : Nat)
  /-- WRINGER_LINE_WRITE (R278): The Wringer advances one command by one 64-byte destination line. -/
  | wringerLineWrite (sid : Nat) (cmd : Nat)
  /-- MANGLE_COMMAND_START (R291): The Mangle starts the next command chosen by weighted rounds over the skein queues. -/
  | mangleCommandStart (cl : Nat)
  /-- MANGLE_COMMAND_COMPLETE (R292): A Mangle command completes after its fixed timing. -/
  | mangleCommandComplete (sid : Nat)
  /-- WAITB_RETURN (R316): A split HELD in WAITB returns with an acquire once its batch condition holds. -/
  | waitbReturn (sid : Nat) (uid : Nat)
  /-- WSEND_REMOTE_WRITE (R281): The receiving module translates and performs the send's destination bytes, or reports a REMOTE fault. -/
  | wsendRemoteWrite (id : Nat) (num : Nat) (op : SendOp)
  /-- WCOLL_MATCH (R304): The k-th WCOLL of a group at each member is matched and performed, or aborted on mismatch. -/
  | wcollMatch (sid : Nat) (cmd : Nat) (remote : List Contribution)
  /-- SORTER_SAMPLE (R339): Every 1,024 cycles the sorter samples stage occupancies and reassigns at most one donor split per pressed stage. -/
  | sorterSample (cl : Nat)
  /-- TIME_SLICE_END (R362): A context's time slice ends and Finwesin issues a pre-emption request. -/
  | timeSliceEnd (ctx : Nat)
  /-- ENGINE_DRAIN (R367): The stopped skeins' engine work is drained: Wringer and started Mangle commands complete, and unstarted Mangle commands are removed. -/
  | engineDrain (ctx : Nat) (cl : Nat)
  /-- GRACE_DEADLINE (R372): Q/8 cycles after the request, an unsaved context starts accruing overrun. -/
  | graceDeadline (ctx : Nat) (cl : Nat)
  /-- WATCHDOG (R372): When the accumulated overrun reaches 4Q, the watchdog ends the context. -/
  | watchdog (ctx : Nat) (cl : Nat)
  /-- CONTEXT_RESUME (R370): On a resume order, the skeins are restored, their bays reloaded, their commands requeued and their recipe stubs run. -/
  | contextResume (ctx : Nat) (cl : Nat)
  /-- BLOCK_DROP (R371): An idempotent block is dropped in place of being saved and is requeued from its entry. -/
  | blockDrop (grid : Nat) (blk : Nat)
  /-- SKEIN_RESUME (R247): The mender resumes a stopped skein as an acquire at SY. -/
  | skeinResume (sid : Nat)
  /-- RESUME_MASK (R356): The mender writes call results and resumes the completed lanes of a parked split. -/
  | resumeMask (sid : Nat) (uid : Nat) (mask : BitVec 32)
  /-- FINWESIN_STOP_ACTION (R350): On a stop record, Finwesin re-performs a recoverable access or ends the context. -/
  | finwesinStopAction (cl : Nat)
  /-- CLUSTER_CONFIRM (R350): A cluster confirms to the home shard that the context's skeins have stopped. -/
  | clusterConfirm (ctx : Nat) (cl : Nat)
  /-- TIME (R357): Service call that returns host time and the cluster counter. -/
  | timeCall (sid : Nat) (uid : Nat) (lane : Nat)
  /-- MEM_ALLOC (R358): Service call that allocates G pages or a C window. -/
  | memAlloc (sid : Nat) (uid : Nat) (lane : Nat)
  /-- MEM_UNMAP (R357): Service call that unmaps pages, quarantining those with storage I/O in flight. -/
  | memUnmap (sid : Nat) (uid : Nat) (lane : Nat)
  /-- TAG_WIDEN (R358): Service call that joins a set into a range of 1 KiB blocks. -/
  | tagWiden (sid : Nat) (uid : Nat) (lane : Nat)
  /-- FILE_OPEN (R358): Service call that opens a file on a namespace. -/
  | fileOpen (sid : Nat) (uid : Nat) (lane : Nat) (ext : Nat)
  /-- FILE_READ (R357): Service call that reads a file into a buffer after the origin check. -/
  | fileRead (sid : Nat) (uid : Nat) (lane : Nat) (ext : Nat)
  /-- FILE_WRITE (R403): Service call that writes a buffer to a file through the release gate. -/
  | fileWrite (sid : Nat) (uid : Nat) (lane : Nat) (ext : Nat)
  /-- FILE_CLOSE (R357): Service call that closes a file descriptor. -/
  | fileClose (sid : Nat) (uid : Nat) (lane : Nat)
  /-- SOCK_CREATE (R358): Service call that creates a TCP or UDP socket to an endpoint. -/
  | sockCreate (sid : Nat) (uid : Nat) (lane : Nat) (ext : Nat)
  /-- SOCK_SEND (R403): Service call that sends a buffer on a socket through the release gate. -/
  | sockSend (sid : Nat) (uid : Nat) (lane : Nat) (ext : Nat)
  /-- SOCK_CLOSE (R357): Service call that closes a socket. -/
  | sockClose (sid : Nat) (uid : Nat) (lane : Nat)
  /-- EGRESS (R407): Service call that releases a buffer to a destination under a signed release policy. -/
  | egress (sid : Nat) (uid : Nat) (lane : Nat) (ext : Nat)
  /-- BASKET_CREATE (R358): Service call that creates a basket and returns its handle. -/
  | basketCreate (sid : Nat) (uid : Nat) (lane : Nat)
  /-- BASKET_DESTROY (R296): Service call that moves a basket to RETIRING. -/
  | basketDestroy (sid : Nat) (uid : Nat) (lane : Nat)
  /-- STAGE_REGISTER (R338): Service call that registers a sorter stage. -/
  | stageRegister (sid : Nat) (uid : Nat) (lane : Nat)
  /-- STAGE_REMOVE (R357): Service call that removes a sorter stage. -/
  | stageRemove (sid : Nat) (uid : Nat) (lane : Nat)
  /-- SPAWN_CONFIG (R357): Service call that sets a spawn bin's period. -/
  | spawnConfig (sid : Nat) (uid : Nat) (lane : Nat)
  /-- COLL_GROUP (R358): Service call that creates a collective group. -/
  | collGroup (sid : Nat) (uid : Nat) (lane : Nat)
  /-- UINT_REGISTER (R360): Service call that creates an interrupt target. -/
  | uintRegister (sid : Nat) (uid : Nat) (lane : Nat)
  /-- UINT_UNREGISTER (R357): Service call that removes an interrupt target. -/
  | uintUnregister (sid : Nat) (uid : Nat) (lane : Nat)
  /-- UNLISTED_CALL (R357): A service call with an unlisted number fails with INVALID-ARGUMENT. -/
  | unlistedCall (sid : Nat) (uid : Nat) (lane : Nat)
  /-- SUBMIT (R393): Virtqueue request that submits a grid descriptor from the memory window. -/
  | submit (vf : Nat)
  /-- MAP (R393): Virtqueue request that maps host memory into the context as PCIe pages. -/
  | mapReq (vf : Nat)
  /-- UNMAP (R393): Virtqueue request that removes mappings made by MAP. -/
  | unmapReq (vf : Nat)
  /-- UIREG (R393): Virtqueue request that creates a host interrupt target. -/
  | uireg (vf : Nat)
  /-- UIUNREG (R392): Virtqueue request that removes a host interrupt target. -/
  | uiunreg (vf : Nat)
  /-- INVALID_REQUEST (R392): A malformed or unknown-type virtqueue request completes at once with 0x9800. -/
  | invalidRequest (vf : Nat)
  /-- NVME_COMPLETION (R402): An NVMe command completes; on a quarantined frame it is discarded, counted, and the frame freed. -/
  | nvmeCompletion (cmd : Nat)
  /-- ILLEGAL_INSTRUCTION (R86): A word with major 0x00, a reserved hint kind, or any unassigned code or non-zero must-be-zero field raises the illegal-instruction trap. -/
  | illegalInstruction (word : BitVec 32)
  /-- STORE_PERFORMED (R248): A store reaches its location and becomes visible at its visibility moment, which lets a FENCE waiting on it proceed. -/
  | storePerformed (sid : Nat) (idx : Nat)
  /-- DRAIN (R340): Management command that sends a drain request to a partition or the module. -/
  | drain (part : BitVec 8) (flags : BitVec 8) (tag : Ticket)
  /-- RESUME (R340): Management command that sends a resume request to a partition or the module. -/
  | resume (part : BitVec 8) (flags : BitVec 8) (tag : Ticket)
  /-- RELEASE_HOLD (R346): Management command that ends the HOLD retention of a context. -/
  | releaseHold (grid : Nat) (tag : Ticket)
  /-- ATTACH (R374): Management command that attaches a debugger to a context. -/
  | attach (grid : Nat) (tag : Ticket)
  /-- DETACH (R440): Management command that detaches the debugger and resumes the waiting skeins. -/
  | detach (grid : Nat) (tag : Ticket)
  /-- POLICY (R406): Management command that installs or revokes a release policy once its parts are complete. -/
  | policy (total : Nat) (off : Nat) (bytes : List (BitVec 8)) (tag : Ticket)
  /-- ATTEST (R410): Management command that returns a signed attestation report. -/
  | attest (nonce : List (BitVec 8)) (part : Nat) (off : Nat) (tag : Ticket)
  /-- CAP (R431): Management command that sets the power cap. -/
  | cap (watts : Nat) (tag : Ticket)
  /-- DBG_EVENT (R440): Debugger command that returns the oldest undelivered debug stop record. -/
  | dbgEvent (tag : Ticket)
  /-- DBG_READ (R440): Debugger command that reads slices, a split, status, sets or stack slots of a stopped skein. -/
  | dbgRead (item : DbgItem) (tag : Ticket)
  /-- DBG_WRITE (R440): Debugger command that writes slices, PC and em, or status bits of a stopped skein. -/
  | dbgWrite (item : DbgItem) (data : List (BitVec 8)) (tag : Ticket)
  /-- DBG_RESUME (R440): Debugger command that resumes a stopped skein. -/
  | dbgResume (item : DbgItem) (tag : Ticket)
  /-- INVALID_COMMAND (R439): A mailbox command with an unknown code or a bad header completes with 0x9800. -/
  | invalidCommand (cmd : BitVec 32) (len : Nat) (tag : Ticket)
  /-- NOP (R117): Takes one issue slot with no effect. -/
  | nop
  /-- EXIT (R135): Ends the split, removing its members from every entry of its chain. -/
  | exit
  /-- JOIN (R133): Arrives at, binds to, or fails to arrive at the split's innermost reconvergence entry. -/
  | join
  /-- YIELD (R157): Resets the split's issue age and defers it behind the splits that were READY on its port. -/
  | yieldI
  /-- IBAR (R216): Empties the port's fetch buffer and orders later fetches after the split's ICINVs. -/
  | ibar
  /-- INVENTORY_REFRESH (R433): The controller refreshes the inventory window every 1,000 µs under the gen protocol. -/
  | inventoryRefresh
  /-- FREEZE_ASSERT (R375): In debug mode, asserting FREEZE stops every clock within 64 cycles. -/
  | freezeAssert
  /-- SCANOUT (R375): JTAG instruction that shifts the selected chain out. -/
  | scanout
  /-- IDCODE (R375): JTAG IDCODE instruction. -/
  | idcode
  /-- BYPASS (R375): JTAG BYPASS instruction. -/
  | bypass
  /-- BACK_INSIDE_LIMITS (R432): Measured power and die temperature return inside their limits, and the controller stops gating core and Mangle clocks. -/
  | backInsideLimits
  /-- SPAWN_BIN_TIMER (R147): A spawn bin's timer reaches the bin period and launches a skein of its threads. -/
  | spawnBinTimer (cl : Nat) (bin : Nat)
  /-- NVME_ABORT_TIMEOUT (R402): A command still incomplete after 30 s is aborted, or the controller is reset. -/
  | nvmeAbortTimeout (cmd : Nat) (abortFails : Bool)
  /-- CONTROLLER_RESET_COMPLETE (R402): An NVMe controller reset, started when an abort failed, completes and releases the frames it kept quarantined. -/
  | controllerResetComplete (ctrl : Nat)
  /-- SOCK_RECV (R357): Service call that receives into a buffer from a socket. -/
  | sockRecv (sid : Nat) (uid : Nat) (lane : Nat) (data : List (BitVec 8))
  /-- LOAD_DATA_ERROR (R34): An uncorrectable error on a long-latency load is reported at the load's PC after followers have issued. -/
  | loadDataError (sid : Nat) (lanes : BitVec 32) (level : BitVec 8) (clean : Bool)
  /-- WRITEBACK_UNDELIVERED (R394): An unawaited PCIe write-back that is reported undelivered ends the context that maps the line. -/
  | writebackUndelivered (pa : Nat)
  /-- PCIE_POSTED_WRITE (R245): A PCIe requester's posted write is performed at the line's home L2 in order after its earlier writes. -/
  | pciePostedWrite (pa : Nat) (data : List (BitVec 8))
  /-- CHIPLET_DEVICE_ACCESS (R388): An application-core access to device memory is checked against its grant entry, and a refused read is counted as egress. -/
  | chipletDeviceAccess (dom : Nat) (core : Nat) (pa : Nat) (op : AppOp)
  /-- QUEUE_NOTIFY (R391): A driver write to the notification area makes the device process a virtqueue. -/
  | queueNotify (vf : Nat) (q : Nat) (chains : List Chain)
  /-- FUNCTION_LEVEL_RESET (R399): A function-level reset makes Finwesin reset the virtual function and end its context. -/
  | functionLevelReset (vf : Nat)
  /-- VIRTIO_STATUS_RESET (R399): A reset through the virtio status register resets the virtual function. -/
  | virtioStatusReset (vf : Nat)
  /-- SEAM_FAILURE (R386): A failed seam is removed from routing and the accesses in flight end their contexts. -/
  | seamFailure (seam : Nat) (inFlight : List Nat)
  /-- ROUTE_FAILURE (R397): A failed hem route faults the WSENDs and WCOLLs on it. -/
  | routeFailure (part : Nat) (module : Nat)
  /-- MODULE_RESET (R430): Module reset runs the boot sequence, beginning with image verification. -/
  | moduleReset (cfg : BootConfig)
  /-- POWER_CAP_EXCEEDED (R432): Power above the cap over 1 ms makes the controller gate clocks. -/
  | powerCapExceeded (watts : Nat)
  /-- THERMAL_THROTTLE (R432): A die reaching 95 °C makes the controller gate clocks. -/
  | thermalThrottle (die : Nat) (temp : Nat)
  /-- THERMAL_SHUTDOWN (R432): A die reaching 110 °C stops every clock and puts the module in THERMAL. -/
  | thermalShutdown (die : Nat) (temp : Nat)
  /-- DISCARDED_WRITE (R433): A write to a read-only or reserved register location is discarded. -/
  | discardedWrite (pos : PortAt) (data : BitVec 64)
  /-- FREEZE_RELEASE (R375): Releasing FREEZE resumes the module, and after any shift only together with a module reset. -/
  | freezeRelease (withReset : Bool)
  /-- SCANSEL (R375): JTAG instruction that selects a scan chain. -/
  | scansel (chain : BitVec 16)
  /-- CODE_OBJECT_LOAD (R365): Finwesin loads a code object for a context: it maps its sections with their origin sets and checks its recipe table, or refuses the load. -/
  | codeObjectLoad (ctx : Nat) (obj : ObjImage)
  /-- FINWESIN_SUBMISSION (R328): Finwesin submits a grid descriptor from its own memory, checked under the Finwesin rows of R331. -/
  | finwesinSubmission (ctx : Nat) (desc : List (BitVec 8))
  /-- DEVICE_PAGE_GRANT (R388): Finwesin grants 64 KiB pieces of a context to a chiplet domain, creating directory grant entries. -/
  | devicePageGrant (ctx : Nat) (va : Nat) (dom : Nat)
  /-- APPLICATION_CORE_ACCESS (R387): An application core performs a load, store, fence or 128-bit amocas.q on host coherent memory at the home agent. -/
  | applicationCoreAccess (core : Nat) (pa : Nat) (op : AppOp)
  /-- MEMORY_WINDOW_READ (R390): A host PCIe requester reads the function's BAR2 memory window in device HBM. -/
  | memoryWindowRead (vf : Nat) (pos : BarAt) (len : Nat)
  /-- COMMON_CONFIGURATION_WRITE (R391): The driver writes the virtio common configuration structure of a virtual function, for feature negotiation, queue set-up and enable, and device status. -/
  | commonConfigurationWrite (vf : Nat) (pos : RegAt) (data : BitVec 64)
  /-- HBM_STACK_OFFLINE (R347): An HBM stack goes offline at run time, and the affected contexts end with DEVICE code 0x5302. -/
  | hbmStackOffline (stack : Nat)
  /-- ENGINE_TIMEOUT (R347): An engine operation times out and ends its context with DEVICE code 0x5303, grade REQUEUE-AFTER-RESET. -/
  | engineTimeout (sid : Nat)
  deriving DecidableEq, Repr, Inhabited

end Sys2Proof
end

