-- ==== Sys2Proof/Decode.lean ====
section
/-! DEFINITION. The decoder of chapter 03 (R58 to R86), the rule of which widths and codes each row accepts, and the encoder. -/

namespace Sys2Proof

/-- Why a word is no row of the table (R86). -/
inductive Reject where
  | reservedMajor
  | unassignedCode
  | mustBeZero
  | reservedHint
  | shortFetch
  deriving DecidableEq, Repr, Inhabited

/-- Bits [31:26], the major opcode (R58). -/
def fMajor (w : Word) : Nat := (w.extractLsb' 26 6).toNat
/-- Bits [25:23] as a code (R58). -/
def fCode (w : Word) : BitVec 3 := w.extractLsb' 23 3
/-- Bits [25:23] as a number. -/
def fMinor (w : Word) : Nat := (fCode w).toNat
/-- Bits [22:15]: d, x, or the slice field of format B (R59, R66, R67). -/
def fD (w : Word) : BitVec 8 := w.extractLsb' 15 8
/-- Bits [14:7]: a or y (R59, R67). -/
def fA (w : Word) : BitVec 8 := w.extractLsb' 7 8
/-- Bits [6:0]: b, imm7 or fn (R59, R61, R62). -/
def fB (w : Word) : BitVec 7 := w.extractLsb' 0 7
/-- Bits [6:2] of a function code. -/
def fFnHi (w : Word) : BitVec 5 := w.extractLsb' 2 5
/-- Bits [1:0] of a function code. -/
def fFnLo (w : Word) : BitVec 2 := w.extractLsb' 0 2
/-- Bits [6:4], the selector of format A (R67). -/
def fSel (w : Word) : BitVec 3 := w.extractLsb' 4 3
/-- Bits [3:0], the lookahead field (R63, R67). -/
def fLa (w : Word) : BitVec 4 := w.extractLsb' 0 4
/-- Bits [14:10], the address register (R63). -/
def fN (w : Word) : BitVec 5 := w.extractLsb' 10 5
/-- Bits [9:8], the ordering (R63). -/
def fO (w : Word) : BitVec 2 := w.extractLsb' 8 2
/-- Bits [7:4], the policy or the atomic op (R63, R65). -/
def fPol (w : Word) : BitVec 4 := w.extractLsb' 4 4
/-- The displacement of format B, in words (R66). -/
def fDisp (w : Word) : BitVec 18 := fCode w ++ w.extractLsb' 0 15
/-- The recipe index of TACK (R61). -/
def fTack (w : Word) : BitVec 12 := w.extractLsb' 7 12
/-- Bits [22:18], the data register of ATOM (R65). -/
def fG (w : Word) : BitVec 5 := w.extractLsb' 18 5
/-- Bits [17:16], the width of ATOM (R65). -/
def fAtomW (w : Word) : BitVec 2 := w.extractLsb' 16 2
/-- Bit 15, the use flag of ATOM (R65). -/
def fUse (w : Word) : BitVec 1 := w.extractLsb' 15 1
/-- The payload of a hint (R69). -/
def fPay (w : Word) : BitVec 23 := w.extractLsb' 0 23

/-- The width a code names (R16). -/
def Width.ofCode (c : BitVec 3) : Width :=
  match c.toNat with
  | 0 => .i4 | 1 => .i8 | 2 => .i16 | 3 => .i32 | 4 => .i64 | 5 => .f16 | 6 => .b16 | _ => .f32

/-- The width named in bits [25:23]. -/
def fW (w : Word) : Width := Width.ofCode (fCode w)

/-- A row whose remaining fields must be zero (R86). -/
def needZero (ok : Bool) (i : Instr) : Except Reject Instr := if ok then .ok i else .error .mustBeZero

/-- UNARY, by function code (R81, R82). -/
def decodeUnary (w : Word) : Except Reject Instr :=
  match (fB w).toNat with
  | 0 => .ok (.mov (fW w) (fD w) (fA w))
  | 1 => .ok (.not (fW w) (fD w) (fA w))
  | 2 => .ok (.neg (fW w) (fD w) (fA w))
  | 3 => .ok (.abs (fW w) (fD w) (fA w))
  | 4 => .ok (.clz (fW w) (fD w) (fA w))
  | 5 => .ok (.ctz (fW w) (fD w) (fA w))
  | 6 => .ok (.popc (fW w) (fD w) (fA w))
  | 7 => .ok (.brev (fW w) (fD w) (fA w))
  | 8 => .ok (.bswap (fW w) (fD w) (fA w))
  | 9 => .ok (.fclass (fW w) (fD w) (fA w))
  | 32 => .ok (.sqrt (fW w) (fD w) (fA w))
  | 33 => .ok (.rcp (fW w) (fD w) (fA w))
  | 34 => .ok (.rsq (fW w) (fD w) (fA w))
  | 35 => .ok (.exp2 (fW w) (fD w) (fA w))
  | 36 => .ok (.log2 (fW w) (fD w) (fA w))
  | 37 => .ok (.sin (fW w) (fD w) (fA w))
  | 38 => .ok (.cos (fW w) (fD w) (fA w))
  | 39 => .ok (.floor (fW w) (fD w) (fA w))
  | 40 => .ok (.ceil (fW w) (fD w) (fA w))
  | 41 => .ok (.trunc (fW w) (fD w) (fA w))
  | 42 => .ok (.rint (fW w) (fD w) (fA w))
  | 48 => .ok (.cvtFromE4M3 (fW w) (fD w) (fA w))
  | 49 => .ok (.cvtFromE5M2 (fW w) (fD w) (fA w))
  | 50 => .ok (.cvtToE4M3 (fW w) (fD w) (fA w))
  | 51 => .ok (.cvtToE4M3Sat (fW w) (fD w) (fA w))
  | 52 => .ok (.cvtToE5M2 (fW w) (fD w) (fA w))
  | 53 => .ok (.cvtToE5M2Sat (fW w) (fD w) (fA w))
  | fn =>
    if fFnHi w = 4#5 then .ok (.sxt (fW w) (fD w) (fA w) (fFnLo w))
    else if fFnHi w = 5#5 then .ok (.zxt (fW w) (fD w) (fA w) (fFnLo w))
    else if 64 ≤ fn then
      .ok (.cvt (fW w) (fD w) (fA w) (Width.ofCode (w.extractLsb' 3 3)) (w.extractLsb' 2 1) (fFnLo w))
    else .error .unassignedCode

/-- XFER, by minor (R84). -/
def decodeXfer (w : Word) : Except Reject Instr :=
  match fMinor w with
  | 0 => needZero (fD w == 0 && fB w == 0) (.ret (fA w))
  | 1 => needZero (fD w == 0 && fB w == 0) (.jmpi (fA w))
  | 2 => needZero (fB w == 0) (.calli (fD w) (fA w))
  | 3 => needZero (fPay w == 0) .nop
  | 4 => needZero (fPay w == 0) .exit
  | 5 => needZero (fPay w == 0) .join
  | 6 => needZero (fPay w == 0) .yieldI
  | _ => .error .unassignedCode

/-- LSC, by space and direction (R64). -/
def decodeLsc (w : Word) : Except Reject Instr :=
  if fO w ≠ 0#2 then .error .mustBeZero
  else match (fPol w).toNat with
  | 0 => .ok (.lds (fW w) (fD w) (fN w) (fLa w))
  | 1 => .ok (.ldc (fW w) (fD w) (fN w) (fLa w))
  | 2 => needZero (fLa w == 0) (.sts (fW w) (fD w) (fN w))
  | 3 => needZero (fLa w == 0) (.stc (fW w) (fD w) (fN w))
  | _ => .error .unassignedCode

/-- ATOM, by op (R65). -/
def decodeAtom (w : Word) : Except Reject Instr :=
  match (fPol w).toNat with
  | 0 => .ok (.aadd (fCode w) (fG w) (fAtomW w) (fUse w) (fN w) (fO w) (fLa w))
  | 1 => .ok (.amin (fCode w) (fG w) (fAtomW w) (fUse w) (fN w) (fO w) (fLa w))
  | 2 => .ok (.amax (fCode w) (fG w) (fAtomW w) (fUse w) (fN w) (fO w) (fLa w))
  | 3 => .ok (.aminu (fCode w) (fG w) (fAtomW w) (fUse w) (fN w) (fO w) (fLa w))
  | 4 => .ok (.amaxu (fCode w) (fG w) (fAtomW w) (fUse w) (fN w) (fO w) (fLa w))
  | 5 => .ok (.aand (fCode w) (fG w) (fAtomW w) (fUse w) (fN w) (fO w) (fLa w))
  | 6 => .ok (.aor (fCode w) (fG w) (fAtomW w) (fUse w) (fN w) (fO w) (fLa w))
  | 7 => .ok (.axor (fCode w) (fG w) (fAtomW w) (fUse w) (fN w) (fO w) (fLa w))
  | 8 => .ok (.axchg (fCode w) (fG w) (fAtomW w) (fUse w) (fN w) (fO w) (fLa w))
  | 9 => .ok (.acas (fCode w) (fG w) (fAtomW w) (fUse w) (fN w) (fO w) (fLa w))
  | _ => .error .unassignedCode

/-- SKEIN, by function code (R83, R162). -/
def decodeSkein (w : Word) : Except Reject Instr :=
  match (fB w).toNat with
  | 0 => if fMinor w = 3 then .ok (.ballot (fD w) (fA w)) else .error .unassignedCode
  | 1 => .ok (.eqmask (fW w) (fD w) (fA w))
  | 2 => .ok (.any (fW w) (fD w) (fA w))
  | 3 => .ok (.all (fW w) (fD w) (fA w))
  | 4 => .ok (.rds (fW w) (fD w) (fA w))
  | 5 =>
    if fMinor w = 3 then
      if fD w = 0#8 then .ok (.wrsEm (fA w)) else if fD w = 3#8 then .ok (.wrsSw (fA w)) else .error .unassignedCode
    else .error .unassignedCode
  | 6 => if fMinor w = 3 then .ok (.krd (fD w) (fA w)) else .error .unassignedCode
  | 7 => if fMinor w = 3 then .ok (.kwr (fD w) (fA w)) else .error .unassignedCode
  | 8 => if fMinor w = 4 then needZero (fA w == 0) (.rdcyc (fD w)) else .error .unassignedCode
  | 9 => if fMinor w = 2 then .ok (.lblr (fD w) (fA w)) else .error .unassignedCode
  | 10 => if fMinor w = 2 then .ok (.lblq (fD w) (fA w)) else .error .unassignedCode
  | _ => .error .unassignedCode

/-- SYNC (R85). -/
def decodeSync (w : Word) : Except Reject Instr :=
  match fMinor w, (fSel w).toNat with
  | 0, 0 => needZero (w.extractLsb' 19 4 == 0#4 && fA w == 0 && fLa w == 0) (.bar (w.extractLsb' 15 4))
  | 0, 1 => needZero (w.extractLsb' 19 4 == 0#4) (.bararr (w.extractLsb' 15 4) (fA w) (fLa w))
  | 0, 2 => needZero (w.extractLsb' 19 4 == 0#4 && fLa w == 0) (.barwait (w.extractLsb' 15 4) (fA w))
  | 0, 3 => needZero (w.extractLsb' 19 4 == 0#4 && fA w == 0 && fLa w == 0) (.bardrop (w.extractLsb' 15 4))
  | 1, 0 => needZero (fLa w == 0) (.sbinit (fD w) (fA w))
  | 1, 1 => .ok (.sbarr (fD w) (fA w) (fLa w))
  | 1, 2 => needZero (fLa w == 0) (.sbexp (fD w) (fA w))
  | 1, 3 => needZero (fLa w == 0) (.sbwait (fD w) (fA w))
  | 1, 4 => needZero (fD w == 0 && fLa w == 0) (.sbdrop (fA w))
  | 2, 0 => needZero (fLa w == 0) (.bitwait (fD w) (fA w))
  | 2, 1 => .ok (.spawn (fD w) (fA w) (fLa w))
  | _, _ => .error .unassignedCode

/-- MEMCTL (R85). -/
def decodeMemctl (w : Word) : Except Reject Instr :=
  match fMinor w, (fSel w).toNat with
  | 0, _ => needZero (fD w == 0 && w.extractLsb' 9 6 == 0#6 && fLa w == 0) (.fence (w.extractLsb' 7 2) (fSel w))
  | 1, 0 => needZero (fLa w == 0) (.clean (fD w) (fA w))
  | 1, 1 => needZero (fLa w == 0) (.inval (fD w) (fA w))
  | 1, 2 => needZero (fLa w == 0) (.pref (fD w) (fA w))
  | 1, 3 => needZero (fLa w == 0) (.ipref (fD w) (fA w))
  | 1, 4 => needZero (fLa w == 0) (.icinv (fD w) (fA w))
  | 2, 0 => .ok (.stream (fD w) (fA w) (fLa w))
  | 2, 1 => needZero (fD w == 0 && fLa w == 0) (.streamx (fA w))
  | 3, 0 => needZero (fLa w == 0) (.spill (fD w) (fA w))
  | 3, 1 => .ok (.fill (fD w) (fA w) (fLa w))
  | 4, 0 => needZero (fD w == 0 && fA w == 0 && fLa w == 0) .ibar
  | _, _ => .error .unassignedCode

/-- SVC (R61, R85). -/
def decodeSvc (w : Word) : Except Reject Instr :=
  match fMinor w with
  | 0 => needZero (fD w == 0 && fA w == 0) (.syscall (fB w))
  | 1 => needZero (fD w == 0 && fA w == 0) (.trap (fB w))
  | 2 => needZero (fD w == 0 && fA w == 0) (.brk (fB w))
  | 3 => needZero (w.extractLsb' 19 4 == 0#4 && fB w == 0) (.tack (fTack w))
  | 4 => needZero (fB w == 0) (.uint (fD w) (fA w))
  | _ => .error .unassignedCode

/-- WRG (R85). -/
def decodeWrg (w : Word) : Except Reject Instr :=
  match fMinor w, (fSel w).toNat with
  | 0, _ => needZero (fLa w == 0) (.wcopy (fD w) (fA w) (fSel w))
  | 1, _ => needZero (fLa w == 0) (.wgath (fD w) (fA w) (fSel w))
  | 2, _ => needZero (fLa w == 0) (.wscat (fD w) (fA w) (fSel w))
  | 3, _ => needZero (fLa w == 0) (.wfill (fD w) (fA w) (fSel w))
  | 4, 0 => needZero (fA w == 0 && fLa w == 0) (.wsend (fD w))
  | 5, 0 => needZero (fA w == 0 && fLa w == 0) (.wcollSumF32 (fD w))
  | 5, 1 => needZero (fA w == 0 && fLa w == 0) (.wcollSumB16 (fD w))
  | 5, 2 => needZero (fA w == 0 && fLa w == 0) (.wcollSumI32 (fD w))
  | 5, 3 => needZero (fA w == 0 && fLa w == 0) (.wcollGather (fD w))
  | 5, 4 => needZero (fA w == 0 && fLa w == 0) (.wcollBcast (fD w))
  | _, _ => .error .unassignedCode

/-- MNG (R85). -/
def decodeMng (w : Word) : Except Reject Instr :=
  match fMinor w, (fSel w).toNat with
  | 0, 0 => .ok (.mbayBay (fD w) (fA w) (fLa w))
  | 0, 1 => .ok (.mbayAcc (fD w) (fA w) (fLa w))
  | 1, 0 => needZero (fA w == 0 && fLa w == 0) (.mwload (fD w))
  | 2, 0 => needZero (fA w == 0 && fLa w == 0) (.mma (fD w))
  | 3, 0 => needZero (fA w == 0 && fLa w == 0) (.mdrain (fD w))
  | 4, 0 => needZero (fA w == 0 && fLa w == 0) (.mzero (fD w))
  | 5, 0 => needZero (fLa w == 0) (.mfreeBay (fD w) (fA w))
  | 5, 1 => needZero (fLa w == 0) (.mfreeAcc (fD w) (fA w))
  | _, _ => .error .unassignedCode

/-- QUE (R85). -/
def decodeQue (w : Word) : Except Reject Instr :=
  match fMinor w with
  | 0 => needZero (fA w == 0) (.close (fD w) (fSel w) (fLa w))
  | 1 => needZero (fD w == 0 && fLa w == 0) (.waitb (fA w) (fSel w))
  | 2 => .ok (.testb (fD w) (fA w) (fSel w) (fLa w))
  | 3 => needZero (fSel w == 0) (.qpush (fD w) (fA w) (fLa w))
  | 4 => needZero (fSel w == 0) (.qpop (fD w) (fA w) (fLa w))
  | 5 => needZero (fSel w == 0) (.qtry (fD w) (fA w) (fLa w))
  | 6 => needZero (fD w == 0 && fB w == 0) (.setfr (fA w))
  | _ => needZero (fA w == 0 && fSel w == 0) (.getfr (fD w) (fLa w))

/-- HINT, by kind (R69, R74 to R79). -/
def decodeHint (w : Word) : Except Reject Instr :=
  match fMinor w with
  | 0 => .ok (.ximm (fPay w))
  | 1 => .ok (.offs (fPay w))
  | 2 => if w.extractLsb' 16 7 = 0#7 then .ok (.perm (w.extractLsb' 0 16)) else .error .mustBeZero
  | 3 => if w.extractLsb' 9 14 = 0#14 then .ok (.mixw (w.extractLsb' 0 9)) else .error .mustBeZero
  | 4 => if w.extractLsb' 6 17 = 0#17 then .ok (.lka (w.extractLsb' 0 6)) else .error .mustBeZero
  | _ => .error .reservedHint
/-- The decoder: one word to the row it is, or the reason it is none (R80 to R86). -/
def decode (w : Word) : Except Reject Instr :=
  match fMajor w with
  | 0 => .error .reservedMajor
  | 1 => .ok (.add (fW w) (fD w) (fA w) (fB w))
  | 2 => .ok (.sub (fW w) (fD w) (fA w) (fB w))
  | 3 => .ok (.mul (fW w) (fD w) (fA w) (fB w))
  | 4 => .ok (.mulh (fW w) (fD w) (fA w) (fB w))
  | 5 => .ok (.mulhu (fW w) (fD w) (fA w) (fB w))
  | 6 => .ok (.mad (fW w) (fD w) (fA w) (fB w))
  | 7 => .ok (.min (fW w) (fD w) (fA w) (fB w))
  | 8 => .ok (.max (fW w) (fD w) (fA w) (fB w))
  | 9 => .ok (.minu (fW w) (fD w) (fA w) (fB w))
  | 10 => .ok (.maxu (fW w) (fD w) (fA w) (fB w))
  | 11 => .ok (.adds (fW w) (fD w) (fA w) (fB w))
  | 12 => .ok (.subs (fW w) (fD w) (fA w) (fB w))
  | 13 => .ok (.addus (fW w) (fD w) (fA w) (fB w))
  | 14 => .ok (.subus (fW w) (fD w) (fA w) (fB w))
  | 15 => .ok (.and (fW w) (fD w) (fA w) (fB w))
  | 16 => .ok (.or (fW w) (fD w) (fA w) (fB w))
  | 17 => .ok (.xor (fW w) (fD w) (fA w) (fB w))
  | 18 => .ok (.andn (fW w) (fD w) (fA w) (fB w))
  | 19 => .ok (.shl (fW w) (fD w) (fA w) (fB w))
  | 20 => .ok (.shr (fW w) (fD w) (fA w) (fB w))
  | 21 => .ok (.sar (fW w) (fD w) (fA w) (fB w))
  | 22 => .ok (.rot (fW w) (fD w) (fA w) (fB w))
  | 23 => .ok (.bfx (fW w) (fD w) (fA w) (fB w))
  | 24 => .ok (.bfi (fW w) (fD w) (fA w) (fB w))
  | 25 => .ok (.cmpeq (fW w) (fD w) (fA w) (fB w))
  | 26 => .ok (.cmpne (fW w) (fD w) (fA w) (fB w))
  | 27 => .ok (.cmplt (fW w) (fD w) (fA w) (fB w))
  | 28 => .ok (.cmple (fW w) (fD w) (fA w) (fB w))
  | 29 => .ok (.cmpltu (fW w) (fD w) (fA w) (fB w))
  | 30 => .ok (.cmpleu (fW w) (fD w) (fA w) (fB w))
  | 31 => .ok (.sel (fW w) (fD w) (fA w) (fB w))
  | 32 =>
    match fMinor w with
    | 0 => .ok (.dot8I4 (fD w) (fA w) (fB w))
    | 1 => .ok (.dot4I8 (fD w) (fA w) (fB w))
    | 6 => .ok (.dot2B16 (fD w) (fA w) (fB w))
    | _ => .error .unassignedCode
  | 33 => .ok (.addi (fW w) (fD w) (fA w) (fB w))
  | 34 => .ok (.andi (fW w) (fD w) (fA w) (fB w))
  | 35 => .ok (.ori (fW w) (fD w) (fA w) (fB w))
  | 36 => .ok (.xori (fW w) (fD w) (fA w) (fB w))
  | 37 => .ok (.shli (fW w) (fD w) (fA w) (fB w))
  | 38 => .ok (.shri (fW w) (fD w) (fA w) (fB w))
  | 39 => .ok (.sari (fW w) (fD w) (fA w) (fB w))
  | 40 => .ok (.cmpeqi (fW w) (fD w) (fA w) (fB w))
  | 41 => .ok (.cmplti (fW w) (fD w) (fA w) (fB w))
  | 42 => needZero (fA w == 0) (.movi (fW w) (fD w) (fB w))
  | 43 => decodeUnary w
  | 44 => needZero (fD w == 0) (.bra (fDisp w))
  | 45 => .ok (.bz (fD w) (fDisp w))
  | 46 => .ok (.bnz (fD w) (fDisp w))
  | 47 => .ok (.call (fD w) (fDisp w))
  | 48 => .ok (.split (fD w) (fDisp w))
  | 49 => .ok (.launch (fD w) (fDisp w))
  | 50 => decodeXfer w
  | 51 => needZero (fO w == 0) (.ldg (fW w) (fD w) (fN w) (fPol w) (fLa w))
  | 52 => needZero (fO w == 0 && fLa w == 0) (.stg (fW w) (fD w) (fN w) (fPol w))
  | 53 => decodeLsc w
  | 54 => decodeAtom w
  | 55 => .ok (.shfl (fW w) (fD w) (fA w) (fB w))
  | 56 => decodeSkein w
  | 57 => decodeSync w
  | 58 => decodeMemctl w
  | 59 => decodeSvc w
  | 60 => decodeWrg w
  | 61 => decodeMng w
  | 62 => decodeQue w
  | _ => decodeHint w

/-- The word whose four bytes stand lowest first (R58), and the instruction it is. -/
def decodeBytes : List Byte → Except Reject (Instr × List Byte)
  | b0 :: b1 :: b2 :: b3 :: rest => (decode (b3 ++ b2 ++ b1 ++ b0)).map fun i => (i, rest)
  | _ => .error .shortFetch

/-- The bytes of a word as the hardware stores it (R58). -/
def wordBytes (w : Word) : List Byte :=
  [w.extractLsb' 0 8, w.extractLsb' 8 8, w.extractLsb' 16 8, w.extractLsb' 24 8]

/-- The instruction the decoder reads from a row's bits as the table numbers them. -/
def decodeTableWord (_nbits w : Nat) : Option Instr :=
  match decodeBytes (wordBytes (BitVec.ofNat 32 w)) with
  | .ok (i, _) => some i
  | .error _ => none

/-! The formats as words. -/

/-- Formats T, I and U (R59, R61, R62). -/
def packT (maj : BitVec 6) (w : BitVec 3) (d a : BitVec 8) (b : BitVec 7) : Word := maj ++ w ++ d ++ a ++ b
/-- Format B (R66). -/
def packB (maj : BitVec 6) (disp : BitVec 18) (sl : BitVec 8) : Word :=
  maj ++ (disp.extractLsb' 15 3) ++ sl ++ (disp.extractLsb' 0 15)
/-- Format M (R63, R64). -/
def packM (maj : BitVec 6) (w : BitVec 3) (d : BitVec 8) (n : BitVec 5) (o : BitVec 2) (p la : BitVec 4) : Word :=
  maj ++ w ++ d ++ n ++ o ++ p ++ la
/-- ATOM (R65). -/
def packAtom (ss : BitVec 3) (g : BitVec 5) (wc : BitVec 2) (f : BitVec 1) (n : BitVec 5) (o : BitVec 2)
    (op la : BitVec 4) : Word :=
  (0x36#6) ++ ss ++ g ++ wc ++ f ++ n ++ o ++ op ++ la
/-- Format A (R67). -/
def packA (maj : BitVec 6) (m : BitVec 3) (x y : BitVec 8) (sel : BitVec 3) (la : BitVec 4) : Word :=
  maj ++ m ++ x ++ y ++ sel ++ la
/-- Format H (R69). -/
def packH (k : BitVec 3) (p : BitVec 23) : Word := (0x3F#6) ++ k ++ p
/-- TACK (R61). -/
def packTack (idx : BitVec 12) : Word := (0x3B#6) ++ (3#3) ++ (0#4) ++ idx ++ (0#7)

/-- The word of an instruction; none for the event rows, which are no words. -/
def encode : Instr → Option Word
  | .add w d a b => some (packT 1 w.code d a b)
  | .sub w d a b => some (packT 2 w.code d a b)
  | .mul w d a b => some (packT 3 w.code d a b)
  | .mulh w d a b => some (packT 4 w.code d a b)
  | .mulhu w d a b => some (packT 5 w.code d a b)
  | .mad w d a b => some (packT 6 w.code d a b)
  | .min w d a b => some (packT 7 w.code d a b)
  | .max w d a b => some (packT 8 w.code d a b)
  | .minu w d a b => some (packT 9 w.code d a b)
  | .maxu w d a b => some (packT 10 w.code d a b)
  | .adds w d a b => some (packT 11 w.code d a b)
  | .subs w d a b => some (packT 12 w.code d a b)
  | .addus w d a b => some (packT 13 w.code d a b)
  | .subus w d a b => some (packT 14 w.code d a b)
  | .and w d a b => some (packT 15 w.code d a b)
  | .or w d a b => some (packT 16 w.code d a b)
  | .xor w d a b => some (packT 17 w.code d a b)
  | .andn w d a b => some (packT 18 w.code d a b)
  | .shl w d a b => some (packT 19 w.code d a b)
  | .shr w d a b => some (packT 20 w.code d a b)
  | .sar w d a b => some (packT 21 w.code d a b)
  | .rot w d a b => some (packT 22 w.code d a b)
  | .bfx w d a b => some (packT 23 w.code d a b)
  | .bfi w d a b => some (packT 24 w.code d a b)
  | .cmpeq w d a b => some (packT 25 w.code d a b)
  | .cmpne w d a b => some (packT 26 w.code d a b)
  | .cmplt w d a b => some (packT 27 w.code d a b)
  | .cmple w d a b => some (packT 28 w.code d a b)
  | .cmpltu w d a b => some (packT 29 w.code d a b)
  | .cmpleu w d a b => some (packT 30 w.code d a b)
  | .sel w d a b => some (packT 31 w.code d a b)
  | .dot8I4 d a b => some (packT 0x20 0 d a b)
  | .dot4I8 d a b => some (packT 0x20 1 d a b)
  | .dot2B16 d a b => some (packT 0x20 6 d a b)
  | .addi w d a imm => some (packT 33 w.code d a imm)
  | .andi w d a imm => some (packT 34 w.code d a imm)
  | .ori w d a imm => some (packT 35 w.code d a imm)
  | .xori w d a imm => some (packT 36 w.code d a imm)
  | .shli w d a imm => some (packT 37 w.code d a imm)
  | .shri w d a imm => some (packT 38 w.code d a imm)
  | .sari w d a imm => some (packT 39 w.code d a imm)
  | .cmpeqi w d a imm => some (packT 40 w.code d a imm)
  | .cmplti w d a imm => some (packT 41 w.code d a imm)
  | .movi w d imm => some (packT 0x2A w.code d 0 imm)
  | .mov w d a => some (packT 0x2B w.code d a 0)
  | .not w d a => some (packT 0x2B w.code d a 1)
  | .neg w d a => some (packT 0x2B w.code d a 2)
  | .abs w d a => some (packT 0x2B w.code d a 3)
  | .clz w d a => some (packT 0x2B w.code d a 4)
  | .ctz w d a => some (packT 0x2B w.code d a 5)
  | .popc w d a => some (packT 0x2B w.code d a 6)
  | .brev w d a => some (packT 0x2B w.code d a 7)
  | .bswap w d a => some (packT 0x2B w.code d a 8)
  | .fclass w d a => some (packT 0x2B w.code d a 9)
  | .sxt w d a src => some (packT 0x2B w.code d a (4#5 ++ src))
  | .zxt w d a src => some (packT 0x2B w.code d a (5#5 ++ src))
  | .sqrt w d a => some (packT 0x2B w.code d a 32)
  | .rcp w d a => some (packT 0x2B w.code d a 33)
  | .rsq w d a => some (packT 0x2B w.code d a 34)
  | .exp2 w d a => some (packT 0x2B w.code d a 35)
  | .log2 w d a => some (packT 0x2B w.code d a 36)
  | .sin w d a => some (packT 0x2B w.code d a 37)
  | .cos w d a => some (packT 0x2B w.code d a 38)
  | .floor w d a => some (packT 0x2B w.code d a 39)
  | .ceil w d a => some (packT 0x2B w.code d a 40)
  | .trunc w d a => some (packT 0x2B w.code d a 41)
  | .rint w d a => some (packT 0x2B w.code d a 42)
  | .cvtFromE4M3 w d a => some (packT 0x2B w.code d a 48)
  | .cvtFromE5M2 w d a => some (packT 0x2B w.code d a 49)
  | .cvtToE4M3 w d a => some (packT 0x2B w.code d a 50)
  | .cvtToE4M3Sat w d a => some (packT 0x2B w.code d a 51)
  | .cvtToE5M2 w d a => some (packT 0x2B w.code d a 52)
  | .cvtToE5M2Sat w d a => some (packT 0x2B w.code d a 53)
  | .cvt w d a src uns rnd => some (packT 0x2B w.code d a (1#1 ++ src.code ++ uns ++ rnd))
  | .bra disp => some (packB 0x2C disp 0)
  | .bz p disp => some (packB 0x2D disp p)
  | .bnz p disp => some (packB 0x2E disp p)
  | .call d disp => some (packB 0x2F disp d)
  | .split p disp => some (packB 0x30 disp p)
  | .launch x disp => some (packB 0x31 disp x)
  | .ret a => some (packT 0x32 0 0 a 0)
  | .jmpi a => some (packT 0x32 1 0 a 0)
  | .calli d a => some (packT 0x32 2 d a 0)
  | .nop => some (packT 0x32 3 0 0 0)
  | .exit => some (packT 0x32 4 0 0 0)
  | .join => some (packT 0x32 5 0 0 0)
  | .yieldI => some (packT 0x32 6 0 0 0)
  | .ldg w d n pol la => some (packM 0x33 w.code d n 0 pol la)
  | .stg w d n pol => some (packM 0x34 w.code d n 0 pol 0)
  | .lds w d n la => some (packM 0x35 w.code d n 0 0 la)
  | .ldc w d n la => some (packM 0x35 w.code d n 0 1 la)
  | .sts w d n => some (packM 0x35 w.code d n 0 2 0)
  | .stc w d n => some (packM 0x35 w.code d n 0 3 0)
  | .aadd ss g wc f n o la => some (packAtom ss g wc f n o 0 la)
  | .amin ss g wc f n o la => some (packAtom ss g wc f n o 1 la)
  | .amax ss g wc f n o la => some (packAtom ss g wc f n o 2 la)
  | .aminu ss g wc f n o la => some (packAtom ss g wc f n o 3 la)
  | .amaxu ss g wc f n o la => some (packAtom ss g wc f n o 4 la)
  | .aand ss g wc f n o la => some (packAtom ss g wc f n o 5 la)
  | .aor ss g wc f n o la => some (packAtom ss g wc f n o 6 la)
  | .axor ss g wc f n o la => some (packAtom ss g wc f n o 7 la)
  | .axchg ss g wc f n o la => some (packAtom ss g wc f n o 8 la)
  | .acas ss g wc f n o la => some (packAtom ss g wc f n o 9 la)
  | .shfl w d a b => some (packT 0x37 w.code d a b)
  | .ballot d a => some (packT 0x38 3 d a 0)
  | .eqmask w d a => some (packT 0x38 w.code d a 1)
  | .any w d a => some (packT 0x38 w.code d a 2)
  | .all w d a => some (packT 0x38 w.code d a 3)
  | .rds w d num => some (packT 0x38 w.code d num 4)
  | .wrsEm a => some (packT 0x38 3 0 a 5)
  | .wrsSw a => some (packT 0x38 3 3 a 5)
  | .krd d k => some (packT 0x38 3 d k 6)
  | .kwr k a => some (packT 0x38 3 k a 7)
  | .rdcyc d => some (packT 0x38 4 d 0 8)
  | .lblr d a => some (packT 0x38 2 d a 9)
  | .lblq d a => some (packT 0x38 2 d a 10)
  | .bar b => some (packA 0x39 0 (0#4 ++ b) 0 0 0)
  | .bararr b y la => some (packA 0x39 0 (0#4 ++ b) y 1 la)
  | .barwait b y => some (packA 0x39 0 (0#4 ++ b) y 2 0)
  | .bardrop b => some (packA 0x39 0 (0#4 ++ b) 0 3 0)
  | .sbinit x y => some (packA 0x39 1 x y 0 0)
  | .sbarr x y la => some (packA 0x39 1 x y 1 la)
  | .sbexp x y => some (packA 0x39 1 x y 2 0)
  | .sbwait x y => some (packA 0x39 1 x y 3 0)
  | .sbdrop y => some (packA 0x39 1 0 y 4 0)
  | .bitwait x y => some (packA 0x39 2 x y 0 0)
  | .spawn x y la => some (packA 0x39 2 x y 1 la)
  | .fence ord sc => some (packA 0x3A 0 0 (0#6 ++ ord) sc 0)
  | .clean x y => some (packA 0x3A 1 x y 0 0)
  | .inval x y => some (packA 0x3A 1 x y 1 0)
  | .pref x y => some (packA 0x3A 1 x y 2 0)
  | .ipref x y => some (packA 0x3A 1 x y 3 0)
  | .icinv x y => some (packA 0x3A 1 x y 4 0)
  | .stream x y la => some (packA 0x3A 2 x y 0 la)
  | .streamx y => some (packA 0x3A 2 0 y 1 0)
  | .spill x y => some (packA 0x3A 3 x y 0 0)
  | .fill x y la => some (packA 0x3A 3 x y 1 la)
  | .ibar => some (packA 0x3A 4 0 0 0 0)
  | .syscall imm => some (packT 0x3B 0 0 0 imm)
  | .trap imm => some (packT 0x3B 1 0 0 imm)
  | .brk imm => some (packT 0x3B 2 0 0 imm)
  | .tack idx => some (packTack idx)
  | .uint d a => some (packT 0x3B 4 d a 0)
  | .wcopy x y sp => some (packA 0x3C 0 x y sp 0)
  | .wgath x y sp => some (packA 0x3C 1 x y sp 0)
  | .wscat x y sp => some (packA 0x3C 2 x y sp 0)
  | .wfill x y sp => some (packA 0x3C 3 x y sp 0)
  | .wsend x => some (packA 0x3C 4 x 0 0 0)
  | .wcollSumF32 x => some (packA 0x3C 5 x 0 0 0)
  | .wcollSumB16 x => some (packA 0x3C 5 x 0 1 0)
  | .wcollSumI32 x => some (packA 0x3C 5 x 0 2 0)
  | .wcollGather x => some (packA 0x3C 5 x 0 3 0)
  | .wcollBcast x => some (packA 0x3C 5 x 0 4 0)
  | .mbayBay x y la => some (packA 0x3D 0 x y 0 la)
  | .mbayAcc x y la => some (packA 0x3D 0 x y 1 la)
  | .mwload x => some (packA 0x3D 1 x 0 0 0)
  | .mma x => some (packA 0x3D 2 x 0 0 0)
  | .mdrain x => some (packA 0x3D 3 x 0 0 0)
  | .mzero x => some (packA 0x3D 4 x 0 0 0)
  | .mfreeBay x y => some (packA 0x3D 5 x y 0 0)
  | .mfreeAcc x y => some (packA 0x3D 5 x y 1 0)
  | .close x cls la => some (packA 0x3E 0 x 0 cls la)
  | .waitb y cls => some (packA 0x3E 1 0 y cls 0)
  | .testb x y cls la => some (packA 0x3E 2 x y cls la)
  | .qpush x y la => some (packA 0x3E 3 x y 0 la)
  | .qpop x y la => some (packA 0x3E 4 x y 0 la)
  | .qtry x y la => some (packA 0x3E 5 x y 0 la)
  | .setfr y => some (packA 0x3E 6 0 y 0 0)
  | .getfr x la => some (packA 0x3E 7 x 0 0 la)
  | .ximm p => some (packH 0 p)
  | .offs p => some (packH 1 p)
  | .perm p => some (packH 2 (0#7 ++ p))
  | .mixw p => some (packH 3 (0#14 ++ p))
  | .lka l => some (packH 4 (0#17 ++ l))
  | .longLatencyWriteLands _ => none
  | .loadDataError _ _ _ _ => none
  | .joinDeadlock _ => none
  | .sbwaitPoll _ _ => none
  | .bitwaitPoll _ _ => none
  | .yieldRelease _ _ => none
  | .spawnBinTimer _ _ => none
  | .blockRetire _ _ => none
  | .blockPlacement _ => none
  | .dependencyPoll _ _ => none
  | .streamFetch _ _ => none
  | .fetchAhead _ _ _ => none
  | .instructionFetchFill _ _ => none
  | .translationParkResolve _ _ => none
  | .translationInvalidate _ _ => none
  | .pcieCompletion _ _ _ => none
  | .pcieCompletionTimeout _ _ => none
  | .writebackUndelivered _ => none
  | .pciePostedWrite _ _ => none
  | .chipletDeviceAccess _ _ _ _ => none
  | .wringerLineWrite _ _ => none
  | .mangleCommandStart _ => none
  | .mangleCommandComplete _ => none
  | .waitbReturn _ _ => none
  | .wsendRemoteWrite _ _ _ => none
  | .wcollMatch _ _ _ => none
  | .sorterSample _ => none
  | .timeSliceEnd _ => none
  | .engineDrain _ _ => none
  | .graceDeadline _ _ => none
  | .watchdog _ _ => none
  | .contextResume _ _ => none
  | .blockDrop _ _ => none
  | .skeinResume _ => none
  | .resumeMask _ _ _ => none
  | .finwesinStopAction _ => none
  | .clusterConfirm _ _ => none
  | .timeCall _ _ _ => none
  | .memAlloc _ _ _ => none
  | .memUnmap _ _ _ => none
  | .tagWiden _ _ _ => none
  | .fileOpen _ _ _ _ => none
  | .fileRead _ _ _ _ => none
  | .fileWrite _ _ _ _ => none
  | .fileClose _ _ _ => none
  | .sockCreate _ _ _ _ => none
  | .sockSend _ _ _ _ => none
  | .sockRecv _ _ _ _ => none
  | .sockClose _ _ _ => none
  | .egress _ _ _ _ => none
  | .basketCreate _ _ _ => none
  | .basketDestroy _ _ _ => none
  | .stageRegister _ _ _ => none
  | .stageRemove _ _ _ => none
  | .spawnConfig _ _ _ => none
  | .collGroup _ _ _ => none
  | .uintRegister _ _ _ => none
  | .uintUnregister _ _ _ => none
  | .unlistedCall _ _ _ => none
  | .submit _ => none
  | .mapReq _ => none
  | .unmapReq _ => none
  | .uireg _ => none
  | .uiunreg _ => none
  | .invalidRequest _ => none
  | .queueNotify _ _ _ => none
  | .functionLevelReset _ => none
  | .virtioStatusReset _ => none
  | .seamFailure _ _ => none
  | .routeFailure _ _ => none
  | .nvmeCompletion _ => none
  | .nvmeAbortTimeout _ _ => none
  | .moduleReset _ => none
  | .powerCapExceeded _ => none
  | .thermalThrottle _ _ => none
  | .thermalShutdown _ _ => none
  | .inventoryRefresh => none
  | .discardedWrite _ _ => none
  | .drain _ _ _ => none
  | .resume _ _ _ => none
  | .releaseHold _ _ => none
  | .attach _ _ => none
  | .detach _ _ => none
  | .policy _ _ _ _ => none
  | .attest _ _ _ _ => none
  | .cap _ _ => none
  | .dbgEvent _ => none
  | .dbgRead _ _ => none
  | .dbgWrite _ _ _ => none
  | .dbgResume _ _ => none
  | .invalidCommand _ _ _ => none
  | .freezeAssert => none
  | .freezeRelease _ => none
  | .scansel _ => none
  | .scanout => none
  | .idcode => none
  | .bypass => none
  | .illegalInstruction _ => none
  | .storePerformed _ _ => none
  | .codeObjectLoad _ _ => none
  | .finwesinSubmission _ _ => none
  | .devicePageGrant _ _ _ => none
  | .applicationCoreAccess _ _ _ => none
  | .memoryWindowRead _ _ _ => none
  | .commonConfigurationWrite _ _ _ => none
  | .hbmStackOffline _ => none
  | .engineTimeout _ => none
  | .backInsideLimits => none
  | .controllerResetComplete _ => none

/-! Which widths, codes and numbers each row accepts (R80 to R86). -/

/-- Codes 000 to 100 (R80). -/
def Width.isInt (w : Width) : Bool := match w with | .i4 | .i8 | .i16 | .i32 | .i64 => true | .f16 | .b16 | .f32 => false

/-- Codes 101 to 111 (R16). -/
def Width.isFloat (w : Width) : Bool := !w.isInt

/-- The bits of a width (R16). -/
def Width.bits : Width → Nat
  | .i4 => 4 | .i8 => 8 | .i16 => 16 | .i32 => 32 | .i64 => 64 | .f16 => 16 | .b16 => 16 | .f32 => 32

/-- The slices of a width (R16). -/
def Width.slices (w : Width) : Nat := w.bits / 4

/-- An integer width wider than the source of SXT or ZXT, whose code is the low bits of fn (R81). -/
def wider (w : Width) (src : BitVec 2) : Bool := w.isInt && decide (src.toNat < w.code.toNat)

/-- The general CVT codes that R82 accepts. -/
def cvtAccepted (w src : Width) (uns : BitVec 1) : Bool :=
  w != src && !(w.isInt && src.isInt) && !(uns == 1#1 && w.isFloat && src.isFloat)

/-- The width of a special register, 0 where none is assigned (R162). -/
def specialWidth (num : BitVec 8) : Nat :=
  if num.toNat ≤ 0x0D then 32 else if num.toNat ≤ 0x10 then 64 else 0

/-- The width code that RDS needs for a register (R162, R163). -/
def rdsAccepted (w : Width) (num : BitVec 8) : Bool :=
  (w == .i32 && specialWidth num == 32) || (w == .i64 && specialWidth num == 64)

/-- The codes of ATOM that R65 assigns, and the ops, widths and lookahead that each declared use takes (R209). `wide` stands
for AXCHG and ACAS. -/
def atomAccepted (wide : Bool) (ss : BitVec 3) (wc : BitVec 2) (f : BitVec 1) (o : BitVec 2) (la : BitVec 4) : Bool :=
  ss != 7#3 && wc != 3#2 &&
    (if f == 0#1 then wide || wc != 2#2
     else wc != 2#2 && ((o == 0#2 && !wide && la == 0#4) || o == 1#2))

/-- One field of PERM is a pattern with an amount it allows (R76). -/
def permFieldOk (p : BitVec 8) : Bool :=
  let pattern := (p.extractLsb' 5 3).toNat
  decide (pattern ≤ 4) && (p.extractLsb' 0 5 == 0#5 || (pattern != 0 && pattern != 4))

/-- The widths, codes and numbers of a word are ones its row accepts (R80 to R86). -/
def accepts : Instr → Bool
  | .add _ _ _ _ => true
  | .sub _ _ _ _ => true
  | .mul _ _ _ _ => true
  | .mulh w _ _ _ => w.isInt
  | .mulhu w _ _ _ => w.isInt
  | .mad _ _ _ _ => true
  | .min _ _ _ _ => true
  | .max _ _ _ _ => true
  | .minu w _ _ _ => w.isInt
  | .maxu w _ _ _ => w.isInt
  | .adds w _ _ _ => w.isInt
  | .subs w _ _ _ => w.isInt
  | .addus w _ _ _ => w.isInt
  | .subus w _ _ _ => w.isInt
  | .and w _ _ _ => w.isInt
  | .or w _ _ _ => w.isInt
  | .xor w _ _ _ => w.isInt
  | .andn w _ _ _ => w.isInt
  | .shl w _ _ _ => w.isInt
  | .shr w _ _ _ => w.isInt
  | .sar w _ _ _ => w.isInt
  | .rot w _ _ _ => w.isInt
  | .bfx w _ _ _ => w.isInt
  | .bfi w _ _ _ => w.isInt
  | .cmpeq _ _ _ _ => true
  | .cmpne _ _ _ _ => true
  | .cmplt _ _ _ _ => true
  | .cmple _ _ _ _ => true
  | .cmpltu _ _ _ _ => true
  | .cmpleu _ _ _ _ => true
  | .sel w _ _ _ => w.isInt
  | .dot8I4 _ _ _ => true
  | .dot4I8 _ _ _ => true
  | .dot2B16 _ _ _ => true
  | .addi w _ _ _ => w.isInt
  | .andi w _ _ _ => w.isInt
  | .ori w _ _ _ => w.isInt
  | .xori w _ _ _ => w.isInt
  | .shli w _ _ _ => w.isInt
  | .shri w _ _ _ => w.isInt
  | .sari w _ _ _ => w.isInt
  | .cmpeqi w _ _ _ => w.isInt
  | .cmplti w _ _ _ => w.isInt
  | .movi w _ _ => w.isInt
  | .mov _ _ _ => true
  | .not w _ _ => w.isInt
  | .neg _ _ _ => true
  | .abs _ _ _ => true
  | .clz w _ _ => w.isInt
  | .ctz w _ _ => w.isInt
  | .popc w _ _ => w.isInt
  | .brev w _ _ => w.isInt
  | .bswap w _ _ => w.isInt && w != .i4
  | .fclass w _ _ => w.isFloat
  | .sxt w _ _ src => wider w src
  | .zxt w _ _ src => wider w src
  | .sqrt w _ _ => w.isFloat
  | .rcp w _ _ => w.isFloat
  | .rsq w _ _ => w.isFloat
  | .exp2 w _ _ => w.isFloat
  | .log2 w _ _ => w.isFloat
  | .sin w _ _ => w.isFloat
  | .cos w _ _ => w.isFloat
  | .floor w _ _ => w.isFloat
  | .ceil w _ _ => w.isFloat
  | .trunc w _ _ => w.isFloat
  | .rint w _ _ => w.isFloat
  | .cvtFromE4M3 w _ _ => w.isFloat
  | .cvtFromE5M2 w _ _ => w.isFloat
  | .cvtToE4M3 w _ _ => w.isFloat
  | .cvtToE4M3Sat w _ _ => w.isFloat
  | .cvtToE5M2 w _ _ => w.isFloat
  | .cvtToE5M2Sat w _ _ => w.isFloat
  | .cvt w _ _ src uns _ => cvtAccepted w src uns
  | .bra _ => true
  | .bz _ _ => true
  | .bnz _ _ => true
  | .call _ _ => true
  | .split _ _ => true
  | .launch _ _ => true
  | .ret _ => true
  | .jmpi _ => true
  | .calli _ _ => true
  | .nop => true
  | .exit => true
  | .join => true
  | .yieldI => true
  | .ldg w _ _ _ _ => w.isInt
  | .stg w _ _ _ => w.isInt
  | .lds w _ _ _ => w.isInt
  | .ldc w _ _ _ => w.isInt
  | .sts w _ _ => w.isInt
  | .stc w _ _ => w.isInt
  | .aadd ss _ wc f _ o la => atomAccepted false ss wc f o la
  | .amin ss _ wc f _ o la => atomAccepted false ss wc f o la
  | .amax ss _ wc f _ o la => atomAccepted false ss wc f o la
  | .aminu ss _ wc f _ o la => atomAccepted false ss wc f o la
  | .amaxu ss _ wc f _ o la => atomAccepted false ss wc f o la
  | .aand ss _ wc f _ o la => atomAccepted false ss wc f o la
  | .aor ss _ wc f _ o la => atomAccepted false ss wc f o la
  | .axor ss _ wc f _ o la => atomAccepted false ss wc f o la
  | .axchg ss _ wc f _ o la => atomAccepted true ss wc f o la
  | .acas ss _ wc f _ o la => atomAccepted true ss wc f o la
  | .shfl w _ _ _ => w.isInt
  | .ballot _ _ => true
  | .eqmask w _ _ => w.isInt
  | .any w _ _ => w.isInt
  | .all w _ _ => w.isInt
  | .rds w _ num => rdsAccepted w num
  | .wrsEm _ => true
  | .wrsSw _ => true
  | .krd _ k => decide (k.toNat ≤ 63)
  | .kwr k _ => decide (k.toNat ≤ 63)
  | .rdcyc _ => true
  | .lblr _ _ => true
  | .lblq _ _ => true
  | .bar _ => true
  | .bararr _ _ _ => true
  | .barwait _ _ => true
  | .bardrop _ => true
  | .sbinit _ _ => true
  | .sbarr _ _ _ => true
  | .sbexp _ _ => true
  | .sbwait _ _ => true
  | .sbdrop _ => true
  | .bitwait _ _ => true
  | .spawn _ _ _ => true
  | .fence ord sc => ord != 0#2 && decide (sc.toNat ≤ 4)
  | .clean _ _ => true
  | .inval _ _ => true
  | .pref _ _ => true
  | .ipref _ _ => true
  | .icinv _ _ => true
  | .stream _ _ _ => true
  | .streamx _ => true
  | .spill _ _ => true
  | .fill _ _ _ => true
  | .ibar => true
  | .syscall _ => true
  | .trap _ => true
  | .brk _ => true
  | .tack _ => true
  | .uint _ _ => true
  | .wcopy _ _ sp => decide (sp.toNat ≤ 5)
  | .wgath _ _ sp => decide (sp.toNat ≤ 5)
  | .wscat _ _ sp => decide (sp.toNat ≤ 5)
  | .wfill _ _ sp => decide (sp.toNat ≤ 2)
  | .wsend _ => true
  | .wcollSumF32 _ => true
  | .wcollSumB16 _ => true
  | .wcollSumI32 _ => true
  | .wcollGather _ => true
  | .wcollBcast _ => true
  | .mbayBay _ _ _ => true
  | .mbayAcc _ _ _ => true
  | .mwload _ => true
  | .mma _ => true
  | .mdrain _ => true
  | .mzero _ => true
  | .mfreeBay _ _ => true
  | .mfreeAcc _ _ => true
  | .close _ cls _ => decide (cls.toNat ≤ 1)
  | .waitb _ cls => decide (cls.toNat ≤ 1)
  | .testb _ _ cls _ => decide (cls.toNat ≤ 1)
  | .qpush _ _ _ => true
  | .qpop _ _ _ => true
  | .qtry _ _ _ => true
  | .setfr _ => true
  | .getfr _ _ => true
  | .ximm _ => true
  | .offs _ => true
  | .perm p => permFieldOk (p.extractLsb' 0 8) && permFieldOk (p.extractLsb' 8 8)
  | .mixw _ => true
  | .lka _ => true
  | .longLatencyWriteLands _ => false
  | .loadDataError _ _ _ _ => false
  | .joinDeadlock _ => false
  | .sbwaitPoll _ _ => false
  | .bitwaitPoll _ _ => false
  | .yieldRelease _ _ => false
  | .spawnBinTimer _ _ => false
  | .blockRetire _ _ => false
  | .blockPlacement _ => false
  | .dependencyPoll _ _ => false
  | .streamFetch _ _ => false
  | .fetchAhead _ _ _ => false
  | .instructionFetchFill _ _ => false
  | .translationParkResolve _ _ => false
  | .translationInvalidate _ _ => false
  | .pcieCompletion _ _ _ => false
  | .pcieCompletionTimeout _ _ => false
  | .writebackUndelivered _ => false
  | .pciePostedWrite _ _ => false
  | .chipletDeviceAccess _ _ _ _ => false
  | .wringerLineWrite _ _ => false
  | .mangleCommandStart _ => false
  | .mangleCommandComplete _ => false
  | .waitbReturn _ _ => false
  | .wsendRemoteWrite _ _ _ => false
  | .wcollMatch _ _ _ => false
  | .sorterSample _ => false
  | .timeSliceEnd _ => false
  | .engineDrain _ _ => false
  | .graceDeadline _ _ => false
  | .watchdog _ _ => false
  | .contextResume _ _ => false
  | .blockDrop _ _ => false
  | .skeinResume _ => false
  | .resumeMask _ _ _ => false
  | .finwesinStopAction _ => false
  | .clusterConfirm _ _ => false
  | .timeCall _ _ _ => false
  | .memAlloc _ _ _ => false
  | .memUnmap _ _ _ => false
  | .tagWiden _ _ _ => false
  | .fileOpen _ _ _ _ => false
  | .fileRead _ _ _ _ => false
  | .fileWrite _ _ _ _ => false
  | .fileClose _ _ _ => false
  | .sockCreate _ _ _ _ => false
  | .sockSend _ _ _ _ => false
  | .sockRecv _ _ _ _ => false
  | .sockClose _ _ _ => false
  | .egress _ _ _ _ => false
  | .basketCreate _ _ _ => false
  | .basketDestroy _ _ _ => false
  | .stageRegister _ _ _ => false
  | .stageRemove _ _ _ => false
  | .spawnConfig _ _ _ => false
  | .collGroup _ _ _ => false
  | .uintRegister _ _ _ => false
  | .uintUnregister _ _ _ => false
  | .unlistedCall _ _ _ => false
  | .submit _ => false
  | .mapReq _ => false
  | .unmapReq _ => false
  | .uireg _ => false
  | .uiunreg _ => false
  | .invalidRequest _ => false
  | .queueNotify _ _ _ => false
  | .functionLevelReset _ => false
  | .virtioStatusReset _ => false
  | .seamFailure _ _ => false
  | .routeFailure _ _ => false
  | .nvmeCompletion _ => false
  | .nvmeAbortTimeout _ _ => false
  | .moduleReset _ => false
  | .powerCapExceeded _ => false
  | .thermalThrottle _ _ => false
  | .thermalShutdown _ _ => false
  | .inventoryRefresh => false
  | .discardedWrite _ _ => false
  | .drain _ _ _ => false
  | .resume _ _ _ => false
  | .releaseHold _ _ => false
  | .attach _ _ => false
  | .detach _ _ => false
  | .policy _ _ _ _ => false
  | .attest _ _ _ _ => false
  | .cap _ _ => false
  | .dbgEvent _ => false
  | .dbgRead _ _ => false
  | .dbgWrite _ _ _ => false
  | .dbgResume _ _ => false
  | .invalidCommand _ _ _ => false
  | .freezeAssert => false
  | .freezeRelease _ => false
  | .scansel _ => false
  | .scanout => false
  | .idcode => false
  | .bypass => false
  | .illegalInstruction _ => false
  | .storePerformed _ _ => false
  | .codeObjectLoad _ _ => false
  | .finwesinSubmission _ _ => false
  | .devicePageGrant _ _ _ => false
  | .applicationCoreAccess _ _ _ => false
  | .memoryWindowRead _ _ _ => false
  | .commonConfigurationWrite _ _ _ => false
  | .hbmStackOffline _ => false
  | .engineTimeout _ => false
  | .backInsideLimits => false
  | .controllerResetComplete _ => false

end Sys2Proof
end

