-- ==== Sys2Proof/Machine/State.lean ====
section
/-! DEFINITION. Every piece of state the specification gives the machine, as plain data, and the state after module
reset (R123, R168, R179 to R204, R276 to R297, R328 to R340, R344, R363, R389 to R402, R434 to R440). -/

namespace Sys2Proof.Machine

/-- Why the machine stops. -/
inductive Fault where
  /-- Raised by the meaning of an instruction word when no split of a running skein is issuing. The step never raises it:
  it runs a word only for the split it chose (safe). -/
  | noIssuer
  deriving DecidableEq, Repr, Inhabited

/-- Why an instruction has no meaning. -/
inductive Refusal where
  /-- Raised by an arm of exec that has no meaning yet (safe). -/
  | notModelled (mnemonic : String)
  deriving DecidableEq, Repr, Inhabited

/-- The three address spaces (R180). -/
inductive Space where
  | g | s | c
  deriving DecidableEq, Repr, Inhabited

/-- A location (R230): a physical byte, a byte of a block's scratchpad, or a byte of a context's window on a cluster.
`own` is (grid, block) in S, (cluster, context) in C, and (0, 0) in G. -/
structure Loc where
  sp : Space
  own : Nat × Nat
  addr : Nat
  deriving DecidableEq, Repr, Inhabited

/-- The hint words of the group being formed (R70 to R79). -/
structure Hints where
  /-- Address of the group's first word. -/
  gpc : Option Addr
  ximm : Option (BitVec 23)
  offs : Option (BitVec 23)
  perm : Option (BitVec 16)
  mixw : Option (BitVec 9)
  lka : Option (BitVec 6)
  /-- Kinds of the group's hint words in word order. -/
  kinds : List Nat
  /-- First word of the group that R70, R76 or R86 rejects, with its fault detail. -/
  bad : Option (Addr × Nat)
  deriving DecidableEq, Repr, Inhabited

/-- No hint word stands before the consumer. -/
def Hints.empty : Hints := ⟨.none, .none, .none, .none, .none, .none, [], .none⟩

/-- The cause of a STALLED split (R137). -/
inductive StallOn where
  /-- Lines that a command owns, or, for a store or an atomic, owns or pins (R242). -/
  | line (store : Bool) (locs : List Loc)
  /-- A full basket (R321): cluster, slot, and whether the slot is still the same one. -/
  | basket (cl slot : Nat) (gen : Nat)
  /-- The Wringer's limits (R278). -/
  | wringer
  /-- A full Mangle queue (R290). -/
  | mangle
  /-- The batch that CLOSE waits for: class (R277). -/
  | close (cls : Nat)
  /-- A full fault buffer (R201). -/
  | buffer
  /-- A fill in flight of the line (R377). -/
  | fetch (line : Nat)
  /-- A PCIe request without its completion, with the lanes concerned and the lines that it reads (R211, R394). -/
  | pcie (lanes : Mask) (lines : List Nat)
  deriving DecidableEq, Repr, Inhabited

/-- What an instruction read at its issue: the slices of its registers with the join of their sets, the sets of the single
registers of a SPILL or of the pages that a BITWAIT has read, and its policy (R21, R177, R191, R221). -/
structure Kept where
  files : List LaneFile
  rd : OSet
  regs : List OSet
  pol : Option (BitVec 32)
  deriving DecidableEq, Repr, Inhabited

/-- An instruction that is performed from its translation onward: by a replay (R120, R200), or by a poll of a BITWAIT that meets
a cause (R177). It has the word with its address, the hints of its group, and what it read at its issue (R21), but for an engine
command, which a replay issues from its first step (R274). -/
structure Redo where
  instr : Instr
  word : Addr
  hints : Hints
  kept : Option Kept
  /-- The split has counted the instruction as executed (R31). -/
  counted : Bool := false
  deriving DecidableEq, Repr, Inhabited

/-- What a HELD split waits for (R137). -/
inductive HoldOn where
  | bar (b : Nat)
  | barwait (b : Nat) (tokens : List Nat)
  /-- The SBWAIT with what it has read, its object's offset and its tokens (R225). -/
  | sbwait (redo : Redo) (off : Nat) (tokens : List Nat)
  /-- The BITWAIT with what it has read, and each lane with the virtual address of its word and its bit (R177). -/
  | bitwait (redo : Redo) (bits : List (Nat × Nat × Nat))
  | waitb (cls : Nat) (n : Nat) (upto : List Nat)
  | qpop (cl slot gen : Nat) (x : Nat) (h : Nat) (set : OSet) (la : Nat)
  deriving DecidableEq, Repr, Inhabited

/-- One service call of one lane (R354), with its results once the mender has served it (R356). -/
structure Call where
  lane : Nat
  num : Nat
  args : List (BitVec 32)
  /-- Values for v0, v1, ... and the service set. -/
  result : Option (List (BitVec 32) × OSet)
  deriving DecidableEq, Repr, Inhabited

/-- Why a split is PARKED (R137). A park on a fetch keeps no instruction: the group is fetched again. -/
inductive ParkOn where
  | syscall (calls : List Call) (argset : OSet) (resume : Addr) (word : Addr)
  | translation (entry : Nat) (redo : Option Redo)
  deriving DecidableEq, Repr, Inhabited

/-- The life-cycle state of a split (R137); STOPPED is the skein's `stop`. -/
inductive SplitSt where
  | ready
  | stalled (on : StallOn)
  | held (on : HoldOn)
  | joinWait (arrived : Bool)
  | parked (on : ParkOn)
  deriving DecidableEq, Repr, Inhabited

/-- A split (R123, R126 to R128). -/
structure Split where
  uid : Nat
  pc : Addr
  members : Mask
  em : Mask
  fr : BitVec 32
  co : OSet
  inner : Option Nat
  st : SplitSt
  /-- Moment of the last issue (R138) or, of a HELD split, of the hold (R322). -/
  since : Nat
  /-- YIELD: the READY splits of the port still to issue, and the moment after which it may issue again (R157). -/
  yielded : Option (List (Nat × Nat) × Nat)
  hints : Hints
  /-- End of a recipe stub in progress and the address to continue at (R370). -/
  stub : Option (Addr × Addr)
  /-- The instruction whose replay comes at the next issue (R200). -/
  again : Option Redo := none
  /-- The basket, as cluster and slot, whose QPUSH held the split when its skein stopped; it still waits on that basket
  until it has issued the QPUSH again (R137, R296). -/
  pushing : Option (Nat × Nat) := none
  deriving DecidableEq, Repr, Inhabited

/-- An entry of the reconvergence stack (R130). -/
structure StackSlot where
  used : Bool
  pc : Addr
  opened : Bool
  rejoin : Mask
  arrived : Mask
  em : Mask
  taken : Mask
  takenPc : Addr
  fr : BitVec 32
  co : OSet
  parent : Option Nat
  deriving DecidableEq, Repr, Inhabited

/-- A long-latency write that has not landed (R31, R32). -/
structure Pend where
  owner : Nat
  /-- Address of its group, and of the word itself. -/
  pc : Addr
  word : Addr
  /-- Lookahead of the producer and, for each split that continues its count, the followers still exempt (R31). -/
  look : Nat
  wins : List (Nat × Nat)
  /-- The splits for which the write is one of an earlier instruction of their own (R31, R227). -/
  heirs : List Nat
  lanes : Mask
  /-- Values and pending bits, lane by lane. -/
  img : List LaneFile
  masks : List LaneFile
  /-- The sets that the registers had before the write. -/
  old : List (Nat × OSet)
  /-- The lanes that loaded, with their addresses and the locations of their first bytes; none for a write that loads nothing
  (R34). -/
  src : List (Nat × Nat × Loc)
  deriving DecidableEq, Repr, Inhabited

/-- A store that has not been performed (R248), one for each single-copy atomic unit (R229): the splits in whose program
order it stands (R227), and the other splits of the skein that have read it (R231, R239). -/
structure PStore where
  owners : List Nat
  loc : Loc
  bytes : List Byte
  seen : List Nat
  deriving DecidableEq, Repr, Inhabited

/-- An armed stream (R193, R218). -/
structure Stream where
  handle : Nat
  slot : Nat
  start : Nat
  stride : Int
  count : Nat
  next : Nat
  position : Int
  policy : BitVec 32
  deriving DecidableEq, Repr, Inhabited

/-- Where a byte of an engine command's source comes from (R243): the value at the issue moment, or the location of a
line that an earlier outstanding command owns. -/
inductive SrcByte where
  | val (b : Byte)
  | later (l : Loc)
  deriving DecidableEq, Repr, Inhabited

/-- One 64-byte destination line of a Wringer command: the bytes it receives, none where a fault prevents it, and the
locations that the command owns there until it has written the line (R242, R278, R303, R305). -/
structure DstLine where
  bytes : List (Loc × SrcByte)
  owns : List Loc
  deriving DecidableEq, Repr, Inhabited

/-- What a Wringer command does (R273, R279). A source byte is absent where an uncorrectable error took it (R275). -/
inductive CmdKind where
  | local
  | wsend (module dst : Nat) (src : List (Option SrcByte)) (set : OSet)
  | wcoll (kind group len root : Nat) (src : List (Option SrcByte))
  deriving DecidableEq, Repr, Inhabited

/-- An outstanding Wringer command (R274). `order` is its issue moment among all commands (R242). -/
structure Cmd where
  order : Nat
  batch : BitVec 16
  minor : Nat
  sel : Nat
  kind : CmdKind
  /-- Destination lines not yet written. -/
  lines : List DstLine
  /-- Offset of the scratchpad barrier named (R284). -/
  barrier : Option Nat
  /-- The command fault found, and the lanes' pages the command holds (R275, R274). -/
  fault : Option (BitVec 16)
  pages : List Nat
  /-- The locations pinned until the engine has read their lines (R242, R305). -/
  pins : List Loc := []
  /-- A command fault has been found, which the skein meets once (R275). -/
  failed : Bool := false
  /-- The counts of engine decrements still to be made on the barrier (R242, R284). -/
  owes : List Nat := []
  /-- The destination bytes of a collective in the order of their offsets (R283). -/
  dst : List Loc := []
  deriving DecidableEq, Repr, Inhabited

/-- What a Mangle command does (R309 to R313). -/
inductive MKind where
  | mwload (bay : Nat) (weights scales : List SrcByte) (fmt grp : Nat) (source : Nat × Nat × Bool × Bool)
  | mma (bay tile : Nat) (rows : List SrcByte) (afmt : Nat)
  | mdrain (tile base stride fmt rnd sat phase : Nat)
  | mzero (tile : Nat)
  deriving DecidableEq, Repr, Inhabited

/-- A queued or started Mangle command (R290). -/
structure MCmd where
  order : Nat
  batch : BitVec 16
  kind : MKind
  /-- The set its bay or tile has once it is performed (R289). -/
  set : OSet
  started : Option Nat
  /-- The command fault found in its sources (R275). -/
  fault : Option (BitVec 16)
  pages : List Nat
  /-- The locations of its sources, in order: read again when the command is queued again (R370). -/
  srcs : List Loc
  deriving DecidableEq, Repr, Inhabited

/-- A trap record (R344). -/
structure Record where
  pc : Addr
  word : Addr
  code : BitVec 16
  cause : Nat
  flags : Nat
  em : Mask
  lfm : Mask
  followers : Nat
  cmdclass : Nat
  batch : BitVec 16
  imm : BitVec 32
  grid : Nat
  core : Nat
  slot : Nat
  skein : Nat
  block : Nat
  addrs : List (Nat × Nat)
  ctx : Nat
  deriving DecidableEq, Repr, Inhabited

/-- Why a skein is STOPPED (R140, R343). -/
structure Stop where
  record : Record
  uid : Nat
  /-- The load to perform again (R34, R348). -/
  redo : Option Pend
  /-- The record has been handed to the debugger (R440). -/
  delivered : Bool
  /-- The mender has decided to resume the skein (R348, R374). -/
  go : Bool
  deriving DecidableEq, Repr, Inhabited

/-- A request to PCIe memory in flight (R211, R394): the split and the word that sent it. -/
structure PReq where
  uid : Nat
  word : Addr
  /-- The function whose requester ID it carries (R393). -/
  who : Option Nat
  sent : Nat
  /-- The lines that it reads, each with what the host has held there since the request was sent, the latest first (R229,
  R244). -/
  lines : List (Nat × List (List Byte))
  /-- Status of the completion once it has arrived: 0 success, otherwise refused (R211). -/
  status : Option Nat
  /-- No completion came for 50 ms while the skein was stopped, so the access ends in HOST-TIMEOUT (R394). -/
  expired : Bool := false
  /-- Lines of which an INVAL on the die has completed since, and of which the die keeps nothing from this request (R244). -/
  gone : List Nat := []
  deriving DecidableEq, Repr, Inhabited

/-- A skein (R123). `id` is global core times 128 plus slot. -/
structure Skein where
  id : Nat
  ctx : Nat
  grid : Nat
  block : Nat
  num : Nat
  window : Nat
  lanes : List LaneFile
  sets : List OSet
  /-- Bits [1:0] of sw: step and lkchk (R124). -/
  swlo : BitVec 2
  lfm : Mask
  lfmSet : OSet
  stack : List StackSlot
  splits : List Split
  nextUid : Nat
  cur : Option Nat
  pend : List Pend
  stores : List PStore
  streams : List Stream
  /-- Last-closed batch numbers of the Wringer and the Mangle (R276). -/
  lastW : BitVec 16
  lastM : BitVec 16
  cmds : List Cmd
  mq : List MCmd
  faults : List Record
  preqs : List PReq
  /-- Splits with write-backs to PCIe memory that no FENCE has awaited (R214, R394). -/
  wbs : List Nat
  stop : Option Stop
  /-- Recipe of the TACK at which the skein was saved (R366). -/
  recipe : Option Nat
  /-- Mangle commands removed by a pre-emption, in queue order (R367). -/
  removed : List MCmd
  /-- Number of the 64 KiB frame that holds the 16 KiB backing the reconvergence stack (R131, log 41). -/
  backing : Option Nat := none
  /-- An uncorrectable error that the next demand read of some lanes meets: its level, and whether a clean copy exists at a
  lower level (R34, R210, R348). -/
  flaw : Option (Mask × Nat × Bool) := none
  /-- Failed units of the register file: lane and register (R349). -/
  badRegs : List (Nat × Nat) := []
  /-- How many writes of G had been made at the last acquire at CL scope or wider (R192). -/
  acquired : Nat := 0
  deriving DecidableEq, Repr, Inhabited

/-- A block register (R141 to R144): the epoch's values oldest first, how many were released by the writer, and the
oldest value each skein may still read. -/
structure KReg where
  vals : List (BitVec 32)
  set : OSet
  writer : Option Nat
  released : Nat
  seen : List (Nat × Nat)
  deriving DecidableEq, Repr, Inhabited

/-- One skein's part of a block barrier (R168). -/
structure BarPart where
  participant : Bool
  arrived : Bool
  drop : Bool
  lanes : Mask
  deriving DecidableEq, Repr, Inhabited

/-- A block barrier (R168). -/
structure Bar where
  phase : BitVec 16
  e : Nat
  e' : Nat
  a : Nat
  parts : List BarPart
  deriving DecidableEq, Repr, Inhabited

/-- A bay (R285, R286). -/
structure Bay where
  claim : Option Nat
  cells : BitVec 16384
  scales : BitVec 2048
  fmt : Nat
  grp : Nat
  set : OSet
  /-- Weight and scale addresses, whether each lies in C, format and group of the last MWLOAD. -/
  source : Option (Nat × Nat × Bool × Bool × Nat × Nat)
  deriving DecidableEq, Repr, Inhabited

/-- An accumulator tile (R285): 1,024 F32 values. -/
structure Tile where
  claim : Option Nat
  vals : BitVec 32768
  set : OSet
  deriving DecidableEq, Repr, Inhabited

/-- The threads of one spawned skein: its block number in the spawn grid, its entry, the arguments in entry order, the set of
v0 and v1, the contributors' `co`, the cluster of the bin, and the moment of the launch (R147, R148). -/
structure Spawned where
  num : Nat
  entry : Nat
  args : List (BitVec 64)
  vset : OSet
  coset : OSet
  cl : Nat
  since : Nat
  deriving DecidableEq, Repr, Inhabited

/-- A resident or saved block (R141). -/
structure Block where
  grid : Nat
  num : Nat
  ctx : Nat
  cluster : Nat
  core : Nat
  n : Nat
  /-- Slots of the skeins, in skein order. -/
  slots : List Nat
  ks : List KReg
  bars : List Bar
  spad : Nat
  cells : List Host.Cell
  spSets : List OSet
  bays : List Bay
  tiles : List Tile
  slices : Nat
  /-- The threads of a spawned skein's block (R148). -/
  threads : Option Spawned
  /-- Finwesin is dropping the block in place of saving it (R371). -/
  dropping : Bool := false
  deriving DecidableEq, Repr, Inhabited

/-- Where a grid's completion is reported (R328, R393, R176). -/
inductive Origin where
  | finwesin
  | queue (vf chain : Nat)
  | child (parent block retire : Nat) (rset : OSet)
  | spawnOf (parent : Nat)
  deriving DecidableEq, Repr, Inhabited

/-- An accepted grid (R145, R328 to R336). -/
structure Grid where
  id : Nat
  ctx : Nat
  part : Nat
  tenant : Nat
  level : Nat
  prio : Nat
  idem : Bool
  origin : Origin
  entry : Nat
  bitmap : Nat
  producer : Nat
  g : Nat
  p : Nat
  m : Nat
  q : Nat
  c : Int
  slices : Nat
  skeins : Nat
  spad : Nat
  acc : Nat
  bays : Nat
  spo : OSet
  /-- Initial values of k0 to k15 and the set of every k register; what `co` starts with. -/
  kinit : List (BitVec 32)
  kset : OSet
  /-- Lowest block without a dependency that no dispatcher has taken, blocks held on a dependency, blocks placeable with the moment they became so. -/
  next : Nat
  held : List Nat
  avail : List (Nat × Nat)
  retired : Nat
  accepted : Nat
  /-- Spawned skeins of a spawn grid that wait for a place. -/
  spawned : List Spawned
  /-- Blocks dropped by a pre-emption, placeable again at the resumption (R371). -/
  dropped : List Nat
  deriving DecidableEq, Repr, Inhabited

/-- A code object loaded for a context (R51, R55, R365). -/
structure CodeObj where
  code : Nat
  codeLen : Nat
  rodata : Nat
  data : Nat
  recipes : Nat
  nrec : Nat
  kernels : List Kernel
  digest : BitVec 256
  deriving DecidableEq, Repr, Inhabited

/-- A region a context holds (R442), with what its pages are mapped as. -/
structure Region where
  va : Nat
  len : Nat
  frame : Nat
  oidx : Nat
  type : Nat
  perm : Nat
  size : Nat
  kind : Nat
  deriving DecidableEq, Repr, Inhabited

/-- An open file or socket (R357, R358). -/
structure Desc where
  num : Nat
  /-- File: namespace and path. Socket: port, kind and endpoint. -/
  ns : Nat
  path : List Byte
  flags : Nat
  isFile : Bool
  deriving DecidableEq, Repr, Inhabited

/-- An interrupt target (R360, R393). -/
structure UTarget where
  handle : Nat
  kind : Nat
  va : Nat
  /-- Kind 0: the registration token. Kind 1: the grid identity. Kind 2: the virtual function. -/
  who : Nat
  /-- Kind 0: the application core on which the thread runs. -/
  core : Option Nat
  ctx : Nat
  deriving DecidableEq, Repr, Inhabited

/-- The states of a context on one cluster (R363). -/
inductive CtxPhase where
  | running | stopping | draining | saved | restoring | ended
  deriving DecidableEq, Repr, Inhabited

/-- Pre-emption of a context on one cluster: its state, the moment at which the slice or the request began, and whether the
deadline has passed (R362, R363, R372). -/
structure CtxOn where
  cl : Nat
  phase : CtxPhase
  since : Nat
  /-- The deadline has passed without SAVED. -/
  late : Bool
  deriving DecidableEq, Repr, Inhabited

/-- A context (R194, R197, R333, R350, R442). -/
structure Context where
  id : Nat
  part : Nat
  tenant : Nat
  readMask : OSet
  clusters : List Nat
  root : Nat
  vf : Option Nat
  objs : List CodeObj
  regions : List Region
  /-- What Finwesin maps of itself: the function's memory window (kind 3) and host coherent frames (kind 4), held by no call
  (R390, R422). -/
  shared : List Region := []
  descs : List Desc
  nextDesc : Nat
  /-- The path that has attached a debugger: host port 0 or 1, or 2 for the sideband (R374, R440). -/
  dbg : Option Nat
  /-- The code with which an ended context completed its grids, and the clusters still to confirm an ending (R350). -/
  code : Option (BitVec 16)
  /-- Identities of the grids it completed at its ending (R346). -/
  gids : List Nat
  ending : Option (List Nat)
  finished : Bool
  onCl : List CtxOn
  overrun : Nat
  graceOk : Bool
  /-- Changed leaf entries whose invalidation has not completed: piece address and the old entry and set (R199). -/
  stale : List (Nat × Nat × OSet)
  domain : Option Nat
  /-- The fault of a bay reload or a saved command found in pre-emption (R369, R367). -/
  saved : List Skein
  savedBlocks : List Block
  deriving DecidableEq, Repr, Inhabited

/-- One entry of a cluster's fault buffer (R200). -/
structure FaultEntry where
  id : Nat
  sid : Nat
  uid : Nat
  ctx : Nat
  pc : Addr
  /-- 0 fetch, 1 load, 2 store, 3 atomic, 4 engine or cache control. -/
  kind : Nat
  /-- Faulting virtual addresses with their lanes. -/
  vas : List (Nat × Nat)
  malformed : Bool
  deriving DecidableEq, Repr, Inhabited

/-- A spawn bin (R147, R148). -/
structure Bin where
  entry : Nat
  grid : Nat
  args : List (BitVec 64)
  vset : OSet
  coset : OSet
  started : Nat
  /-- The blocks that gave the threads, as grid and number (R371). -/
  givers : List (Nat × Nat) := []
  deriving DecidableEq, Repr, Inhabited

/-- The states of a basket slot (R296). -/
inductive BasketSt where
  | free | opened | retiring
  deriving DecidableEq, Repr, Inhabited

/-- A basket slot (R293 to R297). -/
structure Basket where
  st : BasketSt
  gen : BitVec 16
  ctx : Nat
  scope : Nat
  owner : Nat × Nat
  n : Nat
  e : Nat
  off : Nat
  set : OSet
  /-- Entries oldest first: the nibbles laid end to end, and the set. -/
  ring : List (Nat × OSet)
  deriving DecidableEq, Repr, Inhabited

/-- A stage of the sorter (R338, R339). -/
structure Stage where
  valid : Bool
  handle : BitVec 32
  high : Nat
  low : Nat
  ctx : Nat
  run : Nat
  pressed : Bool
  deriving DecidableEq, Repr, Inhabited

/-- A context's window of cluster SRAM (R183). -/
structure CWin where
  ctx : Nat
  size : Nat
  cells : List Host.Cell
  sets : List OSet
  deriving DecidableEq, Repr, Inhabited

/-- A cluster. -/
structure Cluster where
  online : Bool
  part : Option Nat
  counter : Nat
  weightErrs : Nat
  saturations : Nat
  sramErrs : Nat
  discarded : Nat
  wins : List CWin
  fbuf : List FaultEntry
  bins : List Bin
  /-- Bin periods set by SPAWN-CONFIG: entry, context, cycles (R147, R357). -/
  periods : List (Nat × Nat × Nat)
  baskets : List Basket
  stages : List Stage
  records : List Record
  /-- The Mangle's round: the skein whose turn it is with the commands it has started (R291), and the last MMA's start with its
  occupancy (R292). -/
  turns : Option (Nat × Nat)
  lastMma : Option (Nat × Nat)
  /-- Overrun cycles that tenants still owe of their next slices (R372). -/
  owed : List (Nat × Nat) := []
  deriving DecidableEq, Repr, Inhabited

/-- A 64-byte line in an L1 or an instruction cache: its number and the bytes it holds (R179, R376). -/
structure CLine where
  line : Nat
  bytes : List Byte
  deriving DecidableEq, Repr, Inhabited

/-- A core (R179, R193, R376, R434). -/
structure Core where
  drops : Nat
  l1Errs : Nat
  spadErrs : Nat
  rfErrs : Nat
  l1 : List CLine
  ic : List CLine
  fills : List CLine
  /-- The two fetch buffers, newest word first (R376). -/
  fetch0 : List (Nat × Word)
  fetch1 : List (Nat × Word)
  /-- The skein for which the Wringer took its last step (R278). -/
  wringer : Option Nat := none
  deriving DecidableEq, Repr, Inhabited

/-- A PCIe line in a die's L2 (R214). -/
structure PLine where
  line : Nat
  bytes : List (Option Byte)
  dirty : BitVec 64
  deriving DecidableEq, Repr, Inhabited

/-- A die. -/
structure Die where
  l2Errs : Nat
  hbmErrs : Nat
  temp : Nat
  pcie : List PLine
  deriving DecidableEq, Repr, Inhabited

/-- The states of a partition and of the module (R340). -/
inductive RunState where
  | idle | running | draining | quiesced
  deriving DecidableEq, Repr, Inhabited

/-- An installed release policy (R406). -/
structure PolicyRec where
  body : List Byte
  budget : Nat
  uses : Nat
  deriving DecidableEq, Repr, Inhabited

/-- A partition (R397, R398, R434). -/
structure Partition where
  used : Bool
  identity : BitVec 64
  st : RunState
  /-- A drain request with the cut option is in force (R340). -/
  cut : Bool
  refusedEgress : Nat
  refusedSubs : Nat
  quarantines : Nat
  lateCompletions : Nat
  otable : List (BitVec 16)
  dests : List Dest
  namespaces : List (BitVec 16)
  modules : List Nat
  selfIndex : Nat
  shares : List (Nat × Nat × Nat)
  sliceUnits : Nat
  keys : List Nat
  policies : List PolicyRec
  /-- Its HBM ranges of 1 GiB, ascending, and the first 64 KiB frame of them that no allocation has taken. -/
  hbm : List Nat := []
  nextFrame : Nat := 0
  hemPorts : List Nat := []
  routes : List Nat := []
  ethPorts : List Nat := []
  /-- Its VLANs, each with its Ethernet port, and the Ethernet ports that did not come up (R430). -/
  vlans : List (Nat × Nat) := []
  ethDown : List Nat := []
  /-- The modules of its list whose route has failed (R397). -/
  lost : List Nat := []
  /-- The drive that holds each namespace, and the indices of the namespaces whose NVMe port did not come up (R2, R402, R430). -/
  drives : List Nat := []
  deadNs : List Nat := []
  deriving DecidableEq, Repr, Inhabited

/-- The states of the module (R430, R435). -/
inductive ModState where
  | booting | up | degraded | failed | thermal
  deriving DecidableEq, Repr, Inhabited

/-- A virtual function (R389 to R393, R399). -/
structure VF where
  id : Nat
  /-- Its host port (R389). -/
  port : Nat
  part : Nat
  tenant : Nat
  ctx : Nat
  /-- Physical base and size of the memory window (R390). -/
  winBase : Nat
  winUnits : Nat
  /-- virtio common configuration (R391): device status, feature selectors and the driver's features, the selected
  queue, and for each queue its size, vector, enable and ring addresses. -/
  status : BitVec 8
  devSel : BitVec 32
  drvSel : BitVec 32
  drvFeatures : BitVec 64
  msixConfig : BitVec 16
  queueSel : BitVec 16
  qsize : List (BitVec 16)
  qvector : List (BitVec 16)
  qenable : List Bool
  qdesc : List (BitVec 64)
  qdriver : List (BitVec 64)
  qdevice : List (BitVec 64)
  cfgGen : BitVec 8
  flags : BitVec 16
  isr : BitVec 8
  stopped : Bool
  /-- Chains of queue 0 not yet read, with their heads; chains read and not completed; posted event buffers. -/
  chains : List (Nat × Chain)
  open0 : List Nat
  posted : Nat
  nextChain : Nat
  /-- Responses written: head, bytes; events written. -/
  used : List (Nat × List Byte)
  events : List (List Byte)
  /-- The vectors sent; the MSI-X table's 48 bytes and its pending bits (R391). -/
  vectors : List Nat
  msix : List Byte
  pba : BitVec 64
  deriving DecidableEq, Repr, Inhabited

/-- A file of a namespace (R358). -/
structure FileRec where
  part : Nat
  ns : Nat
  path : List Byte
  data : List Byte
  deriving DecidableEq, Repr, Inhabited

/-- An NVMe command in flight for a FILE-READ or a FILE-WRITE (R401, R402). -/
structure Nvme where
  id : Nat
  part : Nat
  ctx : Nat
  frames : List Nat
  read : Bool
  /-- A buffered write is not yet submitted (R399). -/
  submitted : Bool
  /-- What the command carries to the buffer or to the file. -/
  data : List Byte
  /-- Physical runs of the buffer: first byte and length. -/
  buf : List (Nat × Nat)
  ns : Nat
  path : List Byte
  off : Nat
  /-- Grid, block, skein number and lane of the call. -/
  caller : Nat × Nat × Nat × Nat
  /-- The service set, and the status of the command: 0 success (R347). -/
  set : OSet
  status : Nat
  /-- Its controller is being reset (R402). -/
  resetting : Bool
  /-- The moment of its submission (R402). -/
  sent : Nat
  deriving DecidableEq, Repr, Inhabited

/-- A collective group (R283, R358). -/
structure Group where
  handle : Nat
  ctx : Nat
  members : List Nat
  self : Nat
  set : OSet
  ready : Bool
  deriving DecidableEq, Repr, Inhabited

/-- A piece granted to a chiplet domain (R388). -/
structure Grant where
  piece : Nat
  domain : Nat
  ctx : Nat
  va : Nat
  set : OSet
  deriving DecidableEq, Repr, Inhabited

/-- A failed unit of 32 bytes, with the level at which it failed: 1 to 3 in G, 4 in S, 5 in C (R347, R349). -/
structure FailedUnit where
  sp : Space
  own : Nat × Nat
  unit : Nat
  level : Nat := if sp = .g then 3 else if sp = .s then 4 else 5
  deriving DecidableEq, Repr, Inhabited

/-- The command mailbox of a host port (R439). -/
structure Mailbox where
  cmd : BitVec 32
  len : BitVec 32
  tag : BitVec 64
  doorbell : Bool
  status : BitVec 16
  rlen : Nat
  rtotal : Nat
  rtag : BitVec 64
  data : List Byte
  deriving DecidableEq, Repr, Inhabited

/-- A fault-log entry (R436). -/
structure LogEntry where
  grid : Nat
  code : BitVec 16
  part : Nat
  tenant : Nat
  cluster : Nat
  counter : Nat
  seq : Nat
  deriving DecidableEq, Repr, Inhabited

/-- What left the module or a partition by the release gate (R403, R407). -/
structure Egressed where
  part : Nat
  dest : Nat
  offset : Nat
  data : List Byte
  deriving DecidableEq, Repr, Inhabited

/-- What leaves by a hem port: a line of a WSEND, what this module brings to a collective, the answer to a send of another
module, or the end of a collective group's command (R281, R283, R396, R399). -/
inductive HemMsg where
  | send (module ctx dst : Nat) (data : List (Option Byte)) (set : OSet)
  | contribution (group kind len root : Nat) (data : List Byte)
  | answer (ctx : Nat) (ok : Bool)
  | aborted (group : Nat) (code : BitVec 16)
  deriving DecidableEq, Repr, Inhabited

/-- What an application core has reserved: its bytes, and how many writes of G had been made (R245). -/
structure Reserve where
  core : Nat
  pa : Nat
  n : Nat
  moment : Nat
  deriving DecidableEq, Repr, Inhabited

/-- An access to memory by an agent outside the compute dies: an application core's to host coherent or to device memory, a host's
read of a function, or what a peer has sent for the SOCK-RECV of a lane (R245, R357, R387, R390). -/
inductive Outside where
  | app (core pa : Nat) (op : AppOp)
  | device (dom core pa : Nat) (op : AppOp)
  | window (vf : Nat) (pos : BarAt) (len : Nat)
  | received (grid block skein lane : Nat) (data : List (BitVec 8))
  deriving DecidableEq, Repr, Inhabited

/-- The whole machine. -/
structure State where
  mem : List Host.Cell
  /-- Each byte of G that has been written with the value it held before, the latest write first (R192, R245). -/
  past : List (Nat × Byte)
  localGiB : Nat
  modSt : ModState
  run : RunState
  runCut : Bool
  power : BitVec 16
  cap : BitVec 16
  inlet : BitVec 16
  flow : BitVec 16
  gen : BitVec 64
  diesUp : BitVec 24
  stacksUp : BitVec 24
  seamsUp : BitVec 38
  log : List LogEntry
  loghead : Nat
  /-- The inventory window's snapshot, 65,536 bytes once taken (R433). -/
  window : List Byte
  mailboxes : List Mailbox
  /-- The DRAIN commands that have been served and complete once their targets are QUIESCED, with those targets; the responses sent by the
  sideband (R438, R439). -/
  serving : List (Ticket × Nat)
  sideband : List (List Byte)
  policyParts : Option (Nat × List Byte)
  report : Option (List Byte × List Byte)
  /-- Stops handed to debuggers and not yet delivered, oldest first (R440). -/
  dbgQueue : List Record
  debugMode : Bool
  frozen : Bool
  shifted : Bool
  chain : BitVec 16
  scanned : List (BitVec 64)
  tapInstr : BitVec 8
  gated : Bool
  stopped : Bool
  /-- Cycles of the cluster clock, and those that were issue cycles (R138, R342, R432). -/
  ticks : Nat
  issueTicks : Nat
  /-- Cycles for which FREEZE has stopped the clocks, which links' timeouts still count (R375). -/
  frozenTicks : Nat
  hostTime : Nat
  clusters : List Cluster
  cores : List Core
  dieSt : List Die
  parts : List Partition
  ctxs : List Context
  grids : List Grid
  blocks : List Block
  skeins : List Skein
  vfs : List VF
  files : List FileRec
  nvme : List Nvme
  quarantined : List Nat
  groups : List Group
  uints : List UTarget
  grants : List Grant
  failedUnits : List FailedUnit
  egressed : List Egressed
  /-- The error log: the stops that failed no grid (R348, R374). -/
  errorLog : List Record
  coreRead : List (Nat × Option (List Byte))
  /-- Reservations of application cores (R245); interrupts raised to cores, with the handle (R361). -/
  reserves : List Reserve
  appInts : List (Nat × Nat)
  /-- What has left by hem ports, each with its port and its switch route, and sends of other modules not yet performed here, oldest first (R242, R281, R396). -/
  hem : List (Nat × Nat × HemMsg)
  inbound : List (Nat × Nat × List (Option Byte) × OSet)
  /-- PCIe writes held at their home L2, oldest first, and the last stores of contexts that have ended (R242, R248). -/
  posted : List (Nat × List Byte)
  /-- Accesses that an engine's ownership holds back, with those of the same agents behind them, oldest first (R242, R248). -/
  heldOutside : List Outside
  /-- What hosts have read: the function, or the port of a physical one, the part of it, and the bytes, none of a failed unit (R348, R390,
  R391). -/
  windowReads : List (Nat × Nat × Option (List Byte))
  /-- The I/O pages of functions, in the order of the frames of the PCIe range that stand for them (R393, log 14). -/
  ioPages : List (Nat × Nat)
  nextId : Nat
  /-- Finwesin's own ranges of 1 GiB of HBM, and the frames there that hold a context's tables, each with the context (R131, R194,
  R398). -/
  own : List Nat
  tables : List (Nat × Nat)
  bootImagesOk : Bool
  /-- The digests of the images of the last boot (R410). -/
  images : List (BitVec 256)
  /-- The image that the last boot found not to verify, as the controller reports it (R409). -/
  failedImage : Option Nat
  /-- The model's own fields. -/
  agenda : List Instr
  turn : Nat
  issuing : Option (Nat × Nat)
  free : Nat
  deriving DecidableEq, Repr, Inhabited

/-- A free basket slot after reset (R296). -/
def Basket.reset : Basket := ⟨.free, 0, 0, 0, (0, 0), 16, 16, 0, 0, []⟩

/-- An invalid stage (R338). -/
def Stage.reset : Stage := ⟨false, 0, 0, 0, 0, 0, false⟩

/-- A cluster after module reset: offline, in no partition, its counter at 0 (R342, R430, R434). -/
def Cluster.reset : Cluster :=
  ⟨false, none, 0, 0, 0, 0, 0, [], [], [], [], List.replicate 64 Basket.reset, List.replicate 64 Stage.reset, [], none, none, []⟩

/-- A core after module reset (R434). -/
def Core.reset : Core := ⟨0, 0, 0, 0, [], [], [], [], [], none⟩

/-- A die after module reset (R434). -/
def Die.reset : Die := ⟨0, 0, 0, []⟩

/-- A mailbox after module reset (R439, log 12). -/
def Mailbox.reset : Mailbox := ⟨0, 0, 0, false, 0, 0, 0, 0, List.replicate 3968 0#8⟩

/-- The inventory window after module reset: a header in state BOOTING with the cap, unused partitions, clusters in none (R434,
R435). -/
def resetWindow : List Byte :=
  let zeros (n : Nat) : List Byte := List.replicate n 0#8
  let partition := zeros 8 ++ [0xFF#8] ++ zeros 23
  let cluster := [0#8, 0xFF#8] ++ zeros 30
  bytesLE 4 0x4A581536 ++ bytesLE 2 1 ++ zeros 12 ++ bytesLE 2 4200 ++ zeros 44 ++
    (List.replicate 16 partition).flatten ++ zeros 448 ++ (List.replicate 192 cluster).flatten ++ zeros 58368

/-- An unused partition record (R434). -/
def Partition.reset : Partition :=
  { used := false, identity := 0, st := .idle, cut := false, refusedEgress := 0, refusedSubs := 0, quarantines := 0,
    lateCompletions := 0, otable := List.replicate 4096 0, dests := [], namespaces := [], modules := [], selfIndex := 0, shares := [],
    sliceUnits := 64, keys := [], policies := [] }

/-- The machine right after module reset: BOOTING, before the boot sequence of R430 has brought anything up. -/
def State.reset : State where
  mem := []
  past := []
  localGiB := 0
  modSt := .booting
  run := .idle
  runCut := false
  power := 0
  cap := 4200
  inlet := 0
  flow := 0
  gen := 0
  diesUp := 0
  stacksUp := 0
  seamsUp := 0
  log := []
  loghead := 0
  window := resetWindow
  mailboxes := [Mailbox.reset, Mailbox.reset]
  serving := []
  sideband := []
  policyParts := none
  report := none
  dbgQueue := []
  debugMode := false
  frozen := false
  shifted := false
  chain := 0
  scanned := []
  tapInstr := 1
  gated := false
  stopped := false
  ticks := 0
  issueTicks := 0
  frozenTicks := 0
  hostTime := 0
  clusters := List.replicate 192 Cluster.reset
  cores := List.replicate 1536 Core.reset
  dieSt := List.replicate 24 Die.reset
  parts := List.replicate 16 Partition.reset
  ctxs := []
  grids := []
  blocks := []
  skeins := []
  vfs := []
  files := []
  nvme := []
  quarantined := []
  groups := []
  uints := []
  grants := []
  failedUnits := []
  egressed := []
  errorLog := []
  coreRead := []
  reserves := []
  appInts := []
  hem := []
  inbound := []
  posted := []
  heldOutside := []
  windowReads := []
  ioPages := []
  nextId := 1
  own := []
  tables := []
  bootImagesOk := false
  images := []
  failedImage := none
  agenda := []
  turn := 0
  issuing := none
  free := 0

end Sys2Proof.Machine
end

