-- ==== Sys2Proof/Machine/Ops.lean ====
section
/-! DEFINITION. The named operations over memory, registers and skeins, and taking a stop and returning from one
(R25, R31, R32, R140, R183 to R187, R230, R242, R247, R248, R343 to R345). -/

namespace Sys2Proof.Machine

/-! ## Memory -/

/-- The byte at an address; an unlisted byte reads 0 (log 1). -/
def cellGet : List Host.Cell → Nat → Byte
  | [], _ => 0#8
  | (x, y) :: t, a => if x = a then y else cellGet t a

/-- The cells after one byte is written, in canonical form. -/
def cellPut (a : Nat) (b : Byte) : List Host.Cell → List Host.Cell
  | [] => if b = 0#8 then [] else [(a, b)]
  | (x, y) :: t =>
    if a < x then (if b = 0#8 then (x, y) :: t else (a, b) :: (x, y) :: t)
    else if a = x then (if b = 0#8 then t else (a, b) :: t)
    else (x, y) :: cellPut a b t

/-- Addresses rise strictly and no listed byte is 0. -/
def Memory.wf : List Host.Cell → Bool
  | [] => true
  | [(_, b)] => b != 0#8
  | (x, b) :: (y, c) :: t => b != 0#8 && decide (x < y) && Memory.wf ((y, c) :: t)

/-- `n` bytes from an address upward. -/
def cellsRead (m : List Host.Cell) (a n : Nat) : List Byte := (List.range n).map fun i => cellGet m (a + i)

/-- Bytes written from an address upward. -/
def cellsWrite (m : List Host.Cell) (a : Nat) : List Byte → List Host.Cell
  | [] => m
  | b :: bs => cellsWrite (cellPut a b m) (a + 1) bs

/-- The little-endian number of `n` bytes (R29). -/
def cellsNat (m : List Host.Cell) (a n : Nat) : Nat := ofBytesLE (cellsRead m a n)

/-- Cells with the addresses of a range removed, so that they read 0 again. -/
def cellsClear (m : List Host.Cell) (a n : Nat) : List Host.Cell := m.filter fun c => c.1 < a || a + n ≤ c.1

/-- The physical address exists (R186). -/
def paExists (l pa : Nat) : Bool :=
  pa < 24 * (64 - l) * 2 ^ 30 ||
  (decide (0x100000000000 ≤ pa) && decide ((pa - 0x100000000000) / 2 ^ 36 < 24) &&
    decide ((pa - 0x100000000000) % 2 ^ 36 < l * 2 ^ 30)) ||
  (decide (0x200000000000 ≤ pa) && decide (pa < 0x400000000000))

/-- The memory type of a physical range: 0 HBM, 1 host coherent, 2 PCIe (R186). -/
def paType (pa : Nat) : Nat :=
  if pa < 0x200000000000 then 0 else if pa < 0x300000000000 then 1 else 2

/-- The stack that holds an HBM byte (R187). -/
def stackOf (pa : Nat) : Nat :=
  if pa < 0x100000000000 then (pa / 4096) % 24 else (pa - 0x100000000000) / 2 ^ 36

/-- The 64 KiB frame lies on stacks of working dies only, by the dies and stacks that work (R347, R386). -/
def frameUp (up : BitVec 24) (f : Nat) : Bool :=
  paType (f * 65536) != 0 || (List.range 16).all fun i => up.getLsbD (stackOf (f * 65536 + 4096 * i))

/-- The frames of a 1 GiB range of physical address (R398). -/
def gibFrames : Nat := 2 ^ 14

/-- A 64 KiB frame in some 1 GiB ranges that exists, lies on working stacks and is not in use, if there is one; of three neighbours
one avoids any one stack (R186, R187, R386, R398). -/
def freeFrame (l : Nat) (up : BitVec 24) (gibs used : List Nat) : Option Nat :=
  ((gibs.map (· * gibFrames) ++ used.map (· + 1)).flatMap fun f => [f, f + 1, f + 2]).find? fun f =>
    gibs.contains (f / gibFrames) && !used.contains f && paExists l (f * 65536) && frameUp up f

/-- Some such frames, all different. -/
def freeFrameList (l : Nat) (up : BitVec 24) (gibs used : List Nat) : Nat → Option (List Nat)
  | 0 => some []
  | n + 1 => match freeFrame l up gibs used with
    | none => none
    | some f => (freeFrameList l up gibs (f :: used) n).map (f :: ·)

/-- The stacks that hold memory: those that work, on dies that a route reaches (R347, R386). -/
def State.hbmUp (s : State) : BitVec 24 := s.diesUp &&& s.stacksUp

/-- Finwesin's own frames in use: those of tables, and the backing regions of skeins, saved ones too (R131, R194). -/
def State.ownUsed (s : State) : List Nat :=
  s.tables.map (·.1) ++ (s.skeins ++ s.ctxs.flatMap (·.saved)).filterMap (·.backing)

/-- The bytes of a physical range exist on working stacks (R186, R386). -/
def State.hbmAt (s : State) (pa n : Nat) : Bool :=
  (List.range ((pa + n - 1) / 4096 + 1 - pa / 4096)).all fun i =>
    let a := (pa / 4096 + i) * 4096
    paExists s.localGiB a && (paType a != 0 || s.hbmUp.getLsbD (stackOf a))

/-! ## Keyed parts of the state -/

/-- Replace the element with a key. -/
def putBy (key : α → Nat) (x : α) (l : List α) : List α := l.map fun y => if key y == key x then x else y

/-- An element placed before the first that does not come before it. -/
def insertBy (le : α → α → Bool) (x : α) : List α → List α
  | [] => [x]
  | y :: t => if le x y then x :: y :: t else y :: insertBy le x t

/-- A list in the order of a comparison. -/
def sortBy (le : α → α → Bool) : List α → List α
  | [] => []
  | x :: t => insertBy le x (sortBy le t)

/-- Change the element at an index. -/
def modAt (l : List α) (i : Nat) (f : α → α) : List α := l.modify i f

def State.skein? (s : State) (sid : Nat) : Option Skein := s.skeins.find? (·.id == sid)
def State.setSkein (s : State) (k : Skein) : State := { s with skeins := putBy (·.id) k s.skeins }
def Skein.split? (k : Skein) (uid : Nat) : Option Split := k.splits.find? (·.uid == uid)
def Skein.setSplit (k : Skein) (p : Split) : Skein := { k with splits := putBy (·.uid) p k.splits }
def Skein.coreId (k : Skein) : Nat := k.id / 128
def Skein.slotId (k : Skein) : Nat := k.id % 128
def Skein.cluster (k : Skein) : Nat := k.id / 128 / 8
def Skein.die (k : Skein) : Nat := k.id / 128 / 64
/-- The issue port, numbered over the module (R138). -/
def Skein.port (k : Skein) : Nat := k.coreId * 2 + k.slotId % 2
/-- The lanes that live (R126). -/
def Skein.living (k : Skein) : Mask := k.splits.foldl (fun m p => m ||| p.members) 0#32

def State.ctx? (s : State) (id : Nat) : Option Context := s.ctxs.find? (·.id == id)
def State.setCtx (s : State) (c : Context) : State := { s with ctxs := putBy (·.id) c s.ctxs }
def State.grid? (s : State) (id : Nat) : Option Grid := s.grids.find? (·.id == id)
def State.setGrid (s : State) (g : Grid) : State := { s with grids := putBy (·.id) g s.grids }
def State.block? (s : State) (g b : Nat) : Option Block := s.blocks.find? fun x => x.grid == g && x.num == b
def State.setBlock (s : State) (b : Block) : State :=
  { s with blocks := s.blocks.map fun x => if x.grid == b.grid && x.num == b.num then b else x }
def State.vf? (s : State) (id : Nat) : Option VF := s.vfs.find? (·.id == id)
def State.setVf (s : State) (v : VF) : State := { s with vfs := putBy (·.id) v s.vfs }
def State.modCluster (s : State) (c : Nat) (f : Cluster → Cluster) : State := { s with clusters := modAt s.clusters c f }
def State.cluster (s : State) (c : Nat) : Cluster := s.clusters.getD c Cluster.reset
def State.modCore (s : State) (c : Nat) (f : Core → Core) : State := { s with cores := modAt s.cores c f }
def State.core (s : State) (c : Nat) : Core := s.cores.getD c Core.reset
def State.modDie (s : State) (c : Nat) (f : Die → Die) : State := { s with dieSt := modAt s.dieSt c f }
def State.die (s : State) (c : Nat) : Die := s.dieSt.getD c Die.reset
def State.modPart (s : State) (c : Nat) (f : Partition → Partition) : State := { s with parts := modAt s.parts c f }
def State.part (s : State) (c : Nat) : Partition := s.parts.getD c Partition.reset

/-- The running skein that issues and its READY split (R137, R138). -/
def State.current (s : State) : Option (Skein × Split) :=
  match s.issuing with
  | none => none
  | some (sid, uid) =>
    match s.skein? sid with
    | none => none
    | some k =>
      match k.split? uid with
      | none => none
      | some p => if k.stop.isNone && p.st == .ready then some (k, p) else none

/-- The state of a context on a cluster changed. -/
def Context.modOn (c : Context) (cl : Nat) (f : CtxOn → CtxOn) : Context :=
  { c with onCl := c.onCl.map fun x => if x.cl == cl then f x else x }

/-- The state of a context on a cluster (R363). -/
def Context.phase (c : Context) (cl : Nat) : CtxPhase := (c.onCl.find? (·.cl == cl)).elim .ended (·.phase)

/-- A change to a context of the state. -/
def State.modCtx (s : State) (id : Nat) (f : Context → Context) : State :=
  match s.ctx? id with
  | none => s
  | some c => s.setCtx (f c)

/-- A counter of the inventory window saturates (R434). -/
def satInc (n : Nat) : Nat := min (n + 1) 0xFFFFFFFF

/-- A free bit, and the state with the counter advanced (log 7). -/
def State.takeBit (s : State) : Bool × State := (Config.freeBit s.free, { s with free := s.free + 1 })

/-- A free word, and the state with the counter advanced (log 7). -/
def State.takeWord (s : State) : Nat × State := ((Config.freeWord s.free).toNat, { s with free := s.free + 1 })

/-- A message leaves by a hem port and a switch route of its partition, each a free one of those it owns; without any it does not
leave (R397, log 7). -/
def State.leaveHem (s : State) (part : Nat) (m : HemMsg) : State :=
  let p := s.part part
  let r := s.takeWord
  match p.hemPorts[r.1 % p.hemPorts.length]?, p.routes[r.1 / 64 % p.routes.length]? with
  | some a, some b => { r.2 with hem := r.2.hem ++ [(a, b, m)] }
  | _, _ => s

/-- The tenant bit of a slot (R24). -/
def tenantBit (t : Nat) : OSet := 1#16 <<< t

/-! ## Locations (R230) -/

def locG (pa : Nat) : Loc := ⟨.g, (0, 0), pa⟩

/-- The byte a location holds at its coherence point. -/
def State.peek (s : State) (l : Loc) : Byte :=
  match l.sp with
  | .g => cellGet s.mem l.addr
  | .s => match s.block? l.own.1 l.own.2 with
    | some b => cellGet b.cells l.addr
    | none => 0#8
  | .c => match (s.cluster l.own.1).wins.find? (·.ctx == l.own.2) with
    | some w => cellGet w.cells l.addr
    | none => 0#8

/-- One byte written at its coherence point. -/
def State.poke (s : State) (l : Loc) (b : Byte) : State :=
  match l.sp with
  | .g => { s with mem := cellPut l.addr b s.mem, past := (l.addr, cellGet s.mem l.addr) :: s.past }
  | .s => { s with blocks := s.blocks.map fun x =>
      if x.grid == l.own.1 && x.num == l.own.2 then { x with cells := cellPut l.addr b x.cells } else x }
  | .c => s.modCluster l.own.1 fun c => { c with wins := c.wins.map fun w =>
      if w.ctx == l.own.2 then { w with cells := cellPut l.addr b w.cells } else w }

/-- Bytes written one after another from a location upward. -/
def State.pokes (s : State) (l : Loc) : List Byte → State
  | [] => s
  | b :: bs => (s.poke l b).pokes { l with addr := l.addr + 1 } bs

/-- The locations of `n` bytes from one upward. -/
def Loc.span (l : Loc) (n : Nat) : List Loc := (List.range n).map fun i => { l with addr := l.addr + i }

/-- A byte lies in a failed unit (R349). -/
def State.failedAt (s : State) (l : Loc) : Bool :=
  s.failedUnits.any fun f => f.sp == l.sp && f.own == l.own && f.unit == l.addr / 32

/-- The level at which the unit of a byte failed (R347). -/
def State.failLevel (s : State) (l : Loc) : Nat :=
  (s.failedUnits.find? fun f => f.sp == l.sp && f.own == l.own && f.unit == l.addr / 32).elim 0 (·.level)

/-- The units of some bytes fail at a level (R348, R349). -/
def State.fail (s : State) (level : Nat) : List Loc → State
  | [] => s
  | l :: t => if s.failedAt l then s.fail level t
    else ({ s with failedUnits := ⟨l.sp, l.own, l.addr / 32, level⟩ :: s.failedUnits } : State).fail level t

/-- A level of the memory holds bytes of a space: the L1, the L2 and HBM those of G (R179, R347). -/
def levelFits (sp : Space) (level : Nat) : Bool :=
  match sp with
  | .g => decide (1 ≤ level) && decide (level ≤ 3)
  | .s => level == 4
  | .c => level == 5

/-- A line of memory holds a failed unit (R349). -/
def State.failedLine (s : State) (line : Nat) : Bool := s.failedAt (locG (line * 64)) || s.failedAt (locG (line * 64 + 32))

/-- The set of the 1 KiB block that holds an S or C location (R184). -/
def State.blockSet (s : State) (l : Loc) : OSet :=
  match l.sp with
  | .g => 0
  | .s => match s.block? l.own.1 l.own.2 with
    | some b => b.spSets.getD (l.addr / 1024) 0
    | none => 0
  | .c => match (s.cluster l.own.1).wins.find? (·.ctx == l.own.2) with
    | some w => w.sets.getD (l.addr / 1024) 0
    | none => 0

/-- The join of the sets of the 1 KiB blocks that a range touches (R184). -/
def State.rangeSet (s : State) (l : Loc) (n : Nat) : OSet :=
  (List.range ((l.addr + n + 1023) / 1024 - l.addr / 1024)).foldl
    (fun a i => a ||| s.blockSet { l with addr := (l.addr / 1024 + i) * 1024 }) 0

/-! ## Engine ownership and pins (R242, R243, R305) -/

/-- The location is of memory type PCIe (R186). -/
def Loc.pcie (l : Loc) : Bool := l.sp == .g && paType l.addr == 2

/-- The skein has no engine command outstanding, and none that a pre-emption has removed and that is to be queued again (R274,
R367). -/
def Skein.idleEngines (k : Skein) : Bool := k.cmds.isEmpty && k.mq.isEmpty && k.removed.isEmpty

/-- The locations that a queued or started MDRAIN owns: 32 row extents (R305). -/
def MCmd.owns (k : Skein) (c : MCmd) (l : Loc) : Bool :=
  match c.kind with
  | .mdrain _ base stride fmt _ _ _ =>
    let size := if fmt == 0 then 4 else if fmt ≤ 2 then 2 else 1
    l.sp == .s && l.own == (k.grid, k.block) && decide (base ≤ l.addr) &&
      decide ((l.addr - base) / stride < 32) && decide ((l.addr - base) % stride < 32 * size)
  | _ => false

/-- The source bytes that a Mangle command still has to read (R243). -/
def MCmd.laters (c : MCmd) : List SrcByte :=
  match c.kind with
  | .mwload _ w sc _ _ _ => w ++ sc
  | .mma _ _ rows _ => rows
  | _ => []

/-- The source bytes that a Wringer command still has to read (R243). -/
def Cmd.laters (c : Cmd) : List SrcByte :=
  match c.kind with
  | .local => c.lines.flatMap fun ln => ln.bytes.map (·.2)
  | .wsend _ _ src _ => src.filterMap id
  | .wcoll _ _ _ _ src => src.filterMap id ++ c.lines.flatMap fun ln => ln.bytes.map (·.2)

/-- Some outstanding command that was issued before the moment owns the location. -/
def State.ownedBefore (s : State) (moment : Nat) (l : Loc) : Bool :=
  !l.pcie && s.skeins.any fun k =>
    (k.cmds.any fun c => decide (c.order < moment) && c.lines.any fun ln => ln.owns.contains l) ||
    (k.mq.any fun c => decide (c.order < moment) && c.owns k l)

/-- The location is an owned destination of some outstanding command (R242). -/
def State.owned (s : State) (l : Loc) : Bool := s.ownedBefore s.nextId l

/-- A source byte that is still to be read stands in the line of a location (R242). -/
def SrcByte.inLine (b : SrcByte) (l : Loc) : Bool :=
  match b with
  | .val _ => false
  | .later m => m.sp == l.sp && m.own == l.own && m.addr / 64 == l.addr / 64

/-- The location is pinned by a command issued before the moment that has yet to read its line (R242, R243, R305). -/
def State.pinnedBefore (s : State) (moment : Nat) (l : Loc) : Bool :=
  !l.pcie && s.skeins.any fun k =>
    (k.cmds.any fun c => decide (c.order < moment) && c.pins.contains l && c.laters.any (·.inLine l)) ||
    (k.mq.any fun c => decide (c.order < moment) && c.srcs.contains l && c.laters.any (·.inLine l))

/-- The location is pinned by some outstanding command that has yet to read its line (R242, R243). -/
def State.pinned (s : State) (l : Loc) : Bool := s.pinnedBefore s.nextId l

/-- Locations a load must wait for (R242). -/
def State.heldForLoad (s : State) (ls : List Loc) : List Loc := ls.filter s.owned

/-- Locations a store or an atomic must wait for (R242). -/
def State.heldForStore (s : State) (ls : List Loc) : List Loc := ls.filter fun l => s.owned l || s.pinned l

/-- The value of a source byte once no earlier command owns it. -/
def State.resolveSrc (s : State) : SrcByte → Byte
  | .val b => b
  | .later l => s.peek l

/-- A source byte that an earlier command was to write, and that stands in a failed unit all the same: that write was prevented or
covered a part of the unit only (R275, R349). -/
def State.laterFails (s : State) : SrcByte → Bool
  | .val _ => false
  | .later l => s.failedAt l

/-- The first of some source bytes that fails so. -/
def State.failedLater (s : State) (bs : List SrcByte) : Option Loc :=
  bs.findSome? fun b => match b with
    | .val _ => none
    | .later l => if s.failedAt l then some l else none

/-- Every byte can be read: no command issued before `moment` still owns it (R243). -/
def State.srcReady (s : State) (moment : Nat) (bs : List SrcByte) : Bool :=
  bs.all fun b => match b with
    | .val _ => true
    | .later l => !s.ownedBefore moment l

/-- The compute dies and the chiplet's cores run: the module has come up, and has not failed or stopped (R409, R430, R432). -/
def State.alive (s : State) : Bool := s.modSt == .up || s.modSt == .degraded

/-- A request waits for its completion (R394). -/
def PReq.waits (r : PReq) : Bool := r.status.isNone && !r.expired

/-- The clock of the links' timeouts, which counts frozen cycles as well (R375). -/
def State.linkTime (s : State) : Nat := s.ticks + s.frozenTicks

/-! ## PCIe lines in the L2 (R214) -/

/-- The line copy of a die, if it holds one. -/
def State.pline? (s : State) (die line : Nat) : Option PLine := (s.die die).pcie.find? (·.line == line)

/-- A byte of the die's copy (R214). -/
def State.pbyte? (s : State) (die pa : Nat) : Option Byte :=
  match s.pline? die (pa / 64) with
  | some ln => (ln.bytes.getD (pa % 64) none)
  | none => none

/-- A byte as an engine on a die reads it: of PCIe memory the die's copy if it has one (R214). -/
def State.engineByte (s : State) (die : Nat) (l : Loc) : Byte :=
  if l.pcie then (s.pbyte? die l.addr).getD (s.peek l) else s.peek l

/-- A source byte as a command issued at the given moment reads it (R243). -/
def State.srcByte (s : State) (die moment : Nat) (l : Loc) : SrcByte :=
  if s.ownedBefore moment l then .later l else .val (s.engineByte die l)

/-- The dirty bytes of a die's copy reach the host, and the copy is clean (R214). -/
def State.pclean (s : State) (die line : Nat) : State :=
  match s.pline? die line with
  | none => s
  | some ln =>
    let s1 := (List.range 64).foldl (fun t i =>
      if ln.dirty.getLsbD i then match ln.bytes.getD i none with
        | some b => t.poke (locG (line * 64 + i)) b
        | none => t
      else t) s
    s1.modDie die fun d => { d with pcie := d.pcie.map fun x => if x.line == line then { x with dirty := 0 } else x }

/-- The die's copy is written back if dirty and dropped (R211, R213). -/
def State.pdrop (s : State) (die line : Nat) : State :=
  (s.pclean die line).modDie die fun d => { d with pcie := d.pcie.filter (·.line != line) }

/-- The line that makes room for another in a set-associative cache: none while the set has a free way, else one that the
cache chooses (R2, log 40). -/
def victim (line : α → Nat) (sets ways n pick : Nat) (ls : List α) : Option α :=
  let same := ls.filter fun x => line x % sets == n % sets
  if same.length < ways then none else same[pick % same.length]?

/-- Room for a line in the die's L2 of 32,768 sets of 16 ways: what it evicts is written back if dirty (R2, R214). -/
def State.roomPcie (s : State) (die line : Nat) : State :=
  match victim PLine.line 32768 16 line (Config.freeWay s.free line) (s.die die).pcie with
  | none => s
  | some v => s.pdrop die v.line

/-- A byte stored into the die's copy, which becomes dirty there; what the byte held before is kept (R192, R214). When the L2 evicts a
dirty line by itself is left open: it does so for want of room here, or at the end of any cycle (`State.evict`, log 40). -/
def State.pstore (s : State) (die pa : Nat) (b : Byte) : State :=
  let s : State := { s with past := (pa, (s.pbyte? die pa).getD (cellGet s.mem pa)) :: s.past }
  if (s.pline? die (pa / 64)).isSome then
    s.modDie die fun d => { d with pcie := d.pcie.map fun ln => if ln.line == pa / 64 then
      { ln with bytes := ln.bytes.set (pa % 64) (some b), dirty := ln.dirty ||| (1#64 <<< (pa % 64)) } else ln }
  else
    (s.roomPcie die (pa / 64)).modDie die fun d =>
      { d with pcie := ⟨pa / 64, (List.replicate 64 none).set (pa % 64) (some b), 1#64 <<< (pa % 64)⟩ :: d.pcie }

/-- The 64 bytes of a line at the level that orders them for a die: memory, or the die's L2 for PCIe (R179, R214). -/
def State.homeLine (s : State) (die line : Nat) : List Byte :=
  if paType (line * 64) = 2 then
    (List.range 64).map fun j => (s.pbyte? die (line * 64 + j)).getD (cellGet s.mem (line * 64 + j))
  else cellsRead s.mem (line * 64) 64

/-! ## L1 lines (R179) -/

/-- Write-through: the core's own copy follows a performed store (R179). -/
def l1Update (ls : List CLine) (pa : Nat) (b : Byte) : List CLine :=
  ls.map fun x => if x.line == pa / 64 then { x with bytes := x.bytes.set (pa % 64) b } else x

/-- The copy of a line is dropped. -/
def l1Drop (ls : List CLine) (line : Nat) : List CLine := ls.filter (·.line != line)

/-- A line enters the instruction cache of 256 sets of 4 ways (R2, R376). -/
def Core.addIc (c : Core) (x : CLine) (pick : Nat) : Core :=
  let rest := l1Drop c.ic x.line
  let out := (victim CLine.line 256 4 x.line pick rest).elim rest fun v => l1Drop rest v.line
  { c with ic := x :: out }

/-- The scratchpad part of a core in bytes for the given allocations: the smallest multiple of 16 KiB that covers them
(R181). -/
def spadPart (n : Nat) : Nat := (n + 16383) / 16384 * 16384

/-- The lines of the L1 beside the scratchpad part for the given allocations, of 384 KiB together (R2, R181). -/
def l1Room (spad : Nat) : Nat := 6144 - spadPart spad / 64

/-- Lines leave, each by a choice of the cache, until no more than the room stay (R2, R181, log 40). -/
def l1Shrink (pick : Nat → Nat) (room : Nat) : Nat → List CLine → List CLine
  | 0, ls => ls
  | n + 1, ls => if ls.length ≤ room then ls else l1Shrink pick room n (ls.eraseIdx (pick n % ls.length))

/-- A line enters the L1, which holds what the scratchpad part leaves (R2, R181). -/
def Core.addL1 (c : Core) (x : CLine) (spad : Nat) (pick : Nat → Nat) : Core :=
  let rest := l1Drop c.l1 x.line
  { c with l1 := x :: l1Shrink pick (l1Room spad - 1) rest.length rest }

/-- The scratchpad part follows the allocations, and the lines in the space that it takes leave the L1 (R181). -/
def Core.resize (c : Core) (spad : Nat) (pick : Nat → Nat) : Core :=
  { c with l1 := l1Shrink pick (l1Room spad) c.l1.length c.l1 }

/-- The scratchpad bytes that the blocks of a core hold (R182). -/
def State.spadUsed (s : State) (core : Nat) : Nat := (s.blocks.filter (·.core == core)).foldl (fun n b => n + b.spad) 0

/-- An acquire drops the core's older copies; PCIe copies stay until INVAL (R179, R214, R238). -/
def Core.acquire (c : Core) : Core := { c with l1 := c.l1.filter fun x => paType (x.line * 64) == 2 }

/-! ## Stores (R248) -/

/-- A store by a core reaches its location and the core's own copy: the home for HBM and host coherent memory, the die's
L2 for PCIe memory (R179, R214). -/
def State.storeByte (s : State) (core : Nat) (pa : Nat) (b : Byte) : State :=
  let s1 := if paType pa == 2 then s.pstore (core / 64) pa b else s.poke (locG pa) b
  s1.modCore core fun c => { c with l1 := l1Update c.l1 pa b }

/-- The bytes of a store in address order. -/
def State.storeBytes (s : State) (core pa : Nat) : List Byte → State
  | [] => s
  | b :: bs => (s.storeByte core pa b).storeBytes core (pa + 1) bs

/-- The locations of a waiting store. -/
def PStore.locs (e : PStore) : List Loc := e.loc.span e.bytes.length

/-- A store covers a location. -/
def PStore.covers (e : PStore) (l : Loc) : Bool :=
  e.loc.sp == l.sp && e.loc.own == l.own && decide (e.loc.addr ≤ l.addr) && decide (l.addr < e.loc.addr + e.bytes.length)

/-- Two waiting stores share a byte. -/
def PStore.meets (e f : PStore) : Bool :=
  e.loc.sp == f.loc.sp && e.loc.own == f.loc.own &&
    decide (e.loc.addr < f.loc.addr + f.bytes.length) && decide (f.loc.addr < e.loc.addr + e.bytes.length)

/-- An engine owns or pins a byte of the store, which then waits (R242). -/
def State.blocked (s : State) (e : PStore) : Bool := e.locs.any fun l => s.owned l || s.pinned l

/-- A store reaches its location: its visibility moment (R238, R248). -/
def State.perform (s : State) (core : Nat) (e : PStore) : State :=
  match e.loc.sp with
  | .g => s.storeBytes core e.loc.addr e.bytes
  | .s | .c => s.pokes e.loc e.bytes

/-- The store at an index of a skein is performed. It waits behind an earlier one of its skein to the same bytes (R231). -/
def State.performStore (s : State) (sid idx : Nat) : State :=
  match s.skein? sid with
  | none => s
  | some k =>
    match k.stores[idx]? with
    | none => s
    | some e =>
      if s.blocked e || (k.stores.take idx).any (·.meets e) then s
      else (s.setSkein { k with stores := k.stores.eraseIdx idx }).perform k.coreId e

/-- The stores that satisfy a test, each with the earlier ones that share a byte with it (R231). -/
def withEarlier (f : PStore → Bool) : List PStore → List (PStore × Bool)
  | [] => []
  | e :: t =>
    let r := withEarlier f t
    (e, f e || r.any fun x => x.2 && x.1.meets e) :: r

/-- Waiting stores are performed oldest first, but for those that an engine holds and those behind them: the state and the
stores still waiting. -/
def State.performAll (s : State) (core : Nat) : List (PStore × Bool) → List PStore → State × List PStore
  | [], kept => (s, kept)
  | (e, b) :: t, kept =>
    if b && !s.blocked e && !(kept.any (·.meets e)) then (s.perform core e).performAll core t kept
    else s.performAll core t (kept ++ [e])

/-- The stores of a skein that satisfy a test are performed (R212, R247). -/
def State.drain (s : State) (sid : Nat) (f : PStore → Bool) : State :=
  match s.skein? sid with
  | none => s
  | some k =>
    let r := s.performAll k.coreId (withEarlier f k.stores) []
    { r.1 with skeins := r.1.skeins.map fun x => if x.id == sid then { x with stores := r.2 } else x }

/-! ## Pending long-latency writes (R22, R31, R32) -/

/-- The lane files with the bits of a mask taken from an image, lane by lane. -/
def mergeLanes (files imgs masks : List LaneFile) : List LaneFile :=
  (List.range 32).map fun l =>
    let m := masks.getD l 0
    (files.getD l 0 &&& ~~~m) ||| (imgs.getD l 0 &&& m)

/-- Pending bits that a later write replaces are no longer written (R32). -/
def trimPend (masks : List LaneFile) (q : Pend) : Pend :=
  { q with masks := (List.range 32).map fun l => q.masks.getD l 0 &&& ~~~(masks.getD l 0) }

/-- A write of all 8 slices of a register in a lane makes its failed unit sound (R349). -/
def mendRegs (masks : List LaneFile) (bad : List (Nat × Nat)) : List (Nat × Nat) :=
  bad.filter fun x => BitVec.extractLsb' (32 * x.2) 32 (masks.getD x.1 0) != 0xFFFFFFFF#32

/-- The write at an index lands: its slices take their values, and older writes no longer reach them (R32). -/
def Skein.land (k : Skein) (i : Nat) : Skein :=
  match k.pend[i]? with
  | none => k
  | some q =>
    { k with lanes := mergeLanes k.lanes q.img q.masks,
             badRegs := mendRegs q.masks k.badRegs,
             pend := ((k.pend.take i).map (trimPend q.masks)) ++ k.pend.drop (i + 1) }

/-- Every pending write of a skein lands, in program order (R140). -/
def Skein.landAll (k : Skein) : Skein :=
  { k with lanes := k.pend.foldl (fun f q => mergeLanes f q.img q.masks) k.lanes,
           badRegs := k.pend.foldl (fun b q => mendRegs q.masks b) k.badRegs, pend := [] }

/-! ## Origin sets and register writes (R24, R25, R129) -/

/-- The bits of `n` slices from slice `s` in a lane file (R17). -/
def sliceMask (s n : Nat) : LaneFile := (BitVec.ofNat 1024 (2 ^ (4 * n) - 1)) <<< (4 * s)

/-- The registers that hold some slice of a run (R24). -/
def regsOf (s n : Nat) : List Nat := if n = 0 then [] else (List.range ((s + n - 1) / 8 - s / 8 + 1)).map (s / 8 + ·)

/-- The slices of a register that the window holds (R14). -/
def presentMask (window r : Nat) : LaneFile := sliceMask (8 * r) (min 8 (window - 8 * r))

/-- The sets after a write of a mask of slices in the lanes of `em` with one result set (R14, R25). -/
def writeSets (window : Nat) (sets : List OSet) (em : Mask) (mask : LaneFile) (regs : List Nat) (set : Nat → OSet) :
    List OSet :=
  (List.range 32).map fun r =>
    let old := sets.getD r 0
    if regs.contains r then
      if em == 0xFFFFFFFF#32 && (presentMask window r &&& ~~~mask) == 0 then set r else old ||| set r
    else old

/-- The lane masks of a write in the lanes of `em`. -/
def laneMasks (em : Mask) (mask : LaneFile) : List LaneFile :=
  (List.range 32).map fun l => if inMask em l then mask else 0

/-- A write that lands at issue (R25, R30, R32). The instructions that are not long-latency all write so: none of their
writes is ever pending, which is the model's choice among the times that R22 allows (log 4). -/
def Skein.write (k : Skein) (em : Mask) (regs : List Nat) (mask : LaneFile) (vals : List LaneFile) (set : Nat → OSet) :
    Skein :=
  let ms := laneMasks em mask
  { k with lanes := mergeLanes k.lanes vals ms,
           sets := writeSets k.window k.sets em mask regs set,
           badRegs := mendRegs ms k.badRegs,
           pend := k.pend.map (trimPend ms) }

/-- A long-latency write with a window of `win` issues: its sets hold from now on, its slices land later (R31, R32,
log 5). -/
def Skein.writePend (k : Skein) (uid : Nat) (pc word : Addr) (la win : Nat) (em : Mask) (regs : List Nat) (mask : LaneFile)
    (vals : List LaneFile) (set : Nat → OSet) (src : List (Nat × Nat × Loc)) : Skein :=
  { k with sets := writeSets k.window k.sets em mask regs set,
           pend := k.pend ++ [{ owner := uid, pc := pc, word := word, look := la, wins := [(uid, win)], heirs := [uid], lanes := em, img := vals,
                                masks := laneMasks em mask, old := regs.map fun r => (r, k.sets.getD r 0), src := src }] }

/-- A long-latency write at an issue. The count of followers starts one high because the issue counts itself. -/
def Skein.writeLater (k : Skein) (uid : Nat) (pc word : Addr) (la : Nat) (em : Mask) (regs : List Nat) (mask : LaneFile)
    (vals : List LaneFile) (set : Nat → OSet) (src : List (Nat × Nat × Loc)) : Skein :=
  k.writePend uid pc word la (la + 1) em regs mask vals set src

/-- A split takes over from others: what they stored, their earlier writes and, with `count`, their lookahead hold for it
as well (R31, R227, R239). -/
def Skein.inherit (k : Skein) (old : List Nat) (new : Nat) (count : Bool) : Skein :=
  let take (e : PStore) : PStore :=
    if e.owners.any old.contains then { e with owners := new :: e.owners }
    else if e.seen.any old.contains then { e with seen := new :: e.seen } else e
  { k with
    stores := k.stores.map take,
    wbs := if k.wbs.any old.contains then new :: k.wbs else k.wbs,
    pend := k.pend.map fun q =>
      { q with
        heirs := if q.heirs.any old.contains then new :: q.heirs else q.heirs,
        wins := if count then q.wins ++ (q.wins.filter fun w => old.contains w.1).map fun w => (new, w.2) else q.wins } }

/-- The set joins the `co` of every split and every saved `co` (R113). -/
def Skein.joinCo (k : Skein) (x : OSet) : Skein :=
  { k with splits := k.splits.map fun p => { p with co := p.co ||| x },
           stack := k.stack.map fun e => { e with co := e.co ||| x } }

/-! ## Releases and acquires (R172, R233, R239) -/

/-- The writer's latest values become those that an acquire must see (R144). -/
def KReg.release (num : Nat) (r : KReg) : KReg :=
  if r.writer == some num then { r with released := r.vals.length - 1 } else r

/-- After an acquire the skein reads no value older than the released one (R144). -/
def KReg.acquire (num : Nat) (r : KReg) : KReg :=
  { r with seen := (num, max r.released ((r.seen.find? (·.1 == num)).elim 0 (·.2))) :: r.seen.filter (·.1 != num) }

/-- A release by a skein of the stores that satisfy a test; at BK scope or wider its k values are released as well. -/
def State.release (s : State) (sid : Nat) (f : PStore → Bool) (bk : Bool) : State :=
  let t := s.drain sid f
  match t.skein? sid with
  | none => t
  | some k =>
    let rel (b : Block) : Block :=
      if b.grid == k.grid && b.num == k.block then { b with ks := b.ks.map (KReg.release k.num) } else b
    if bk then { t with blocks := t.blocks.map rel } else t

/-- An acquire by a skein at a scope: 0 SK, 1 BK, 2 CL, 3 DV, 4 SY (R144, R179, R192, R238). -/
def State.acquire (s : State) (sid scope : Nat) : State :=
  match s.skein? sid with
  | none => s
  | some k =>
    let s1 := if 1 ≤ scope then
      { s with blocks := s.blocks.map fun b =>
          if b.grid == k.grid && b.num == k.block then { b with ks := b.ks.map (KReg.acquire k.num) } else b }
      else s
    let s2 := if 2 ≤ scope then s1.setSkein { k with acquired := s1.past.length } else s1
    s2.modCore k.coreId Core.acquire

/-! ## Taking a stop and returning from one (R35, R72, R140, R247, R343, R344) -/

/-- A DO-NOT-REQUEUE code of a class with a detail (R345, R347). -/
def dnr (cls detail : Nat) : BitVec 16 := BitVec.ofNat 16 (0x8000 + cls * 256 + detail)

/-- A split at a stop: back to its group's first word with no hints, in the state it is in (R72, R73, R140). -/
def Split.atStop (p : Split) : Split := { p with pc := p.hints.gpc.getD p.pc, hints := Hints.empty }

/-- A STALLED split becomes READY (R137). One that a QPUSH held waits on its basket until it has issued the QPUSH again
(R296). -/
def Split.wake (p : Split) : Split :=
  match p.st with
  | .stalled (.basket cl slot _) => { p with st := .ready, pushing := some (cl, slot) }
  | .stalled _ => { p with st := .ready }
  | .ready | .held _ | .joinWait _ | .parked _ => p

/-- A split with a replay to perform stands at its instruction again (R200). -/
def Split.redo (p : Split) : Split :=
  match p.again with
  | some r => { p with pc := r.word, hints := r.hints }
  | none => p

/-- The sets of what a wait read at its issue, and of the pages that it has read since (R177, R225). -/
def Redo.read (r : Redo) : OSet := r.kept.elim 0 fun x => x.regs.foldl (· ||| ·) x.rd

/-- A wait that has read pages of a set also (R177). -/
def Redo.join (r : Redo) (set : OSet) : Redo :=
  { r with kept := r.kept.map fun x => { x with regs := [x.regs.foldl (· ||| ·) set] } }

/-- A split HELD in a wait whose poll meets a cause is READY to perform the instruction again (R137, R177, R225). -/
def Split.reissue (p : Split) (r : Redo) : Split := ({ p with st := .ready, again := some r } : Split).redo

/-- A split at the resumption of its skein (R137, R200). -/
def Split.atResume (p : Split) : Split := p.wake.redo

/-- A split whose fault-buffer entry is freed stands at its instruction (R202). -/
def Split.unpark (p : Split) : Split :=
  match p.st with
  | .parked (.translation _ _) => { p with st := .ready }
  | .parked (.syscall _ _ _ _) | .ready | .stalled _ | .held _ | .joinWait _ => p

/-- A trap record before its cause is filled in (R344). -/
def Skein.record (k : Skein) (pc word : Addr) (em : Mask) : Record :=
  { pc := pc, word := word, code := 0, cause := 0, flags := 0, em := em, lfm := 0, followers := 0, cmdclass := 0,
    batch := 0, imm := 0, grid := k.grid, core := k.coreId, slot := k.slotId, skein := k.num, block := k.block,
    addrs := [], ctx := k.ctx }

/-- The stops that write `lfm` (R125). -/
def Record.writesLfm (r : Record) : Bool := r.cause == 0 || r.cause == 2 || r.cause == 3 || r.cause == 6

/-- The mender of a cluster receives a record (R344). -/
def State.receive (s : State) (cl : Nat) (r : Record) : State :=
  s.modCluster cl fun c => { c with records := c.records ++ [r] }

/-- What a stop for a pre-emption also does: the skein's streams end and its fault-buffer entries are freed (R193, R202). -/
def Skein.preempted (k : Skein) : Skein := { k with streams := [], splits := k.splits.map Split.unpark }

/-- The fault-buffer entries of a skein are freed (R202). -/
def State.freeParks (s : State) (k : Skein) : State :=
  s.modCluster k.cluster fun c => { c with fbuf := c.fbuf.filter (·.sid != k.id) }

/-- Taking a stop: the skein's issued words complete, every split stands at its group address, `lfm` takes the record's
lanes where the cause writes it, the stop is a release at SY, and the mender receives the record (R125, R140, R247). A replay
still to come stays so, but for one that meets the trap itself; a wait that a poll performs again stays so after any trap that it can be
resumed from (R177, R200, R348). -/
def State.takeStop (s : State) (k : Skein) (uid : Nat) (r : Record) (lset : OSet) (redo : Option Pend) : State :=
  let k1 := if r.cause == 5 then k.landAll.preempted else k.landAll
  let s := if r.cause == 5 then s.freeParks k else s
  let k2 := { k1 with
    splits := k1.splits.map fun p =>
      { p.atStop with again := p.again.filter fun x => x.counted || !(r.cause == 0 && p.uid == uid && x.word == r.word) },
    lfm := if r.writesLfm then r.lfm else k1.lfm,
    lfmSet := if r.writesLfm then lset else k1.lfmSet,
    cur := some uid,
    stop := some { record := r, uid := uid, redo := redo, delivered := false, go := false } }
  ((s.setSkein k2).release k.id (fun _ => true) true).receive k.cluster r

/-- The trapping split continues at the word after a TRAP, a BRK or a TACK (R352, R370). -/
def Stop.continues (st : Stop) (p : Split) : Split :=
  if p.uid == st.uid &&
      (st.record.cause == 2 || st.record.cause == 3 || (st.record.cause == 5 && st.record.imm != 0xFFFFFFFF#32)) then
    match p.stub with
    | some (e, r) => if st.record.word + 4 == e then { p with pc := r, stub := none } else { p with pc := st.record.word + 4 }
    | none => { p with pc := st.record.word + 4 }
  else p

/-- Returning from a stop: the skein runs again, each split in the state it held, with STALLED becoming READY; the
resumption is an acquire at SY (R137, R247). -/
def State.resumeSkein (s : State) (sid : Nat) : State :=
  match s.skein? sid with
  | none => s
  | some k =>
    match k.stop with
    | none => s
    | some st =>
      (s.setSkein { k with stop := none, splits := k.splits.map fun p => (st.continues p).atResume }).acquire sid 4

end Sys2Proof.Machine
end

