-- ==== Sys2Proof/Machine/Paging.lean ====
section
/-! DEFINITION. Translation, permissions, held regions and the mender's page-table writes (R180, R183, R185 to R203, R442,
R443). -/

namespace Sys2Proof.Machine

/-- A leaf as a walk finds it: physical address of the byte, memory type, permissions and origin set (R195, R198). -/
structure Leaf where
  pa : Nat
  type : Nat
  rd : Bool
  wr : Bool
  ex : Bool
  set : OSet
  deriving DecidableEq, Repr, Inhabited

/-- The outcome of a walk (R194, R195). -/
inductive Walk where
  | leaf (l : Leaf)
  | unmapped
  | malformed
  deriving DecidableEq, Repr, Inhabited

/-- The fields of a page-table entry (R195). -/
def pteValid (e : Nat) : Bool := bitsOf e 0 1 == 1
def pteLeaf (e : Nat) : Bool := bitsOf e 1 1 == 1
def pteSize (e : Nat) : Nat := bitsOf e 2 2
def ptePerm (e : Nat) : Nat := bitsOf e 4 3
def pteType (e : Nat) : Nat := bitsOf e 8 2
def pteFrame (e : Nat) : Nat := bitsOf e 16 30
def pteOidx (e : Nat) : Nat := bitsOf e 52 12

/-- An entry built from its fields (R195). -/
def pteMake (oidx frame type perm size : Nat) : Nat :=
  3 + size * 2 ^ 2 + perm * 2 ^ 4 + type * 2 ^ 8 + frame * 2 ^ 16 + oidx * 2 ^ 52

/-- An entry that names the next table (R195). -/
def pteTable (frame : Nat) : Nat := 1 + frame * 2 ^ 16

/-- Bytes mapped by a leaf at a level (R196). -/
def leafSpan (lv : Nat) : Nat := if lv = 0 then 2 ^ 16 else 2 ^ 28

/-- An entry is malformed (R186, R195). -/
def pteMalformed (l lv e : Nat) : Bool :=
  bitsOf e 46 6 != 0 || bitsOf e 10 6 != 0 || bitsOf e 7 1 != 0 ||
  (if pteLeaf e then
    decide (2 ≤ lv) ||
    !(if lv = 0 then decide (pteSize e ≤ 1) else pteSize e == 2) ||
    pteType e == 3 ||
    !(paExists l (pteFrame e * 2 ^ 16) && paExists l (pteFrame e * 2 ^ 16 + leafSpan lv - 1) &&
      paType (pteFrame e * 2 ^ 16) == pteType e && paType (pteFrame e * 2 ^ 16 + leafSpan lv - 1) == pteType e)
  else !paExists l (pteFrame e * 2 ^ 16) || lv == 0 || pteOidx e != 0 || pteType e != 0 || ptePerm e != 0 || pteSize e != 0)

/-- The origin set of an index of a partition's table (R198). -/
def State.oset (s : State) (part idx : Nat) : OSet := (s.part part).otable.getD idx 0

/-- The leaf an entry gives for an address, with the set it has. -/
def leafOf (set : OSet) (lv e va : Nat) : Leaf :=
  { pa := pteFrame e * 2 ^ 16 + va % leafSpan lv, type := pteType e, rd := bitsOf e 4 1 == 1, wr := bitsOf e 5 1 == 1,
    ex := bitsOf e 6 1 == 1, set := set }

/-- The index of a level (R194). -/
def vaIndex (lv va : Nat) : Nat := bitsOf va (16 + 12 * lv) 12

/-- The four-level walk (R194). -/
def walkFrom (m : List Host.Cell) (l : Nat) (oset : Nat → OSet) (va : Nat) : Nat → Nat → Walk
  | 0, _ => .malformed
  | lv + 1, t =>
    let e := cellsNat m (t + 8 * vaIndex lv va) 8
    if !pteValid e then .unmapped
    else if pteMalformed l lv e then .malformed
    else if pteLeaf e then .leaf (leafOf (oset (pteOidx e)) lv e va)
    else walkFrom m l oset va lv (pteFrame e * 2 ^ 16)

/-- The walk of an address in a context's tables (R194). -/
def State.walk (s : State) (c : Context) (va : Nat) : Walk :=
  walkFrom s.mem s.localGiB (s.oset c.part) (va % 2 ^ 64) 4 c.root

/-- The level of a leaf, from its size (R195). -/
def pteLevel (e : Nat) : Nat := if pteSize e = 2 then 1 else 0

/-- The pieces that an old entry maps, of which the first is `n`, hold a piece. -/
def stalePiece (n e piece : Nat) : Bool := n * 2 ^ 16 / leafSpan (pteLevel e) == piece * 2 ^ 16 / leafSpan (pteLevel e)

/-- The address lies in the 64 KiB that hold the backing region of some skein's reconvergence stack (R131). -/
def State.backs (s : State) (pa : Nat) : Bool :=
  (s.skeins.any fun k => k.backing == some (pa / 2 ^ 16)) ||
    s.ctxs.any fun c => c.saved.any fun k => k.backing == some (pa / 2 ^ 16)

/-- Until the mender's invalidation completes, an access uses the old or the new entry (R199). -/
def State.entryFor (s : State) (c : Context) (va : Nat) : Walk :=
  match c.stale.find? fun x => stalePiece x.1 x.2.1 (va % 2 ^ 64 / 2 ^ 16) with
  | none => s.walk c va
  | some (_, e, set) =>
    if Config.freeEntry s.free (va / 2 ^ 16) then s.walk c va
    else if pteMalformed s.localGiB (pteLevel e) e then .malformed
    else .leaf (leafOf set (pteLevel e) e (va % 2 ^ 64))

/-- The translation of an access; no access has a permission on a backing region (R131). -/
def State.translate (s : State) (c : Context) (va : Nat) : Walk :=
  match s.entryFor c va with
  | .leaf l => .leaf (if s.backs l.pa then { l with rd := false, wr := false, ex := false } else l)
  | .unmapped => .unmapped
  | .malformed => .malformed

/-- The set lies within the read mask (R197). -/
def Context.mayRead (c : Context) (set : OSet) : Bool := set.subset c.readMask

/-- A page that a demand read may read (R197). -/
def Leaf.readable (c : Context) (l : Leaf) : Bool := l.rd && c.mayRead l.set

/-! ## Regions a context holds (R442) -/

/-- The held region that contains an address. -/
def Context.region? (c : Context) (va : Nat) : Option Region :=
  c.regions.find? fun r => decide (r.va ≤ va) && decide (va < r.va + r.len)

/-- The leaf with which a held region maps the page of an address (R195, R442). -/
def State.regionLeaf (s : State) (c : Context) (r : Region) (va : Nat) : Leaf :=
  { pa := r.frame * 2 ^ 16 + (va - r.va), type := r.type, rd := bitsOf r.perm 0 1 == 1, wr := bitsOf r.perm 1 1 == 1,
    ex := bitsOf r.perm 2 1 == 1, set := s.oset c.part r.oidx }

/-- A page as an access that no park stops finds it: whether a held region's page is mapped already or at this access is only a
matter of time (R442). -/
def State.pageOf (s : State) (c : Context) (va : Nat) : Walk :=
  match s.walk c va with
  | .leaf l => .leaf l
  | .malformed => .malformed
  | .unmapped => (c.region? va).elim .unmapped fun r => .leaf (s.regionLeaf c r va)

/-- Eight bytes of a table written by the mender. -/
def memPut8 (m : List Host.Cell) (a v : Nat) : List Host.Cell := cellsWrite m a (bytesLE 8 v)

/-- The tables on the way to a level-0 or level-1 entry, made and zeroed where they are missing in frames that `pick` finds beside those
made already: the memory, the frames made and the address of the entry; none for want of a frame (R194). -/
def ensureTables (pick : List Nat → Option Nat) (m : List Host.Cell) (made : List Nat) (va stop : Nat) :
    Nat → Nat → Option (List Host.Cell × List Nat × Nat)
  | 0, t => some (m, made, t)
  | lv + 1, t =>
    let a := t + 8 * vaIndex lv va
    if lv = stop then some (m, made, a)
    else
      let e := cellsNat m a 8
      if pteValid e then ensureTables pick m made va stop lv (pteFrame e * 2 ^ 16)
      else match pick made with
        | none => none
        | some f =>
          ensureTables pick (memPut8 (cellsClear m (f * 2 ^ 16) (2 ^ 16)) a (pteTable f)) (f :: made) va stop lv (f * 2 ^ 16)

/-- A frame of Finwesin's own that is in no use, beside some just taken (R131, R194, R386, R398). -/
def State.ownFrame (s : State) (taken : List Nat) : Option Nat := freeFrame s.localGiB s.hbmUp s.own (taken ++ s.ownUsed)

/-- One entry written by the mender, and an old leaf kept until the invalidation completes (R199). For want of a frame for a table nothing
is written, and the page stays as it is (log 30). -/
def State.setPte (s : State) (c : Context) (va lv e : Nat) : State :=
  match ensureTables s.ownFrame s.mem [] va lv 4 c.root with
  | none => s
  | some (m, made, a) =>
    let old := cellsNat m a 8
    let s1 : State := { s with mem := memPut8 m a e, tables := s.tables ++ made.map fun f => (f, c.id) }
    if pteValid old && pteLeaf old then
      s1.setCtx { c with stale := (va / 2 ^ 16, old, s.oset c.part (pteOidx old)) :: c.stale.filter (·.1 != va / 2 ^ 16) }
    else s1

/-- The entries of the page that contains an address: their number, the bytes of each and the first address (R196). -/
def Region.entries (r : Region) (va : Nat) : List Nat :=
  let n := if r.size = 0 then 1 else if r.size = 1 then 32 else 4
  let span := leafSpan (if r.size = 2 then 1 else 0)
  (List.range n).map fun j => va / (n * span) * (n * span) + j * span

/-- One entry of a held region's page is written unless it maps its piece already (R196, R442). -/
def State.mapEntry (s : State) (ctx : Nat) (r : Region) (base : Nat) : State :=
  match s.ctx? ctx with
  | none => s
  | some c => match s.walk c base with
    | .leaf _ => s
    | .unmapped | .malformed =>
      s.setPte c base (if r.size = 2 then 1 else 0)
        (pteMake r.oidx ((r.frame * 2 ^ 16 + (base - r.va)) / 2 ^ 16) r.type r.perm r.size)

/-- The page of a held region that contains an address is mapped, all entries of its group (R196, R442). -/
def State.mapPiece (s : State) (ctx va : Nat) : State :=
  match (s.ctx? ctx).bind (·.region? va) with
  | none => s
  | some r => (r.entries va).foldl (fun t base => t.mapEntry ctx r base) s

/-- Every piece of a range of held regions is mapped (R393, R442). -/
def State.mapRange (s : State) (ctx va n : Nat) : State :=
  (List.range (n / 2 ^ 16)).foldl (fun t i => t.mapPiece ctx (va + i * 2 ^ 16)) s

/-- Every piece of a range is unmapped, and its old entries wait for their invalidation (R199, R442). -/
def State.unmapRange (s : State) (ctx va : Nat) : Nat → State
  | 0 => s
  | n + 1 =>
    let t := match s.ctx? ctx with
      | none => s
      | some c => match s.walk c va with
        | .leaf _ => s.setPte c va (if (c.region? va).elim false (·.size == 2) then 1 else 0) 0
        | _ => s
    t.unmapRange ctx (va + 2 ^ 16) n

/-! ## S and C (R180 to R185, R443) -/

/-- The bytes of the space that the skein may name: the allocation or the context's window on the cluster (R185). -/
def State.spaceSize (s : State) (k : Skein) (sp : Space) : Nat :=
  match sp with
  | .g => 0
  | .s => (s.block? k.grid k.block).elim 0 (·.spad)
  | .c => ((s.cluster k.cluster).wins.find? (·.ctx == k.ctx)).elim 0 (·.size)

/-- The location of an S or C offset of a skein (R180). -/
def Skein.loc (k : Skein) (sp : Space) (off : Nat) : Loc :=
  match sp with
  | .g => locG off
  | .s => ⟨.s, (k.grid, k.block), off⟩
  | .c => ⟨.c, (k.cluster, k.ctx), off⟩

/-- In range: the offset fits 32 bits and every byte lies below the size (R185). -/
def State.inRange (s : State) (k : Skein) (sp : Space) (off n : Nat) : Bool :=
  decide (off < 2 ^ 32) && decide (off + n ≤ s.spaceSize k sp)

/-- The storage of an OPEN or RETIRING basket of BK scope: first offset and length (R443). -/
def Basket.storage? (b : Basket) (grid blk : Nat) : Option (Nat × Nat) :=
  if b.st != .free && b.scope == 0 && b.owner == (grid, blk) then some (b.off, b.n * b.e) else none

/-- The range touches the storage of a basket (R443). -/
def State.hitsBasket (s : State) (k : Skein) (sp : Space) (off n : Nat) : Bool :=
  sp == .s && (s.cluster k.cluster).baskets.any fun b =>
    match b.storage? k.grid k.block with
    | some (o, len) => decide (off < o + len) && decide (o < off + n)
    | none => false

end Sys2Proof.Machine
end

