-- ==== Sys2Proof/Machine/Operands.lean ====
section
/-! DEFINITION. How a word issues: its group's hints, its operands' checks, the interlock, reading and writing slices, and
what happens to the split afterwards (R14, R18, R22, R24, R25, R31 to R33, R70 to R79, R87, R120, R137, R200, R373). -/

namespace Sys2Proof.Machine

/-- What keeps a word from its own effect in this step. -/
inductive Check where
  /-- A precise trap: code, `lfm`, per-lane addresses, the set `lfm` carries (R125, R163). -/
  | trap (code : BitVec 16) (lfm : Mask) (addrs : List (Nat × Nat)) (set : OSet)
  /-- A translation park: kind of access, faulting addresses, malformed entry, and what the word has read, but for an engine command,
  which is issued again from its first step (R21, R200, R274). -/
  | park (kind : Nat) (vas : List (Nat × Nat)) (malformed : Bool) (kept : Option Kept)
  /-- The split is STALLED (R137). -/
  | stall (on : StallOn)
  /-- A PCIe request of some lanes has been sent, with the state once the copies of their lines are gone (R211). -/
  | send (lanes : Mask) (after : State)
  /-- A DATA-ERROR trap of a demand read, with the state once the error is counted, or the HOST-TIMEOUT of an access, with the state
without its request (R348, R349, R394, R434). -/
  | dataError (code : BitVec 16) (lfm : Mask) (addrs : List (Nat × Nat)) (set : OSet) (after : State)
  deriving DecidableEq, Repr, Inhabited

/-- What a word issues with: the state with the split already moved past it, the resolved lane files, and the join of the
sets read so far. -/
structure Iss where
  s : State
  k : Skein
  p : Split
  pc : Addr
  gpc : Addr
  h : Hints
  files : List LaneFile
  rd : OSet
  /-- The policy that the word has read, and the sets of the single registers that a SPILL has, or of the pages that a BITWAIT has
(R177, R191, R221). -/
  pol : Option (BitVec 32) := none
  regs : List OSet := []
  /-- What a word that is replayed read at its issue (R21, R200). -/
  kept : Option Kept := none
  deriving DecidableEq, Repr, Inhabited

abbrev Res := Except Check

/-- The trap of this issue with a code and the lanes it names. -/
def Iss.trap (i : Iss) (code : BitVec 16) (lfm : Mask) : Res α := .error (.trap code lfm [] (i.rd ||| i.p.co))

/-- The same trap with per-lane addresses (R344). -/
def Iss.trapAt (i : Iss) (code : BitVec 16) (lfm : Mask) (addrs : List (Nat × Nat)) : Res α :=
  .error (.trap code lfm addrs (i.rd ||| i.p.co))

/-- Trap unless a condition holds. -/
def Iss.need (i : Iss) (ok : Bool) (code : BitVec 16) (lfm : Mask) : Res Unit :=
  if ok then .ok () else i.trap code lfm

/-! ## Hints (R69 to R79) -/

/-- The word of an instruction. -/
def wordOf (i : Instr) : Word :=
  match i with
  | .illegalInstruction w => w
  | _ => (encode i).getD 0

/-- The consumers that each kind of hint fits (R71). -/
def hintFits (kind : Nat) (w : Word) : Bool :=
  let m := fMajor w
  match kind with
  | 0 => (decide (0x21 ≤ m) && decide (m ≤ 0x2A)) || (m == 0x3B && decide (fMinor w ≤ 2))
  | 1 => decide (0x33 ≤ m) && decide (m ≤ 0x36)
  | 2 => (decide (1 ≤ m) && decide (m ≤ 0x29)) || m == 0x2B || m == 0x37 ||
      (m == 0x38 && [0, 1, 2, 3, 5, 7].contains (fB w).toNat)
  | 3 => (decide (1 ≤ m) && decide (m ≤ 0x1E)) || (decide (0x21 ≤ m) && decide (m ≤ 0x29))
  | _ =>
    let ms := (fMinor w, (fSel w).toNat)
    m == 0x33 || (m == 0x35 && !(fPol w).getLsbD 1) || (m == 0x36 && !(fUse w == 1#1 && fO w == 0#2)) ||
    (m == 0x39 && [(0, 1), (1, 1), (2, 1)].contains ms) || (m == 0x3A && [(2, 0), (3, 1)].contains ms) ||
    (m == 0x3D && fMinor w == 0) || (m == 0x3E && [0, 2, 3, 4, 5, 7].contains (fMinor w))

/-- The payload of a hint suits its consumer (R76, R78, R79). -/
def hintSuits (kind : Nat) (h : Hints) (w : Word) : Bool :=
  let m := fMajor w
  match kind with
  | 2 => ((h.perm.getD 0).extractLsb' 13 3 == 0#3) || !((decide (0x21 ≤ m) && decide (m ≤ 0x29)) || m == 0x2B || m == 0x38)
  | 3 =>
    let x := h.mixw.getD 0
    let cls (c : BitVec 3) : Bool := (Width.ofCode c).isFloat == (fW w).isFloat
    let b := x.extractLsb' 0 3
    if decide (0x21 ≤ m) && decide (m ≤ 0x29) then b == 0#3 && cls (x.extractLsb' 6 3) && cls (x.extractLsb' 3 3)
    else cls (x.extractLsb' 6 3) && cls (x.extractLsb' 3 3) && cls b
  | 4 => fLa w == 0#4
  | _ => true

/-- The first hint of the group that does not go with its consumer, with its address and detail (R71, R76, R78, R79). -/
def misfit (gpc : Addr) (h : Hints) (w : Word) : Nat → List Nat → Option (Addr × Nat)
  | _, [] => none
  | n, kd :: t =>
    if !hintFits kd w then some (gpc + 4 * BitVec.ofNat 64 n, 1)
    else if !hintSuits kd h w then some (gpc + 4 * BitVec.ofNat 64 n, 0)
    else misfit gpc h w (n + 1) t

/-- The illegal-instruction trap of a group: the address of the word that causes it and its detail (R70 to R86). -/
def groupFault (i : Instr) (gpc pc : Addr) (h : Hints) : Option (Addr × Nat) :=
  match h.bad with
  | some b => some b
  | none =>
    match misfit gpc h (wordOf i) 0 h.kinds with
    | some b => some b
    | none => if accepts i then none else some (pc, 0)

/-- The lookahead of a word (R31, R79). -/
def Hints.look (h : Hints) (la : BitVec 4) : Nat := (h.lka.elim la.toNat (·.toNat))

/-- The byte offset that OFFS supplies (R75). -/
def Hints.offset (h : Hints) : Int := h.offs.elim 0 fun p => p.toInt

/-- The immediate of format I as an exact number (R61, R74). -/
def Hints.imm (h : Hints) (imm : BitVec 7) (sgn : Bool) : Int :=
  match h.ximm with
  | some p => if sgn then (p ++ imm).toInt else (p ++ imm).toNat
  | none => if sgn then imm.toInt else imm.toNat

/-- The lane from which a source is taken under one field of PERM (R76). -/
def permLane (f : BitVec 8) (l : Nat) : Nat :=
  let n := (f.extractLsb' 0 5).toNat
  match (f.extractLsb' 5 3).toNat with
  | 1 => (l + n) % 32
  | 2 => n
  | 3 => l ^^^ n
  | 4 => 31 - l
  | _ => l

/-- The source lane of operand a (R76). -/
def Hints.srcA (h : Hints) (l : Nat) : Nat := h.perm.elim l fun p => permLane (p.extractLsb' 0 8) l
/-- The source lane of operand b (R76). -/
def Hints.srcB (h : Hints) (l : Nat) : Nat := h.perm.elim l fun p => permLane (p.extractLsb' 8 8) l
/-- The widths of d, a and b (R20, R78). -/
def Hints.wd (h : Hints) (w : Width) : Width := h.mixw.elim w fun x => Width.ofCode (x.extractLsb' 6 3)
def Hints.wa (h : Hints) (w : Width) : Width := h.mixw.elim w fun x => Width.ofCode (x.extractLsb' 3 3)
def Hints.wb (h : Hints) (w : Width) : Width := h.mixw.elim w fun x => Width.ofCode (x.extractLsb' 0 3)

/-! ## Operands -/

/-- An operand: its slices, the multiple its start must be, the lanes read, and whether it is written. -/
structure Opd where
  start : Nat
  n : Nat
  align : Nat
  lanes : Mask
  reads : Bool
  writes : Bool
  deriving DecidableEq, Repr, Inhabited

/-- The multiple at which an operand of `n` slices may start: I64 at an even register (R18), 128 bits at a register whose
number is a multiple of 4 (R63, R65). -/
def alignOf (n : Nat) : Nat := if 16 ≤ n then n else 1

/-- A source read in some lanes. -/
def opdIn (start n : Nat) (lanes : Mask) : Opd := ⟨start, n, alignOf n, lanes, true, false⟩
/-- A destination. -/
def opdOut (start n : Nat) : Opd := ⟨start, n, alignOf n, 0, false, true⟩
/-- A register pair that starts at an even register (R29, R84). -/
def opdPair (start : Nat) (lanes : Mask) : Opd := ⟨start, 16, 16, lanes, true, false⟩

/-- The slices of an operand. -/
def Opd.mask (o : Opd) : LaneFile := sliceMask o.start o.n

/-- The slices that the operands touch in a lane, for the interlock (R22). -/
def touched (ops : List Opd) (em : Mask) (l : Nat) : LaneFile :=
  ops.foldl (fun m o => if (o.reads && inMask o.lanes l) || (o.writes && inMask em l) then m ||| o.mask else m) 0

/-- Some lane's pending slices meet the operands (R22). -/
def Pend.hits (q : Pend) (ops : List Opd) (em : Mask) : Bool :=
  laneIds.any fun l => (q.masks.getD l 0 &&& touched ops em l) != 0

/-- The split counts followers of the write (R31). -/
def Pend.counts (q : Pend) (p : Split) : Bool := q.wins.any (·.1 == p.uid)

/-- The interlock of R22 binds this split to the write: one of an earlier instruction of its own, in whichever lanes, or one
in its lanes (R31, R77). -/
def Pend.binds (q : Pend) (p : Split) : Bool := q.heirs.contains p.uid || (q.lanes &&& p.members) != 0

/-- The split is inside the write's lookahead window (R31). -/
def Pend.exempt (q : Pend) (p : Split) : Bool := q.wins.any fun w => w.1 == p.uid && decide (0 < w.2)

/-- The pending bits of several writes, lane by lane. -/
def pendMasks (qs : List Pend) : List LaneFile :=
  (List.range 32).map fun l => qs.foldl (fun m q => m ||| q.masks.getD l 0) 0

/-- The writes that satisfy a test land in program order; an older write that does not loses the slices they took (R32). -/
def landWhere (f : Pend → Bool) : List Pend → List LaneFile → List LaneFile × List Pend
  | [], files => (files, [])
  | q :: t, files =>
    if f q then landWhere f t (mergeLanes files q.img q.masks)
    else ((landWhere f t files).1, trimPend (pendMasks (t.filter f)) q :: (landWhere f t files).2)

/-- A bit for each slice spread over its four bits. -/
def sliceSpread (c : BitVec 256) : LaneFile :=
  (List.range 256).foldl (fun m i => if c.getLsbD i then m ||| sliceMask i 1 else m) 0

/-- The lane files as this issue reads them: every pending slice is old or new, slice by slice (R32, R77). -/
def resolveFiles (n : Nat) : List Pend → List LaneFile → List LaneFile
  | [], files => files
  | q :: t, files =>
    resolveFiles (n + 1) t (mergeLanes files q.img
      ((List.range 32).map fun l => q.masks.getD l 0 &&& sliceSpread (Config.freeSlices n l)))

/-- The set of a register as an operand reads it: also its older set where a slice that it reads is pending (R24, R32). -/
def Skein.readSet (k : Skein) (o : Opd) (r : Nat) : OSet :=
  k.pend.foldl (fun a q =>
    if laneIds.any fun l => inMask o.lanes l && (q.masks.getD l 0 &&& o.mask &&& sliceMask (8 * r) 8) != 0 then
      a ||| (q.old.find? (·.1 == r)).elim 0 (·.2) else a) (k.sets.getD r 0)

/-- The join of the sets of the registers that hold some slice of an operand that is read (R24). -/
def Skein.opdSet (k : Skein) (o : Opd) : OSet :=
  if o.reads then (regsOf o.start o.n).foldl (fun a r => a ||| k.readSet o r) 0 else 0

/-- The sets read so far with those that operands add. -/
def Iss.readSets (i : Iss) (k : Skein) (ops : List Opd) : OSet := ops.foldl (fun a o => a ||| k.opdSet o) i.rd

/-- The writes that satisfy a test land (R22). -/
def Skein.landThose (k : Skein) (f : Pend → Bool) : Skein :=
  let r := landWhere f k.pend k.lanes
  { k with lanes := r.1, pend := r.2, badRegs := (k.pend.filter f).foldl (fun b q => mendRegs q.masks b) k.badRegs }

/-- The die whose counters show an error at a physical address met by a core: for HBM that of its stack, which is also its
home (R5, R385); for host memory, the core's own. -/
def errorDie (core pa : Nat) : Nat := if paType pa == 0 then stackOf pa else core / 64

/-- The error counter of the level at which a core met an uncorrectable error (R348, R434). -/
def State.countError (s : State) (core pa level : Nat) : State :=
  match level with
  | 1 => s.modCore core fun c => { c with l1Errs := satInc c.l1Errs }
  | 2 => s.modDie (errorDie core pa) fun d => { d with l2Errs := satInc d.l2Errs }
  | 3 => s.modDie (errorDie core pa) fun d => { d with hbmErrs := satInc d.hbmErrs }
  | 4 => s.modCore core fun c => { c with spadErrs := satInc c.spadErrs }
  | 5 => s.modCluster (core / 8) fun c => { c with sramErrs := satInc c.sramErrs }
  | 6 => s.modCore core fun c => { c with rfErrs := satInc c.rfErrs }
  | _ => s

/-- The code of an uncorrectable error at a location (R347, R348). -/
def State.errorCode (s : State) (l : Loc) : BitVec 16 := BitVec.ofNat 16 (0xCC00 + s.failLevel l)

/-- The level at which an agent without an L1 meets the failed unit of a byte (R347). -/
def State.outsideLevel (s : State) (l : Loc) : Nat := max 2 (s.failLevel l)

/-- The error that an agent without an L1 meets in its read is counted (R348, R434). -/
def State.outsideError (s : State) (l : Loc) : State := s.countError 0 l.addr (s.outsideLevel l)

/-- The code of that error (R347, R348). -/
def State.outsideCode (s : State) (l : Loc) : BitVec 16 := BitVec.ofNat 16 (0xCC00 + s.outsideLevel l)

/-- The line of a byte is dropped from the cache level that held an error (R348). -/
def State.dropAt (s : State) (core level : Nat) (l : Loc) : State :=
  match l.sp, level with
  | .g, 1 => s.modCore core fun c => { c with l1 := l1Drop c.l1 (l.addr / 64) }
  | .g, 2 => s.pdrop (core / 64) (l.addr / 64)
  | _, _ => s

/-- Operands that read a failed unit of the register file meet its DATA-ERROR before any cause of the consumer's own entry,
with the lanes whose files hold one (R349, log 25). -/
def Iss.intact (i : Iss) (ops : List Opd) : Res Iss :=
  let bad (l : Nat) : Bool := i.k.badRegs.any fun x =>
    x.1 == l && ops.any fun o => o.reads && inMask o.lanes l && (regsOf o.start o.n).contains x.2
  if !laneIds.any bad then .ok i
  else .error (.dataError 0xCC06 (maskOf bad) [] (i.rd ||| i.p.co) (i.s.countError i.k.coreId 0 6))

/-- The operands as the word reads them once every write that it must wait for has landed (R22, R24). -/
def Iss.readLanded (i : Iss) (ops : List Opd) : Iss :=
  let k := i.k.landThose fun q => q.hits ops i.p.em && q.binds i.p && !q.exempt i.p
  { i with k := k, rd := i.readSets k ops, files := resolveFiles i.s.free k.pend k.lanes,
           s := { i.s with free := i.s.free + k.pend.length }.setSkein k }

/-- A replay reads what its instruction read at issue, and makes none of the checks that come before its translation; the
writes that the operands wait for have landed as well (R21, R120, R200, log 41). -/
def Iss.again (i : Iss) (x : Kept) (ops : List Opd) : Iss := { i.readLanded ops with files := x.files, rd := x.rd }

/-- The operand checks of R87 (window, then alignment), the LOOKAHEAD trap for a word that can meet it (R33), the interlock
(R22), and the lane files that the word reads. -/
def Iss.operandsBut (i : Iss) (look : Bool) (ops : List Opd) : Res Iss :=
  match i.kept with
  | some x => .ok (i.again x ops)
  | none =>
    let t := { i with rd := i.readSets { i.k with pend := [] } ops, files := i.k.lanes }
    if ops.any fun o => decide (i.k.window < o.start + o.n) then t.trap (dnr 2 1) i.p.em
    else if ops.any fun o => o.start % o.align != 0 then t.trap (dnr 2 2) i.p.em
    else if i.k.pend.isEmpty then t.intact ops
    else if look && i.k.swlo.getLsbD 0 && i.k.pend.any fun q => q.exempt i.p && q.hits ops i.p.em then t.trap (dnr 7 0) i.p.em
    else (i.readLanded ops).intact ops

/-- The operand checks and reads of every word but LBLR (R22, R33, R87). -/
def Iss.operands (i : Iss) (ops : List Opd) : Res Iss := i.operandsBut true ops

/-- What the word has read so far, as a replay keeps it (R21, R191). -/
def Iss.keeps (i : Iss) : Kept := ⟨i.files, i.rd, i.regs, i.pol⟩

/-- The number in `n` slices of a lane from slice `start` (R17). -/
def Iss.raw (i : Iss) (l start n : Nat) : Nat := (i.files.getD l 0).toNat / 2 ^ (4 * start) % 2 ^ (4 * n)

/-- The result set of the operands read: their registers' sets and `co` (R24). -/
def Iss.rset (i : Iss) : OSet := i.rd ||| i.p.co

/-- The active lanes, ascending. -/
def Iss.active (i : Iss) : List Nat := lanesOf i.p.em

/-- The state with the skein as this issue has it. -/
def Iss.put (i : Iss) (k : Skein) : State := i.s.setSkein k

/-- Values for the lanes shifted to a start slice, as lane files. -/
def imageOf (start n : Nat) (v : Nat → Nat) : List LaneFile :=
  (List.range 32).map fun l => BitVec.ofNat 1024 (v l % 2 ^ (4 * n) * 2 ^ (4 * start))

/-- The skein after a value is written to `n` slices in the active lanes (R25, R30). -/
def Iss.wr (i : Iss) (start n : Nat) (v : Nat → Nat) (set : OSet) : Skein :=
  i.k.write i.p.em (regsOf start n) (sliceMask start n) (imageOf start n v) fun _ => set

/-- The same as a long-latency write with its lookahead (R31). -/
def Iss.wrLate (i : Iss) (la : Nat) (start n : Nat) (v : Nat → Nat) (set : OSet) (src : List (Nat × Nat × Loc)) : Skein :=
  i.k.writeLater i.p.uid i.gpc i.pc la i.p.em (regsOf start n) (sliceMask start n) (imageOf start n v) (fun _ => set) src

/-! ## Issuing -/

/-- A precise trap of the issuing split (R35, R72, R344). -/
def State.trapStop (s : State) (k : Skein) (p : Split) (gpc word : Addr) (code : BitVec 16) (lfm : Mask)
    (addrs : List (Nat × Nat)) (set : OSet) : State :=
  s.takeStop k p.uid
    { k.record gpc word p.em with
        code := code, lfm := lfm, flags := if addrs.isEmpty then 0 else 1, addrs := addrs } set none

/-- The fault buffer of the skein's cluster is full (R201). -/
def State.parkFull (s : State) (k : Skein) : Bool := decide (64 ≤ (s.cluster k.cluster).fbuf.length)

/-- The split parks on a translation fault, with the instruction to perform again unless the fetch met the fault: one
fault-buffer entry and one record (R200, R344). -/
def State.parkOn (s : State) (k : Skein) (p : Split) (gpc word : Addr) (kind : Nat) (vas : List (Nat × Nat))
    (malformed : Bool) (redo : Option Redo) : State :=
  let e : FaultEntry := { id := s.nextId, sid := k.id, uid := p.uid, ctx := k.ctx, pc := gpc, kind := kind, vas := vas,
                          malformed := malformed }
  let r := { k.record gpc word p.em with
    code := dnr 3 (if malformed then 2 else 1), cause := 7, flags := 1, addrs := vas,
    lfm := maskOf fun l => vas.any (·.1 == l) }
  let q := { p with pc := gpc, hints := Hints.empty, again := none, st := .parked (.translation s.nextId redo) }
  let s1 := ({ s with nextId := s.nextId + 1 }.setSkein (k.setSplit q)).release k.id (·.owners.contains p.uid) true
  (s1.modCluster k.cluster fun c => { c with fbuf := c.fbuf ++ [e] }).receive k.cluster r

/-- The split that the step bit makes current after a group (R373). -/
def Skein.current (k : Skein) (uid : Nat) : Option Split :=
  match k.split? uid with
  | some p => some p
  | none => match k.cur with
    | some u => k.split? u
    | none => none

/-- With the step bit set the skein stops once the group has issued (R373). -/
def State.stepStop (s : State) (sid uid : Nat) (step : Bool) : State :=
  if !step then s
  else match s.skein? sid with
    | none => s
    | some k =>
      if k.stop.isSome then s
      else match k.current uid with
        | none => s
        | some p => s.takeStop k p.uid { k.record p.pc p.pc p.em with cause := 4 } 0 none

/-- After a word has issued: the windows of its split's producers shrink by one, unless the split has counted it before, and a stub
that has ended continues at its resume address (R31, R370). -/
def Skein.afterIssue (k : Skein) (uid : Nat) (counted : Bool) : Skein :=
  { k with
    pend := if counted then k.pend
      else k.pend.map fun q => { q with wins := q.wins.map fun w => if w.1 == uid then (w.1, w.2 - 1) else w },
    splits := k.splits.map fun p =>
      if p.uid == uid then match p.stub with
        | some (e, r) => if p.pc == e then { p with pc := r, stub := none } else p
        | none => p
      else p }

/-- The state after a word's own effect. A word that a poll performs again has been counted, and its group has issued, before (R31,
R177, R373). -/
def State.afterWord (s : State) (sid uid : Nat) (step counted : Bool) : State :=
  let t := match s.skein? sid with
    | none => s
    | some k => s.setSkein (k.afterIssue uid counted)
  t.stepStop sid uid (step && !counted)

/-- The split is STALLED on a cause; one that waits for a PCIe completion has sent its request (R137, R211, R394). -/
def State.stallOn (s : State) (k : Skein) (p : Split) (on : StallOn) : State :=
  let k1 := k.setSplit { p with st := .stalled on }
  match on with
  | .pcie _ lines =>
    if k.preqs.any fun r => r.uid == p.uid && r.word == p.pc then s.setSkein k1
    else s.setSkein { k1 with preqs := ⟨p.uid, p.pc, (s.ctx? k.ctx).bind (·.vf), s.linkTime, lines.map fun n => (n, []), none, false, []⟩ :: k1.preqs }
  | .line _ _ | .basket _ _ _ | .wringer | .mangle | .close _ | .buffer | .fetch _ => s.setSkein k1

/-- A translation fault of the issuing split: it parks and the group counts as issued, or it is STALLED while the fault
buffer is full (R200, R201, R373). -/
def State.meetFault (s : State) (k : Skein) (p : Split) (gpc word : Addr) (kind : Nat) (vas : List (Nat × Nat))
    (malformed : Bool) (redo : Option Redo) : State :=
  if s.parkFull k then s.stallOn k p .buffer
  else (s.parkOn k p gpc word kind vas malformed redo).stepStop k.id p.uid (k.swlo.getLsbD 1 && !redo.elim false (·.counted))

/-- A skein as it stands in a state, with one of its splits put back as it was. -/
def State.withSplit (s : State) (k : Skein) (p : Split) : Skein := ((s.skein? k.id).getD k).setSplit p

/-- What a word issues with: its split stands past it, with no hints and no other change yet (R72, R138). -/
def Iss.start (s : State) (k : Skein) (p : Split) : Iss :=
  let p1 := { p with pc := p.pc + 4, hints := Hints.empty, since := s.issueTicks, yielded := none, again := none, pushing := none }
  let k1 := k.setSplit p1
  let x := p.again.bind (·.kept)
  ⟨s.setSkein k1, k1, p1, p.pc, p.hints.gpc.getD p.pc, p.hints, k.lanes, 0, x.bind (·.pol), x.elim [] (·.regs), x⟩

/-- The issue has been counted before, by a word that a poll performs again (R31, R177). -/
def Split.counted (p : Split) : Bool := p.again.elim false (·.counted)

/-- The instruction as a poll that meets a cause performs it again, from its translation on, with what it has read (R21, R177, R225). -/
def Iss.heldRedo (i : Iss) (x : Instr) : Redo := ⟨x, i.pc, { i.h with gpc := some i.gpc }, some i.keeps, true⟩

/-- A word issues: the group's illegal-instruction checks, then the word's own checks and effect; a cause met is taken in
place of the effect (R87). -/
def issue (i : Instr) (s : State) (body : Iss → Res State) : Host.Outcome State Fault Refusal :=
  match s.current with
  | none => .fault .noIssuer
  | some (k, p) =>
    let gpc := p.hints.gpc.getD p.pc
    let step := k.swlo.getLsbD 1
    match groupFault i gpc p.pc p.hints with
    | some (word, detail) => .next (s.trapStop k p gpc word (dnr 1 detail) p.em [] p.co)
    | none =>
      match body (Iss.start s k p) with
      | .ok t => .next (t.afterWord k.id p.uid step p.counted)
      | .error (.trap code lfm addrs set) => .next (s.trapStop k p gpc p.pc code lfm addrs set)
      | .error (.park kind vas bad kept) =>
        .next (s.meetFault k p gpc p.pc kind vas bad (some ⟨i, p.pc, { p.hints with gpc := some gpc }, kept, p.counted⟩))
      | .error (.stall on) => .next (s.stallOn k p on)
      | .error (.send lanes t) => .next (t.stallOn (t.withSplit k p) p (.pcie lanes []))
      | .error (.dataError code lfm addrs set t) => .next (t.trapStop (t.withSplit k p) p gpc p.pc code lfm addrs set)

end Sys2Proof.Machine
end

