-- ==== Sys2Proof/Machine/Fetch.lean ====
section
/-! DEFINITION. The fetch path (R72, R197, R200, R376, R377) and the choice of the split that issues (R137 to R140, R157,
R277, R278, R290, R337, R373). -/

namespace Sys2Proof.Machine

/-- The outcome of a demand fetch (R72, R377). -/
inductive Fetched where
  | word (w : Word) (s : State)
  | fault (code : BitVec 16) (s : State)
  | park (malformed : Bool)
  | wait (line : Nat)

/-- The 64 bytes of a line at its coherence point (R376). -/
def State.lineBytes (s : State) (line : Nat) : List Byte := cellsRead s.mem (line * 64) 64

/-- The word at an offset of a line's bytes (R58). -/
def lineWord (bytes : List Byte) (off : Nat) : Word := BitVec.ofNat 32 (ofBytesLE ((bytes.drop off).take 4))

/-- A word enters the port's fetch buffer; the oldest of 32 leaves (R376). -/
def Core.buffer (c : Core) (port pa : Nat) (w : Word) : Core :=
  if port % 2 = 0 then { c with fetch0 := ((pa, w) :: c.fetch0.filter (·.1 != pa)).take 32 }
  else { c with fetch1 := ((pa, w) :: c.fetch1.filter (·.1 != pa)).take 32 }

/-- The words in the port's fetch buffer. -/
def Core.buffered (c : Core) (port : Nat) : List (Nat × Word) := if port % 2 = 0 then c.fetch0 else c.fetch1

/-- The word at a physical address as a core's port fetches it: from its buffer, its instruction cache, or memory, whose
line then enters the cache unless a unit of it has failed (R376, R348). A line whose fill is in flight is waited for
(R377). A copy that is still what memory holds is a hit (R379); of one that is not, without an ICINV, the old or the new
contents are fetched (R217, log 40). -/
def State.fetchPa (s : State) (k : Skein) (pa : Nat) : Fetched :=
  let c := s.core k.coreId
  let now := s.lineBytes (pa / 64)
  match (c.buffered k.port).find? fun x => x.1 == pa && (x.2 == lineWord now (pa % 64) || !Config.freeEvict s.free 0 pa) with
  | some (_, w) => .word w s
  | none =>
    match c.ic.find? fun x => x.line == pa / 64 && (x.bytes == now || !Config.freeEvict s.free 1 pa) with
    | some ln =>
      let w := lineWord ln.bytes (pa % 64)
      .word w (s.modCore k.coreId fun c => c.buffer k.port pa w)
    | none =>
      if c.fills.any (·.line == pa / 64) then .wait (pa / 64)
      else if s.failedAt (locG pa) then
        let level := s.failLevel (locG pa)
        .fault (BitVec.ofNat 16 (0xCC00 + level)) (s.countError k.coreId pa level)
      else
        let w := lineWord now (pa % 64)
        .word w (s.modCore k.coreId fun c =>
          (if s.failedLine (pa / 64) then c else c.addIc ⟨pa / 64, now⟩ (Config.freeWay s.free (pa / 64))).buffer k.port pa w)

/-- A demand fetch of a split's next word (R72, R197, R200). An address that is no multiple of 4, which only a debugger can
write (R440), has no outcome in the specification: the four bytes at it are fetched, those of one line at most, and what lies
beyond the line reads 0 (log 25). -/
def State.fetch (s : State) (k : Skein) (p : Split) : Fetched :=
  match s.ctx? k.ctx with
  | none => .park false
  | some c =>
    match s.translate c p.pc.toNat with
    | .unmapped => .park false
    | .malformed => .park true
    | .leaf l =>
      if !l.ex then .fault (dnr 4 1) s
      else if !c.mayRead l.set then .fault (dnr 4 2) s
      else s.fetchPa k l.pa

/-! ## Batches and limits that hold a split (R277, R278, R290) -/

/-- Every command of a class in batches up to the one `a` behind L is complete (R276, R277). -/
def Skein.batchDone (k : Skein) (cls : Nat) (n : BitVec 16) : Bool :=
  if cls = 0 then k.cmds.all fun c => decide (32768 ≤ (n - c.batch).toNat)
  else k.mq.all fun c => decide (32768 ≤ (n - c.batch).toNat)

/-- The last-closed batch of a class (R276). -/
def Skein.last (k : Skein) (cls : Nat) : BitVec 16 := if cls = 0 then k.lastW else k.lastM

/-- Commands outstanding in a core's Wringer (R278). -/
def State.wringerLoad (s : State) (core : Nat) : Nat :=
  (s.skeins.filter (·.coreId == core)).foldl (fun n k => n + k.cmds.length) 0

/-- CLOSE would leave an incomplete batch 32,767 or more behind the new L (R277). -/
def Skein.closeBlocked (k : Skein) (cls : Nat) : Bool :=
  let n := k.last cls + 1
  let far (b : BitVec 16) : Bool := decide (32767 ≤ (n - b).toNat)
  if cls = 0 then k.cmds.any fun c => far c.batch else k.mq.any fun c => far c.batch

/-- The cause for which a split is STALLED has been resolved (R137). -/
def State.resolved (s : State) (k : Skein) (p : Split) : StallOn → Bool
  | .line store ls => (if store then s.heldForStore ls else s.heldForLoad ls).isEmpty
  | .basket cl slot gen =>
    let b := (s.cluster cl).baskets.getD slot Basket.reset
    b.st != .opened || b.gen.toNat != gen || decide (b.ring.length < b.n)
  | .wringer => decide (s.wringerLoad k.coreId < 64) && decide (k.cmds.length < 32)
  | .mangle => decide (k.mq.length < 64)
  | .close cls => !k.closeBlocked cls
  | .buffer => decide ((s.cluster k.cluster).fbuf.length < 64)
  | .fetch line => !(s.core k.coreId).fills.any (·.line == line)
  | .pcie _ _ => !k.preqs.any fun r => r.uid == p.uid && r.word == p.pc && r.waits

/-- A running skein as a move finds it: STALLED splits whose cause is resolved are READY (R137), and what the host holds in
the lines that its requests read has been seen (R229, R244). -/
def State.wakeSkein (s : State) (k : Skein) : Skein :=
  let note (x : Nat × List (List Byte)) : Nat × List (List Byte) :=
    let now := cellsRead s.mem (x.1 * 64) 64
    if x.2.head? == some now then x else (x.1, now :: x.2)
  let k : Skein := { k with preqs := k.preqs.map fun (r : PReq) => if r.waits then { r with lines := r.lines.map note } else r }
  if k.stop.isSome then k
  else { k with splits := k.splits.map fun (p : Split) => match p.st with
    | .stalled on => if s.resolved k p on then p.wake else p
    | .ready | .held _ | .joinWait _ | .parked _ => p }

/-- The state that a move finds (R137, R244). -/
def State.wake (s : State) : State := { s with skeins := s.skeins.map s.wakeSkein }

/-! ## The choice at an issue port (R138, R157, R337, R373) -/

/-- A split that can issue: READY, or STALLED on a cause now resolved (R137). -/
def State.canIssue (s : State) (k : Skein) (p : Split) : Bool :=
  match p.st with
  | .ready => true
  | .stalled on => s.resolved k p on
  | .held _ | .joinWait _ | .parked _ => false

/-- A split READY at a YIELD has issued since, or has left READY (R157). -/
def State.leftOrIssued (s : State) (at0 : Nat) (x : Nat × Nat) : Bool :=
  match s.skein? x.1 with
  | none => true
  | some k => match k.split? x.2 with
    | none => true
    | some p => p.st != .ready || k.stop.isSome || decide (at0 < p.since)

/-- A yielding split may issue again (R157). -/
def State.yieldOver (s : State) (p : Split) : Bool :=
  match p.yielded with
  | none => true
  | some (others, till) => decide (till ≤ s.issueTicks) || others.all (s.leftOrIssued (till - 64))

/-- Of two splits, the one with the lower lowest member. -/
def Split.lower (best : Option Split) (p : Split) : Option Split :=
  match best with
  | none => some p
  | some q => if lowest p.members < lowest q.members then some p else some q

/-- The split of a skein that the step bit lets issue: the current one if READY, else the READY one with the lowest
member (R373). A STALLED split is none of them until its cause is resolved, which makes it READY (R137). -/
def State.stepChoice (s : State) (k : Skein) : Option Nat :=
  let ready := k.splits.filter (s.canIssue k)
  match k.cur with
  | some u => if ready.any (·.uid == u) then some u else (ready.foldl Split.lower none).map (·.uid)
  | none => (ready.foldl Split.lower none).map (·.uid)

/-- A split that may issue at a port, with the keys of R138 and R337. -/
structure Cand where
  port : Nat
  since : Nat
  slot : Nat
  low : Nat
  sid : Nat
  uid : Nat
  deriving DecidableEq, Repr, Inhabited

/-- The order of the choice: port, oldest, lower slot, lower lowest member (R138, R337). Oldest first is kept strictly. Where
more than 64 older splits of a port wake together it delays a younger READY one beyond the N + 64 issues of R138; the rule
states both, and which yields is the model's choice (log 2). -/
def Cand.before (a b : Cand) : Bool :=
  if a.port != b.port then decide (a.port < b.port)
  else if a.since != b.since then decide (a.since < b.since)
  else if a.slot != b.slot then decide (a.slot < b.slot)
  else decide (a.low < b.low)

/-- The earlier of two candidates. -/
def Cand.better (best : Option Cand) (c : Cand) : Option Cand :=
  match best with
  | none => some c
  | some b => if c.before b then some c else some b

/-- The candidates of a skein. -/
def State.candsOf (s : State) (k : Skein) : List Cand :=
  if k.stop.isSome then []
  else
    (k.splits.filter fun p => s.canIssue k p && s.yieldOver p &&
        (!k.swlo.getLsbD 1 || s.stepChoice k == some p.uid)).map fun p =>
      ⟨k.port, p.since, k.slotId, lowest p.members, k.id, p.uid⟩

/-- A port may still issue in this cycle. `turn` is twice the lowest port left, and one more when the other port of its core
has issued already (log 2). -/
def State.portLeft (s : State) (port : Nat) : Bool :=
  decide (s.turn / 2 ≤ port) && !(s.turn % 2 == 1 && port == s.turn / 2 + 1)

/-- The position in the cycle after a port has issued. -/
def State.turnAfter (s : State) (port : Nat) : Nat :=
  if port % 2 = 1 ∧ s.turn / 2 < port then 2 * (port - 1) + 1
  else if s.turn % 2 = 1 ∧ port = s.turn / 2 then 2 * (port + 2)
  else 2 * (port + 1)

/-- One candidate's skein has a lower number than the other's in the same block (R142). -/
def State.lowerInBlock (s : State) (b a : Cand) : Bool :=
  match s.skein? b.sid, s.skein? a.sid with
  | some x, some y => x.grid == y.grid && x.block == y.block && decide (x.num < y.num)
  | _, _ => false

/-- The next split to issue in this cycle. Splits at one address are never fused, as R139 allows, so one split of a skein
issues or traps at a time at a port (log 2). It is the one at the lowest port left, unless the other port of its core has a split of a lower
skein of the same block, which then comes first, as R142 decides between the first writes of one cycle (R138). -/
def State.nextCand (s : State) : Option Cand :=
  let cs := (s.skeins.flatMap s.candsOf).filter fun c => s.portLeft c.port
  match cs.foldl Cand.better none with
  | none => none
  | some a =>
    match (cs.filter fun b => a.port % 2 == 0 && b.port == a.port + 1).foldl Cand.better none with
    | none => some a
    | some b => if s.lowerInBlock b a then some b else some a

/-- The chosen split becomes the issuing one: READY again if it was STALLED, and current under the step bit. -/
def State.startIssue (s : State) (c : Cand) : State :=
  { s with
    turn := s.turnAfter c.port,
    free := s.free + 1,
    issuing := some (c.sid, c.uid),
    skeins := s.skeins.map fun k =>
      if k.id == c.sid then
        { k with cur := if k.swlo.getLsbD 1 then some c.uid else k.cur,
                 splits := k.splits.map fun p =>
                   if p.uid == c.uid then { p with st := .ready, hints := { p.hints with gpc := some (p.hints.gpc.getD p.pc) } }
                   else p }
      else k }

/-- A command fault waiting for the skein is delivered as a stop of the split with the lowest member, at the address at
which it will next issue (R275). -/
def State.deliverFault (s : State) (k : Skein) : Option State :=
  match k.faults, k.splits.foldl Split.lower none with
  | r :: rest, some p =>
    if k.stop.isSome then none
    else
      let k1 := { k with faults := rest }
      let pc := p.hints.gpc.getD p.pc
      some (s.takeStop k1 p.uid { r with pc := pc, word := pc, em := p.em, lfm := p.em } p.co none)
  | _, _ => none

/-- The first skein with a command fault to deliver. -/
def State.faultsDue (s : State) : Option State :=
  s.skeins.foldl (fun a k => match a with
    | some t => some t
    | none => s.deliverFault k) none

end Sys2Proof.Machine
end

