-- ==== Sys2Proof/Machine/Flags.lean ====
section
/-! DEFINITION. Results that are tests: predicates and the comparisons behind them (R23, R98, R99), and the status codes that
instructions return (R178, R218, R307, R319, R361). The machine has no flags register (R89). -/

namespace Sys2Proof.Machine

/-- A predicate at a width: all ones or all zeros (R23). -/
def predicate (bits : Nat) (b : Bool) : Nat := if b then 2 ^ bits - 1 else 0

/-- Bit 0 of a predicate slice (R23). -/
def Iss.bit0 (i : Iss) (l p : Nat) : Bool := (i.files.getD l 0).getLsbD (4 * p)

/-- How two floating values compare (R99). -/
inductive FOrder where
  | lt | eq | gt | unordered
  deriving DecidableEq, Repr, Inhabited

/-- The six comparisons (R98). -/
inductive Cmp where
  | eq | ne | lt | le | ltu | leu
  deriving DecidableEq, Repr, Inhabited

/-- The comparison compares unsigned integers (R98). -/
def Cmp.unsigned : Cmp → Bool
  | .ltu | .leu => true
  | .eq | .ne | .lt | .le => false

/-- A comparison of exact integers (R98). -/
def Cmp.int (c : Cmp) (a b : Int) : Bool :=
  match c with
  | .eq => a == b
  | .ne => a != b
  | .lt | .ltu => decide (a < b)
  | .le | .leu => decide (a ≤ b)

/-- A comparison of floating values: ordered, or unordered for the last two (R99). -/
def Cmp.float (c : Cmp) (o : FOrder) : Bool :=
  match c with
  | .eq => o == .eq
  | .ne => o != .eq
  | .lt => o == .lt
  | .le => o == .lt || o == .eq
  | .ltu => o == .lt || o == .unordered
  | .leu => o == .lt || o == .eq || o == .unordered

/-- SPAWN statuses (R173, R178). -/
def stPlaced : Nat := 0
def stNoBin : Nat := 1
def stNest : Nat := 2

/-- No stream slot is free (R218). -/
def stNoSlot : Nat := 0xF

/-- No run is free (R307). -/
def stNoRoom : Nat := 0xFFFFFFFF

/-- Basket statuses (R319). -/
def stOk : Nat := 0
def stEmpty : Nat := 1
def stGone : Nat := 2
def stReassign : Nat := 3
def stScope : Nat := 4
def stStale : Nat := 5

/-- UINT statuses (R361). -/
def stDelivered : Nat := 0
def stPosted : Nat := 1
def stBadHandle : Nat := 2
def stDenied : Nat := 3

/-- LAUNCH statuses (R176). -/
def lnAccepted : Nat := 0
def lnNest : Nat := 1
def lnDrain : Nat := 2
def lnLimit : Nat := 3
def lnRefused : Nat := 4

end Sys2Proof.Machine
end

