-- ==== Sys2Proof/Machine/Barrier.lean ====
section
/-! DEFINITION. Block barriers and their four instructions (R142, R144, R168 to R172). -/

namespace Sys2Proof.Machine

/-- The block of a skein. -/
def State.blockOf (s : State) (k : Skein) : Block := (s.block? k.grid k.block).getD { (default : Block) with grid := k.grid, num := k.block }

/-- The grid of a skein. -/
def State.gridOf (s : State) (k : Skein) : Grid := (s.grid? k.grid).getD { (default : Grid) with id := k.grid }

/-- The context of a skein. -/
def State.ctxOf (s : State) (k : Skein) : Context := (s.ctx? k.ctx).getD { (default : Context) with id := k.ctx }

/-- One split of a skein changed. -/
def Skein.modSplit (k : Skein) (uid : Nat) (f : Split → Split) : Skein :=
  { k with splits := k.splits.map fun p => if p.uid == uid then f p else p }

/-- Some stores of the skein are released: they are performed, and one that an engine holds is waited for (R233, R242,
R247). -/
def Iss.releaseIf (i : Iss) (f : PStore → Bool) (bk : Bool) : Res Iss :=
  let t := i.s.release i.k.id f bk
  match t.skein? i.k.id with
  | none => .ok i
  | some k =>
    let rest := k.stores.filter f
    if rest.isEmpty then .ok { i with s := t, k := k }
    else .error (.stall (.line true (rest.flatMap PStore.locs)))

/-- The split's prior accesses are released. -/
def Iss.release (i : Iss) (bk : Bool) : Res Iss := i.releaseIf (·.owners.contains i.p.uid) bk

/-- A block register at the start of a k epoch (R142, R144). -/
def KReg.epoch (r : KReg) : KReg := ⟨[r.vals.getLastD 0], r.set, none, 0, []⟩

/-- What a skein reads from a block register, the register afterwards, and whether a free choice was made (R144). -/
def KReg.read (r : KReg) (num free : Nat) : BitVec 32 × KReg × Bool :=
  let last := r.vals.length - 1
  let lo := (r.seen.find? (·.1 == num)).elim 0 (·.2)
  if r.writer == some num || decide (last ≤ lo) then (r.vals.getLastD 0, r, false)
  else
    let n := lo + (Config.freeWord free).toNat % (last + 1 - lo)
    (r.vals.getD n 0, { r with seen := (num, n) :: r.seen.filter (·.1 != num) }, true)

/-- A skein's part of a barrier. -/
def Bar.partOf (x : Bar) (num : Nat) : BarPart := x.parts.getD num ⟨false, false, false, 0⟩

/-- complete(b) (R169). -/
def Bar.complete (x : Bar) : Bar :=
  { x with phase := x.phase + 1, a := 0, e := x.e', parts := x.parts.map fun q => { q with arrived := false } }

/-- skein_arrives(b, K), and whether the phase completed (R169). -/
def Bar.skeinArrives (x : Bar) (num : Nat) : Bar × Bool :=
  let q := x.partOf num
  let y := { x with
    a := x.a + 1,
    e' := if q.drop then x.e' - 1 else x.e',
    parts := x.parts.set num ⟨q.participant && !q.drop, true, false, 0⟩ }
  if y.a = y.e then (y.complete, true) else (y, false)

/-- A skein that has arrived and exits stops participating (R170). -/
def Bar.leave (x : Bar) (num : Nat) : Bar :=
  { x with e' := x.e' - 1, parts := x.parts.set num { x.partOf num with participant := false, drop := false, lanes := 0 } }

/-- The split waits for barrier n and its wait is over (R169, R171). -/
def barOver (n : Nat) (done : Bool) (phase : BitVec 16) : SplitSt → Bool
  | .held (.bar m) => m == n && done
  | .held (.barwait m toks) => m == n && !toks.contains phase.toNat
  | _ => false

/-- The splits of a skein whose wait at a barrier is over become READY, each with an acquire at BK scope (R169). -/
def State.wakeBar (s : State) (n : Nat) (done : Bool) (phase : BitVec 16) (sid : Nat) : State :=
  match s.skein? sid with
  | none => s
  | some k =>
    let ends (p : Split) : Bool := barOver n done phase p.st
    if k.splits.any ends then
      (s.setSkein { k with splits := k.splits.map fun p => if ends p then { p with st := .ready } else p }).acquire sid 1
    else s

/-- A barrier of a block takes a new value; a phase that completed starts a k epoch and wakes the block's splits. -/
def State.putBar (s : State) (b : Block) (n : Nat) (x : Bar × Bool) : State :=
  let b1 := { b with bars := b.bars.set n x.1 }
  if x.2 then
    b.slots.foldl (fun t slot => t.wakeBar n true x.1.phase (b.core * 128 + slot))
      (s.setBlock { b1 with ks := b1.ks.map KReg.epoch })
  else s.setBlock b1

/-- arrive(b, S, drop) once its checks have passed (R169). -/
def State.arrive (s : State) (k : Skein) (n : Nat) (lanes : Mask) (drop : Bool) : State :=
  let b := s.blockOf k
  let x := b.bars.getD n default
  let q := x.partOf k.num
  let q1 := { q with lanes := q.lanes ||| lanes, drop := q.drop || drop }
  let x1 := { x with parts := x.parts.set k.num q1 }
  s.putBar b n (if q1.lanes == k.living then x1.skeinArrives k.num else (x1, false))

/-- The lanes for which an arrival is an over-arrival (R169). -/
def State.overArrives (s : State) (k : Skein) (n : Nat) (lanes : Mask) : Mask :=
  let q := ((s.blockOf k).bars.getD n default).partOf k.num
  if !q.participant || q.arrived then lanes else q.lanes &&& lanes

/-- The exit of lanes, which leaves the skein as given, makes an arrival at a barrier of its block (R170, R172). -/
def State.exitArrives (s : State) (k : Skein) : Bool :=
  (s.blockOf k).bars.any fun x =>
    let q := x.partOf k.num
    q.participant && (if k.splits.isEmpty then !q.arrived else q.lanes != 0 && (k.living &&& ~~~q.lanes) == 0)

/-- One barrier after lanes of a skein have exited (R170). -/
def State.exitBar (s : State) (k : Skein) (n : Nat) : State :=
  let b := s.blockOf k
  let x := b.bars.getD n default
  let q := x.partOf k.num
  if !q.participant then s
  else if k.splits.isEmpty then
    if q.arrived then s.putBar b n (x.leave k.num, false)
    else s.putBar b n ({ x with parts := x.parts.set k.num { q with drop := true } }.skeinArrives k.num)
  else if q.lanes != 0 && (k.living &&& ~~~q.lanes) == 0 then s.putBar b n (x.skeinArrives k.num)
  else s

/-- Every barrier of the block after lanes of a skein have exited (R170). -/
def State.exitBars (s : State) (k : Skein) : State := (List.range 16).foldl (fun t n => t.exitBar k n) s

/-- The arrival of an issue: its trap, its release, and the arrival of all members (R169). -/
def Iss.arrive (i : Iss) (n : Nat) (drop : Bool) : Res State := do
  let bad := i.s.overArrives i.k n i.p.members
  i.need (bad == 0) (dnr 10 n) bad
  let i ← i.release true
  .ok (i.s.arrive i.k n i.p.members drop)

/-- BAR (R171). -/
def execBar (b : BitVec 4) (s : State) : Host.Outcome State Fault Refusal :=
  issue (.bar b) s fun i =>
    let k := i.k.modSplit i.p.uid fun p => { p with st := .held (.bar b.toNat) }
    Iss.arrive { i with k := k, s := i.put k } b.toNat false

/-- BARARR: the token is the phase at the arrival (R171). -/
def execBararr (b : BitVec 4) (y : BitVec 8) (la : BitVec 4) (s : State) : Host.Outcome State Fault Refusal :=
  issue (.bararr b y la) s fun i => do
    let i ← i.operands [opdOut y.toNat 4]
    let ph := ((i.s.blockOf i.k).bars.getD b.toNat default).phase
    let k := if i.p.em == 0 then i.k else i.wrLate (i.h.look la) y.toNat 4 (fun _ => ph.toNat) i.p.co []
    Iss.arrive { i with k := k, s := i.put k } b.toNat false

/-- BARWAIT: HELD while the phase equals the token of some active lane (R171). With no active lane it waits for nothing, and
continuing at once is not the leaving that acquires (R153, R172, log 24). -/
def execBarwait (b : BitVec 4) (y : BitVec 8) (s : State) : Host.Outcome State Fault Refusal :=
  issue (.barwait b y) s fun i => do
    let i ← i.operands [opdIn y.toNat 4 i.p.em]
    let toks := i.active.map fun l => i.raw l y.toNat 4
    let ph := ((i.s.blockOf i.k).bars.getD b.toNat default).phase
    if toks.contains ph.toNat then
      .ok (i.put (i.k.modSplit i.p.uid fun p => { p with st := .held (.barwait b.toNat toks) }))
    else if toks.isEmpty then .ok i.s
    else .ok (i.s.acquire i.k.id 1)

/-- BARDROP (R171). -/
def execBardrop (b : BitVec 4) (s : State) : Host.Outcome State Fault Refusal :=
  issue (.bardrop b) s fun i => i.arrive b.toNat true

end Sys2Proof.Machine
end

