-- ==== Sys2Proof/Machine/Float.lean ====
section
/-! DEFINITION. The floating formats, exact arithmetic on their values, and rounding (R89, R99, R103 to R111, R258, R270,
R271). A value is exact until it is rounded once. -/

namespace Sys2Proof.Machine

/-- A floating format: exponent and fraction bits, whether it has infinities, its canonical NaN (R258). -/
structure Fmt where
  eb : Nat
  mb : Nat
  hasInf : Bool
  nan : Nat
  deriving DecidableEq, Repr, Inhabited

def fmtF16 : Fmt := ⟨5, 10, true, 0x7E00⟩
def fmtB16 : Fmt := ⟨8, 7, true, 0x7FC0⟩
def fmtF32 : Fmt := ⟨8, 23, true, 0x7FC00000⟩
def fmtE4M3 : Fmt := ⟨4, 3, false, 0x7F⟩
def fmtE5M2 : Fmt := ⟨5, 2, true, 0x7E⟩

/-- The format of a floating width code (R16). -/
def fmtOf (w : Width) : Fmt :=
  match w with
  | .f16 => fmtF16
  | .b16 => fmtB16
  | .f32 | .i4 | .i8 | .i16 | .i32 | .i64 => fmtF32

def Fmt.bias (f : Fmt) : Nat := 2 ^ (f.eb - 1) - 1
/-- Exponent of the least significant bit of a subnormal. -/
def Fmt.low (f : Fmt) : Int := 1 - (f.bias : Int) - f.mb
def Fmt.signBit (f : Fmt) : Nat := 2 ^ (f.eb + f.mb)
def Fmt.inf (f : Fmt) : Nat := (2 ^ f.eb - 1) * 2 ^ f.mb
/-- The largest finite magnitude (R258). -/
def Fmt.maxBits (f : Fmt) : Nat := if f.hasInf then f.inf - 1 else 2 ^ (f.eb + f.mb) - 2

/-- A value: NaN, an infinity, or (−1)^neg · m · 2^e. -/
inductive Fl where
  | nan
  | inf (neg : Bool)
  | fin (neg : Bool) (m : Nat) (e : Int)
  deriving DecidableEq, Repr, Inhabited

/-- The value of a bit pattern (R258). -/
def Fmt.value (f : Fmt) (bits : Nat) : Fl :=
  let neg := bitsOf bits (f.eb + f.mb) 1 == 1
  let ex := bitsOf bits f.mb f.eb
  let fr := bitsOf bits 0 f.mb
  if f.hasInf && ex == 2 ^ f.eb - 1 then (if fr == 0 then .inf neg else .nan)
  else if !f.hasInf && bitsOf bits 0 (f.eb + f.mb) == 2 ^ (f.eb + f.mb) - 1 then .nan
  else if ex == 0 then .fin neg fr f.low
  else .fin neg (2 ^ f.mb + fr) (f.low + ((ex - 1 : Nat) : Int))

/-- Rounding modes (R108). -/
inductive Rnd where
  | rne | rz | rm | rp
  deriving DecidableEq, Repr, Inhabited

/-- The mode of a two-bit rounding field (R82). -/
def Rnd.of (n : Nat) : Rnd := match n with | 0 => .rne | 1 => .rz | 2 => .rm | _ => .rp

/-- m / 2^s to an integer in a mode, for a value of the given sign. -/
def roundShift (r : Rnd) (neg : Bool) (m s : Nat) : Nat :=
  let q := m / 2 ^ s
  let rem := m % 2 ^ s
  if rem = 0 then q
  else match r with
    | .rz => q
    | .rm => if neg then q + 1 else q
    | .rp => if neg then q else q + 1
    | .rne =>
      let half := 2 ^ s / 2
      if half < rem || (rem == half && q % 2 == 1) then q + 1 else q

/-- The magnitude pattern nearest to m · 2^e with the format's fraction and an unbounded exponent (R110, R111). -/
def Fmt.magnitude (f : Fmt) (r : Rnd) (neg : Bool) (m : Nat) (e : Int) : Nat :=
  if m = 0 then 0
  else
    let top : Int := (m.log2 : Int) + e
    let emin : Int := 1 - (f.bias : Int)
    let q : Int := max top emin - f.mb
    let n := if q ≤ e then m * 2 ^ (e - q).toNat else roundShift r neg m (q - e).toNat
    if top < emin then n else (top - emin).toNat * 2 ^ f.mb + n

/-- A sign placed on a magnitude. -/
def Fmt.withSign (f : Fmt) (neg : Bool) (n : Nat) : Nat := if neg then n + f.signBit else n

/-- What a mode gives beyond the largest finite value (R111). -/
def Fmt.overflow (f : Fmt) (r : Rnd) (neg : Bool) : Nat :=
  match r with
  | .rne => f.inf
  | .rz => f.maxBits
  | .rm => if neg then f.inf else f.maxBits
  | .rp => if neg then f.maxBits else f.inf

/-- One rounding of a value to an IEEE format (R89, R111). -/
def Fmt.round (f : Fmt) (r : Rnd) (x : Fl) : Nat :=
  match x with
  | .nan => f.nan
  | .inf neg => f.withSign neg f.inf
  | .fin neg m e =>
    let n := f.magnitude r neg m e
    f.withSign neg (if f.maxBits < n then f.overflow r neg else n)

/-- One rounding to an FP8 format, saturating or not (R110). -/
def Fmt.roundFp8 (f : Fmt) (sat : Bool) (x : Fl) : Nat :=
  let past := if sat then f.maxBits else if f.hasInf then f.inf else f.nan
  match x with
  | .nan => f.nan
  | .inf neg => f.withSign neg past
  | .fin neg m e =>
    let n := f.magnitude .rne neg m e
    f.withSign neg (if f.maxBits < n then past else n)

/-! ## Exact arithmetic -/

def Fl.neg : Fl → Fl
  | .nan => .nan
  | .inf n => .inf !n
  | .fin n m e => .fin (!n) m e

def Fl.isNeg : Fl → Bool
  | .nan => false
  | .inf n => n
  | .fin n _ _ => n

/-- The exponent to which exact terms are aligned. -/
def Fl.exp : Fl → Int
  | .fin _ _ e => e
  | .nan | .inf _ => 0

/-- A finite term as an integer multiple of 2^e0. -/
def Fl.scaled (e0 : Int) : Fl → Int
  | .fin n m e => let v : Int := (m * 2 ^ (e - e0).toNat : Nat); if n then -v else v
  | .nan | .inf _ => 0

/-- A product, exact (R91). -/
def Fl.mul (a b : Fl) : Fl :=
  match a, b with
  | .nan, _ | _, .nan => .nan
  | .inf n, .inf k => .inf (n != k)
  | .inf n, .fin k m _ => if m = 0 then .nan else .inf (n != k)
  | .fin k m _, .inf n => if m = 0 then .nan else .inf (n != k)
  | .fin n m e, .fin k p g => .fin (n != k) (m * p) (e + g)

/-- A sum, exact: NaN and infinities as IEEE 754, and an exact zero is −0 only when every term is (R89). -/
def Fl.sum (xs : List Fl) : Fl :=
  if xs.any (· == .nan) || (xs.any (· == .inf true) && xs.any (· == .inf false)) then .nan
  else if xs.any (· == .inf true) then .inf true
  else if xs.any (· == .inf false) then .inf false
  else
    let e0 := (xs.map Fl.exp).foldl min ((xs.map Fl.exp).headD 0)
    let v := (xs.map (Fl.scaled e0)).foldl (· + ·) 0
    if v = 0 then .fin (xs.all Fl.isNeg) 0 e0 else .fin (decide (v < 0)) v.natAbs e0

def Fl.add (a b : Fl) : Fl := Fl.sum [a, b]

/-- How two values compare (R99). -/
def Fl.order (a b : Fl) : FOrder :=
  match a, b with
  | .nan, _ | _, .nan => .unordered
  | .inf n, .inf k => if n == k then .eq else if n then .lt else .gt
  | .inf n, .fin _ _ _ => if n then .lt else .gt
  | .fin _ _ _, .inf n => if n then .gt else .lt
  | .fin _ _ e, .fin _ _ g =>
    let x := a.scaled (min e g)
    let y := b.scaled (min e g)
    if x < y then .lt else if x = y then .eq else .gt

/-- minimumNumber, with −0 below +0 (R93). -/
def Fl.minNum (a b : Fl) : Fl :=
  match a, b with
  | .nan, y => y
  | x, .nan => x
  | x, y => match x.order y with
    | .lt => x
    | .gt => y
    | .eq | .unordered => if x.isNeg then x else y

/-- maximumNumber, with −0 below +0 (R93). -/
def Fl.maxNum (a b : Fl) : Fl :=
  match a, b with
  | .nan, y => y
  | x, .nan => x
  | x, y => match x.order y with
    | .lt => y
    | .gt => x
    | .eq | .unordered => if x.isNeg then y else x

/-- An exact integer as a value (R111). -/
def Fl.ofInt (v : Int) : Fl := .fin (decide (v < 0)) v.natAbs 0

/-- A finite magnitude to an integer in a mode (R107, R111). -/
def roundInt (r : Rnd) (neg : Bool) (m : Nat) (e : Int) : Nat :=
  if 0 ≤ e then m * 2 ^ e.toNat else roundShift r neg m (-e).toNat

/-- A value to an integral value of the same sign (R107). -/
def Fl.integral (r : Rnd) (x : Fl) : Fl :=
  match x with
  | .nan => .nan
  | .inf n => .inf n
  | .fin n m e => .fin n (roundInt r n m e) 0

/-- A value to an integer clamped to a range; NaN gives 0 (R111). -/
def Fl.toIntClamp (r : Rnd) (lo hi : Int) (x : Fl) : Int :=
  match x with
  | .nan => 0
  | .inf n => if n then lo else hi
  | .fin n m e => let v : Int := roundInt r n m e; max lo (min hi (if n then -v else v))

/-- The class mask of a pattern (R104). -/
def Fmt.classMask (f : Fmt) (bits : Nat) : Nat :=
  let sub := bitsOf bits f.mb f.eb == 0
  match f.value bits with
  | .nan => if bitsOf bits (f.mb - 1) 1 == 1 then 2 else 1
  | .inf n => if n then 4 else 512
  | .fin n m _ =>
    if m = 0 then (if n then 32 else 64)
    else if sub then (if n then 16 else 128)
    else if n then 8 else 256

/-! ## The correctly rounded functions (R106): exact cases apart, a fixed-point value beyond every rounding position with a
bit for the rest (log 8) -/

/-- Integer square root, bit by bit from a given bit down. -/
def isqrtFrom (x : Nat) : Nat → Nat → Nat
  | 0, r => r
  | n + 1, r => if (r + 2 ^ n) * (r + 2 ^ n) ≤ x then isqrtFrom x n (r + 2 ^ n) else isqrtFrom x n r

/-- Integer square root. -/
def isqrt (x : Nat) : Nat := isqrtFrom x (x.log2 / 2 + 1) 0

/-- A magnitude with one more bit that says whether something is left below it. -/
def sticky (neg : Bool) (m : Nat) (left : Bool) (e : Int) : Fl := .fin neg (2 * m + left.toNat) (e - 1)

def Fl.sqrt (x : Fl) : Fl :=
  match x with
  | .nan => .nan
  | .inf n => if n then .nan else .inf false
  | .fin n m e =>
    if m = 0 then .fin n 0 e
    else if n then .nan
    else
      let par := (e % 2).toNat
      let v := m * 2 ^ (par + 200)
      sticky false (isqrt v) (decide (isqrt v * isqrt v ≠ v)) ((e - par) / 2 - 100)

def Fl.rcp (x : Fl) : Fl :=
  match x with
  | .nan => .nan
  | .inf n => .fin n 0 0
  | .fin n m e =>
    if m = 0 then .inf n
    else
      let k := m.log2 + 100
      sticky n (2 ^ k / m) (decide (2 ^ k % m ≠ 0)) (-(k : Int) - e)

def Fl.rsq (x : Fl) : Fl :=
  match x with
  | .nan => .nan
  | .inf n => if n then .nan else .fin false 0 0
  | .fin n m e =>
    if m = 0 then .inf n
    else if n then .nan
    else
      let par := (e % 2).toNat
      let v := m * 2 ^ par
      let k := v.log2 + 100
      let r := isqrt (2 ^ (2 * k) / v)
      sticky false r (decide (r * r * v ≠ 2 ^ (2 * k))) (-(k : Int) - (e - par) / 2)

/-- Bits of the fixed-point values. -/
def fxP : Nat := 448
def fxOne : Nat := 2 ^ fxP

/-- Σ x^(2k+1) / (2k+1) with x = 1/d, alternating for the arctangent. -/
def atanRec (alt : Bool) (d2 : Nat) : Nat → Nat → Nat → Int → Int
  | 0, _, _, acc => acc
  | n + 1, k, p, acc =>
    let t : Int := (p / (2 * k + 1) : Nat)
    atanRec alt d2 n (k + 1) (p / d2) (if alt && k % 2 == 1 then acc - t else acc + t)

/-- π by Machin's formula, fixed-point. -/
def fxPi : Nat := (16 * atanRec true 25 200 0 (fxOne / 5) 0 - 4 * atanRec true 57121 60 0 (fxOne / 239) 0).toNat

/-- ln 2 = 2 artanh(1/3), fixed-point. -/
def fxLn2 : Nat := (2 * atanRec false 9 150 0 (fxOne / 3) 0).toNat

/-- Σ x^k / k!, fixed-point. -/
def expSeries (x : Nat) : Nat → Nat → Nat → Nat → Nat
  | 0, _, _, acc => acc
  | n + 1, k, t, acc => expSeries x n (k + 1) (t * x / fxOne / (k + 1)) (acc + t)

/-- 2^f for a fixed-point f in [0, 1). -/
def fxExp2 (f : Nat) : Nat := expSeries (f * fxLn2 / fxOne) 110 0 fxOne 0

/-- ln y = 2 artanh((y−1)/(y+1)) for a fixed-point y in [1, 2). -/
def lnSeries (z2 : Nat) : Nat → Nat → Nat → Nat → Nat
  | 0, _, _, acc => acc
  | n + 1, k, p, acc => lnSeries z2 n (k + 1) (p * z2 / fxOne) (acc + p / (2 * k + 1))

/-- log₂ y for a fixed-point y in [1, 2). -/
def fxLog2 (y : Nat) : Nat :=
  let z := (y - fxOne) * fxOne / (y + fxOne)
  2 * lnSeries (z * z / fxOne) 160 0 z 0 * fxOne / fxLn2

/-- Σ (−1)^k x^(2k+1) / (2k+1)!, fixed-point. -/
def sinSeries (x2 : Nat) : Nat → Nat → Nat → Int → Int
  | 0, _, _, acc => acc
  | n + 1, k, t, acc =>
    sinSeries x2 n (k + 1) (t * x2 / fxOne / ((2 * k + 2) * (2 * k + 3))) (if k % 2 == 1 then acc - t else acc + t)

/-- sin(π·x) for a fixed-point x in [0, 1/2]. -/
def fxSinPi (x : Nat) : Nat :=
  let t := x * fxPi / fxOne
  (sinSeries (t * t / fxOne) 60 0 t 0).toNat

def Fl.exp2 (x : Fl) : Fl :=
  match x with
  | .nan => .nan
  | .inf n => if n then .fin false 0 0 else .inf false
  | .fin n m e =>
    if m = 0 then .fin false 1 0
    else if 10 ≤ (m.log2 : Int) + e then (if n then .fin false 1 (-1000) else .inf false)
    else
      -- |x| < 2^10: the exact value times 2^fxP, as an integer
      let v : Int := if 0 ≤ e + fxP then (m * 2 ^ (e + fxP).toNat : Nat) else 0
      let v := if n then -v else v
      let whole := v / (fxOne : Int)
      let frac := (v % (fxOne : Int)).toNat
      if frac = 0 then .fin false 1 whole else sticky false (fxExp2 frac) true (whole - fxP)

def Fl.log2 (x : Fl) : Fl :=
  match x with
  | .nan => .nan
  | .inf n => if n then .nan else .inf false
  | .fin n m e =>
    if m = 0 then .inf true
    else if n then .nan
    else
      let whole : Int := (m.log2 : Int) + e
      if m = 2 ^ m.log2 then Fl.ofInt whole
      else
        let v : Int := whole * fxOne + fxLog2 (m * fxOne / 2 ^ m.log2)
        sticky (decide (v < 0)) v.natAbs true (-(fxP : Int))

/-- sin(π·(|x| + h/2)) with the sign of x where h is 0; h is 1 for the cosine. -/
def sinPi (n : Bool) (m : Nat) (e : Int) (h : Nat) : Fl :=
  -- |x| modulo 2, exact: every format's least exponent is above −fxP
  let r := if 1 ≤ e then 0 else (m * 2 ^ (e + fxP).toNat) % (2 * fxOne)
  let r := (r + h * (fxOne / 2)) % (2 * fxOne)
  let flip := decide (fxOne ≤ r)
  let r := if flip then r - fxOne else r
  let r := if fxOne / 2 < r then fxOne - r else r
  let neg := n != flip
  if r = 0 then .fin n 0 0
  else if r = fxOne / 2 then .fin neg 1 0
  else sticky neg (fxSinPi r) true (-(fxP : Int))

def Fl.sin (x : Fl) : Fl :=
  match x with
  | .nan => .nan
  | .inf _ => .nan
  | .fin n m e => sinPi n m e 0

def Fl.cos (x : Fl) : Fl :=
  match x with
  | .nan => .nan
  | .inf _ => .nan
  | .fin _ m e => sinPi false m e 1

/-! ## Output rounding at MDRAIN (R270, R271) -/

/-- The threshold matrix (R271). -/
def ditherT : List Nat :=
  [0, 32, 8, 40, 2, 34, 10, 42, 48, 16, 56, 24, 50, 18, 58, 26, 12, 44, 4, 36, 14, 46, 6, 38, 60, 28, 52, 20, 62, 30, 54,
   22] ++
  [3, 35, 11, 43, 1, 33, 9, 41, 51, 19, 59, 27, 49, 17, 57, 25, 15, 47, 7, 39, 13, 45, 5, 37, 63, 31, 55, 23, 61, 29, 53,
   21]

/-- The top six of the discarded bits of m · 2^e under a format's fraction (R271). -/
def Fmt.discarded6 (f : Fmt) (m : Nat) (e : Int) : Nat :=
  let top : Int := (m.log2 : Int) + e
  let q : Int := max top (1 - (f.bias : Int)) - f.mb
  if q ≤ e then 0 else (m % 2 ^ (q - e).toNat) * 64 / 2 ^ (q - e).toNat

/-- DITHER of a finite value at a position of the tile (R271). `rne` is what RNE gives. -/
def Fmt.dither (f : Fmt) (rne : Nat) (row col phase : Nat) (neg : Bool) (m : Nat) (e : Int) : Nat :=
  let lo := f.magnitude .rz neg m e
  if f.magnitude .rp false m e = lo || decide (f.maxBits ≤ lo) then rne
  else
    let t := (ditherT.getD (row % 8 * 8 + col % 8) 0 + phase) % 64
    f.withSign neg (if 64 ≤ f.discarded6 m e + t then lo + 1 else lo)

/-- One accumulator element drained under the output format, rounding and saturation of fr (R270, R271). -/
def drainElement (ofmt rnd sat row col phase bits : Nat) : Nat :=
  if ofmt = 0 then bits
  else
    let x := fmtF32.value bits
    let f := match ofmt with | 1 => fmtF16 | 2 => fmtB16 | 3 => fmtE4M3 | _ => fmtE5M2
    let wide := decide (ofmt ≤ 2)
    let rne := if wide then f.round .rne x else f.roundFp8 (sat == 1) x
    match x with
    | .nan | .inf _ => rne
    | .fin neg m e =>
      if rnd = 0 then rne
      else if rnd = 1 then
        if wide then f.round .rz x
        else f.withSign neg (min f.maxBits (f.magnitude .rz neg m e))
      else f.dither rne row col phase neg m e

end Sys2Proof.Machine
end

