-- ==== Sys2Proof/Machine/Lane.lean ====
section
/-! DEFINITION. The lane instructions (R88 to R111): one frame, and what each computes. -/

namespace Sys2Proof.Machine

/-- The widths of d, a and b (R20, R78). -/
structure Widths where
  d : Width
  a : Width
  b : Width
  deriving DecidableEq, Repr, Inhabited

/-- The widths of a word under its hints. -/
def Hints.widths (h : Hints) (w : Width) : Widths := ⟨h.wd w, h.wa w, h.wb w⟩

/-- The lanes from which the active lanes take an operand (R76, R77). -/
def routed (em : Mask) (src : Nat → Nat) : Mask := (lanesOf em).foldl (fun m l => m ||| (1#32 <<< src l)) 0#32

/-- The frame of a lane instruction (R88). `c` computes the result from d, a and b as read; `useD` and `useB` say whether d
and b are read. -/
def laneOp (i : Instr) (ws : Hints → Widths) (d a b : Nat) (useD useB : Bool) (s : State)
    (c : Hints → Widths → Nat → Nat → Nat → Nat) : Host.Outcome State Fault Refusal :=
  issue i s fun x => do
    let v := ws x.h
    let em := x.p.em
    let x ← x.operands
      ([opdIn a v.a.slices (routed em x.h.srcA)] ++
       (if useB then [opdIn b v.b.slices (routed em x.h.srcB)] else []) ++
       (if useD then [opdIn d v.d.slices em] else []) ++ [opdOut d v.d.slices])
    .ok (x.put (x.wr d v.d.slices
      (fun l => c x.h v (x.raw l d v.d.slices) (x.raw (x.h.srcA l) a v.a.slices) (x.raw (x.h.srcB l) b v.b.slices)) x.rset))

/-- Format T (R59). -/
def laneT (i : Instr) (w : Width) (d a : BitVec 8) (b : BitVec 7) (useD : Bool) (s : State)
    (c : Widths → Nat → Nat → Nat → Nat) : Host.Outcome State Fault Refusal :=
  laneOp i (·.widths w) d.toNat a.toNat b.toNat useD true s fun _ => c

/-- Format I: the immediate stands in the place of b (R61, R102). -/
def laneI (i : Instr) (w : Width) (d a : BitVec 8) (imm : BitVec 7) (sgn : Bool) (s : State)
    (c : Widths → Nat → Int → Nat) : Host.Outcome State Fault Refusal :=
  laneOp i (·.widths w) d.toNat a.toNat 0 false false s fun h v _ x _ => c v x (h.imm imm sgn)

/-- Format U with given widths of d and a (R62, R81). -/
def laneU (i : Instr) (wd wa : Width) (d a : BitVec 8) (s : State) (c : Nat → Nat) : Host.Outcome State Fault Refusal :=
  laneOp i (fun _ => ⟨wd, wa, wa⟩) d.toNat a.toNat 0 false false s fun _ _ _ x _ => c x

/-- A source sign-extended from its width (R19). -/
def sx (w : Width) (x : Nat) : Int := signed w.bits x

/-- A floating source (R20). -/
def fl (w : Width) (x : Nat) : Fl := (fmtOf w).value x

/-- A floating result rounded once to d (R89). -/
def toFl (w : Width) (x : Fl) : Nat := (fmtOf w).round .rne x

/-- A result clamped to a range (R94). -/
def clamp (lo hi x : Int) : Int := max lo (min hi x)

/-- Signed and unsigned saturation at a width (R94). -/
def satS (w : Width) (x : Int) : Nat := wrap w.bits (clamp (-(2 ^ (w.bits - 1) : Nat)) ((2 ^ (w.bits - 1) : Nat) - 1) x)
def satU (w : Width) (x : Int) : Nat := wrap w.bits (clamp 0 ((2 ^ w.bits : Nat) - 1) x)

def addC (v : Widths) (_ a b : Nat) : Nat :=
  if v.d.isFloat then toFl v.d ((fl v.a a).add (fl v.b b)) else wrap v.d.bits (sx v.a a + sx v.b b)
def subC (v : Widths) (_ a b : Nat) : Nat :=
  if v.d.isFloat then toFl v.d ((fl v.a a).add (fl v.b b).neg) else wrap v.d.bits (sx v.a a - sx v.b b)
def mulC (v : Widths) (_ a b : Nat) : Nat :=
  if v.d.isFloat then toFl v.d ((fl v.a a).mul (fl v.b b)) else wrap v.d.bits (sx v.a a * sx v.b b)
def madC (v : Widths) (d a b : Nat) : Nat :=
  if v.d.isFloat then toFl v.d (((fl v.a a).mul (fl v.b b)).add (fl v.d d))
  else wrap v.d.bits (sx v.a a * sx v.b b + sx v.d d)
def mulhC (v : Widths) (_ a b : Nat) : Nat := wrap v.d.bits (sx v.a a * sx v.b b / ((2 ^ v.d.bits : Nat) : Int))
def mulhuC (v : Widths) (_ a b : Nat) : Nat := a * b / 2 ^ v.d.bits % 2 ^ v.d.bits
def minC (v : Widths) (_ a b : Nat) : Nat :=
  if v.d.isFloat then toFl v.d ((fl v.a a).minNum (fl v.b b)) else wrap v.d.bits (min (sx v.a a) (sx v.b b))
def maxC (v : Widths) (_ a b : Nat) : Nat :=
  if v.d.isFloat then toFl v.d ((fl v.a a).maxNum (fl v.b b)) else wrap v.d.bits (max (sx v.a a) (sx v.b b))
def minuC (v : Widths) (_ a b : Nat) : Nat := min a b % 2 ^ v.d.bits
def maxuC (v : Widths) (_ a b : Nat) : Nat := max a b % 2 ^ v.d.bits
def addsC (v : Widths) (_ a b : Nat) : Nat := satS v.d (sx v.a a + sx v.b b)
def subsC (v : Widths) (_ a b : Nat) : Nat := satS v.d (sx v.a a - sx v.b b)
def addusC (v : Widths) (_ a b : Nat) : Nat := satU v.d ((a : Int) + b)
def subusC (v : Widths) (_ a b : Nat) : Nat := satU v.d ((a : Int) - b)
def andC (v : Widths) (_ a b : Nat) : Nat := (a &&& b) % 2 ^ v.d.bits
def orC (v : Widths) (_ a b : Nat) : Nat := (a ||| b) % 2 ^ v.d.bits
def xorC (v : Widths) (_ a b : Nat) : Nat := (a ^^^ b) % 2 ^ v.d.bits
def andnC (v : Widths) (_ a b : Nat) : Nat := (a &&& (2 ^ 64 - 1 - b)) % 2 ^ v.d.bits

/-- Left, right, arithmetic right shift and left rotation of the low bits of a source by n (R96). -/
def shlBy (w : Width) (a n : Nat) : Nat := a * 2 ^ n % 2 ^ w.bits
def shrBy (w : Width) (a n : Nat) : Nat := a % 2 ^ w.bits / 2 ^ n
def sarBy (wd wa : Width) (a n : Nat) : Nat := wrap wd.bits (signed wd.bits (wrap wd.bits (sx wa a)) / ((2 ^ n : Nat) : Int))
def rotBy (w : Width) (a n : Nat) : Nat :=
  let x := a % 2 ^ w.bits
  (x * 2 ^ n + x / 2 ^ (w.bits - n)) % 2 ^ w.bits
def shlC (v : Widths) (_ a b : Nat) : Nat := shlBy v.d a (b % v.d.bits)
def shrC (v : Widths) (_ a b : Nat) : Nat := shrBy v.d a (b % v.d.bits)
def sarC (v : Widths) (_ a b : Nat) : Nat := sarBy v.d v.a a (b % v.d.bits)
def rotC (v : Widths) (_ a b : Nat) : Nat := rotBy v.d a (b % v.d.bits)

/-- BFX: the control value gives position, length and sign flag (R97). -/
def bfxC (v : Widths) (_ a b : Nat) : Nat :=
  let pos := bitsOf b 0 7
  let len := bitsOf b 7 7
  let f := bitsOf a pos len
  if len = 0 then 0 else if bitsOf b 14 1 = 1 then wrap v.d.bits (signed len f) else f % 2 ^ v.d.bits

/-- BFI: bits of d below its width are replaced (R97). A source narrower than the field is taken as its pattern, with zeros
above: the rule gives BFI no extension (log 42). -/
def bfiC (v : Widths) (d a b : Nat) : Nat :=
  let pos := bitsOf b 0 7
  let n := min (bitsOf b 7 7) (v.d.bits - pos)
  d - bitsOf d pos n * 2 ^ pos + a % 2 ^ n * 2 ^ pos

/-- A compare of two sources (R98, R99). -/
def cmpC (c : Cmp) (v : Widths) (_ a b : Nat) : Nat :=
  predicate v.d.bits
    (if v.d.isFloat then c.float ((fl v.a a).order (fl v.b b))
     else if c.unsigned then c.int a b else c.int (sx v.a a) (sx v.b b))

/-- The sum of products of signed elements of n bits, count of them (R101). -/
def dotInt (n count a b : Nat) : Int :=
  (List.range count).foldl (fun t i => t + signed n (bitsOf a (n * i) n) * signed n (bitsOf b (n * i) n)) 0

/-- DOT2.B16: two products and d, exact, rounded once (R101). -/
def dot2C (d a b : Nat) : Nat :=
  let e (x i : Nat) : Fl := fmtB16.value (bitsOf x (16 * i) 16)
  fmtF32.round .rne (Fl.sum [fmtF32.value d, (e a 0).mul (e b 0), (e a 1).mul (e b 1)])

/-- Bits counted from the top, from the bottom, and set (R103). -/
def clzN (n x : Nat) : Nat := if x = 0 then n else n - 1 - x.log2
def ctzN (n x : Nat) : Nat := ((List.range n).find? fun i => x.testBit i).getD n
def popcN (n x : Nat) : Nat := ((List.range n).filter fun i => x.testBit i).length
/-- Bit i moves to n−1−i; byte i moves to n/8−1−i (R103). -/
def brevN (n x : Nat) : Nat := (List.range n).foldl (fun t i => t + bitsOf x i 1 * 2 ^ (n - 1 - i)) 0
def bswapN (n x : Nat) : Nat := (List.range (n / 8)).foldl (fun t i => t + bitsOf x (8 * i) 8 * 2 ^ (n - 8 - 8 * i)) 0

/-- NEG and ABS (R103). -/
def negC (w : Width) (x : Nat) : Nat := if w.isFloat then x ^^^ 2 ^ (w.bits - 1) else wrap w.bits (-(sx w x))
def absC (w : Width) (x : Nat) : Nat := if w.isFloat then x % 2 ^ (w.bits - 1) else wrap w.bits (sx w x).natAbs

/-- The source width of SXT and ZXT (R105). -/
def extWidth (src : BitVec 2) : Width := Width.ofCode (0#1 ++ src)

/-- The general conversions (R111). -/
def cvtC (w src : Width) (uns : Bool) (r : Rnd) (x : Nat) : Nat :=
  if src.isFloat then
    if w.isFloat then (fmtOf w).round r (fl src x)
    else
      let lo : Int := if uns then 0 else -(2 ^ (w.bits - 1) : Nat)
      let hi : Int := if uns then (2 ^ w.bits : Nat) - 1 else (2 ^ (w.bits - 1) : Nat) - 1
      wrap w.bits ((fl src x).toIntClamp r lo hi)
  else (fmtOf w).round r (Fl.ofInt (if uns then (x : Int) else sx src x))

/-- ADD (R91). -/
def execAdd (w : Width) (d : BitVec 8) (a : BitVec 8) (b : BitVec 7) (s : State) : Host.Outcome State Fault Refusal :=
  laneT (.add w d a b) w d a b false s addC

/-- SUB (R91). -/
def execSub (w : Width) (d : BitVec 8) (a : BitVec 8) (b : BitVec 7) (s : State) : Host.Outcome State Fault Refusal :=
  laneT (.sub w d a b) w d a b false s subC

/-- MUL (R91). -/
def execMul (w : Width) (d : BitVec 8) (a : BitVec 8) (b : BitVec 7) (s : State) : Host.Outcome State Fault Refusal :=
  laneT (.mul w d a b) w d a b false s mulC

/-- MULH (R92). -/
def execMulh (w : Width) (d : BitVec 8) (a : BitVec 8) (b : BitVec 7) (s : State) : Host.Outcome State Fault Refusal :=
  laneT (.mulh w d a b) w d a b false s mulhC

/-- MULHU (R92). -/
def execMulhu (w : Width) (d : BitVec 8) (a : BitVec 8) (b : BitVec 7) (s : State) : Host.Outcome State Fault Refusal :=
  laneT (.mulhu w d a b) w d a b false s mulhuC

/-- MAD (R91). -/
def execMad (w : Width) (d : BitVec 8) (a : BitVec 8) (b : BitVec 7) (s : State) : Host.Outcome State Fault Refusal :=
  laneT (.mad w d a b) w d a b true s madC

/-- MIN (R93). -/
def execMin (w : Width) (d : BitVec 8) (a : BitVec 8) (b : BitVec 7) (s : State) : Host.Outcome State Fault Refusal :=
  laneT (.min w d a b) w d a b false s minC

/-- MAX (R93). -/
def execMax (w : Width) (d : BitVec 8) (a : BitVec 8) (b : BitVec 7) (s : State) : Host.Outcome State Fault Refusal :=
  laneT (.max w d a b) w d a b false s maxC

/-- MINU (R93). -/
def execMinu (w : Width) (d : BitVec 8) (a : BitVec 8) (b : BitVec 7) (s : State) : Host.Outcome State Fault Refusal :=
  laneT (.minu w d a b) w d a b false s minuC

/-- MAXU (R93). -/
def execMaxu (w : Width) (d : BitVec 8) (a : BitVec 8) (b : BitVec 7) (s : State) : Host.Outcome State Fault Refusal :=
  laneT (.maxu w d a b) w d a b false s maxuC

/-- ADDS (R94). -/
def execAdds (w : Width) (d : BitVec 8) (a : BitVec 8) (b : BitVec 7) (s : State) : Host.Outcome State Fault Refusal :=
  laneT (.adds w d a b) w d a b false s addsC

/-- SUBS (R94). -/
def execSubs (w : Width) (d : BitVec 8) (a : BitVec 8) (b : BitVec 7) (s : State) : Host.Outcome State Fault Refusal :=
  laneT (.subs w d a b) w d a b false s subsC

/-- ADDUS (R94). -/
def execAddus (w : Width) (d : BitVec 8) (a : BitVec 8) (b : BitVec 7) (s : State) : Host.Outcome State Fault Refusal :=
  laneT (.addus w d a b) w d a b false s addusC

/-- SUBUS (R94). -/
def execSubus (w : Width) (d : BitVec 8) (a : BitVec 8) (b : BitVec 7) (s : State) : Host.Outcome State Fault Refusal :=
  laneT (.subus w d a b) w d a b false s subusC

/-- AND (R95). -/
def execAnd (w : Width) (d : BitVec 8) (a : BitVec 8) (b : BitVec 7) (s : State) : Host.Outcome State Fault Refusal :=
  laneT (.and w d a b) w d a b false s andC

/-- OR (R95). -/
def execOr (w : Width) (d : BitVec 8) (a : BitVec 8) (b : BitVec 7) (s : State) : Host.Outcome State Fault Refusal :=
  laneT (.or w d a b) w d a b false s orC

/-- XOR (R95). -/
def execXor (w : Width) (d : BitVec 8) (a : BitVec 8) (b : BitVec 7) (s : State) : Host.Outcome State Fault Refusal :=
  laneT (.xor w d a b) w d a b false s xorC

/-- ANDN (R95). -/
def execAndn (w : Width) (d : BitVec 8) (a : BitVec 8) (b : BitVec 7) (s : State) : Host.Outcome State Fault Refusal :=
  laneT (.andn w d a b) w d a b false s andnC

/-- SHL (R96). -/
def execShl (w : Width) (d : BitVec 8) (a : BitVec 8) (b : BitVec 7) (s : State) : Host.Outcome State Fault Refusal :=
  laneT (.shl w d a b) w d a b false s shlC

/-- SHR (R96). -/
def execShr (w : Width) (d : BitVec 8) (a : BitVec 8) (b : BitVec 7) (s : State) : Host.Outcome State Fault Refusal :=
  laneT (.shr w d a b) w d a b false s shrC

/-- SAR (R96). -/
def execSar (w : Width) (d : BitVec 8) (a : BitVec 8) (b : BitVec 7) (s : State) : Host.Outcome State Fault Refusal :=
  laneT (.sar w d a b) w d a b false s sarC

/-- ROT (R96). -/
def execRot (w : Width) (d : BitVec 8) (a : BitVec 8) (b : BitVec 7) (s : State) : Host.Outcome State Fault Refusal :=
  laneT (.rot w d a b) w d a b false s rotC

/-- BFX (R97). -/
def execBfx (w : Width) (d : BitVec 8) (a : BitVec 8) (b : BitVec 7) (s : State) : Host.Outcome State Fault Refusal :=
  laneT (.bfx w d a b) w d a b false s bfxC

/-- BFI (R97). -/
def execBfi (w : Width) (d : BitVec 8) (a : BitVec 8) (b : BitVec 7) (s : State) : Host.Outcome State Fault Refusal :=
  laneT (.bfi w d a b) w d a b true s bfiC

/-- CMPEQ (R98, R99). -/
def execCmpeq (w : Width) (d : BitVec 8) (a : BitVec 8) (b : BitVec 7) (s : State) : Host.Outcome State Fault Refusal :=
  laneT (.cmpeq w d a b) w d a b false s (cmpC .eq)

/-- CMPNE (R98, R99). -/
def execCmpne (w : Width) (d : BitVec 8) (a : BitVec 8) (b : BitVec 7) (s : State) : Host.Outcome State Fault Refusal :=
  laneT (.cmpne w d a b) w d a b false s (cmpC .ne)

/-- CMPLT (R98, R99). -/
def execCmplt (w : Width) (d : BitVec 8) (a : BitVec 8) (b : BitVec 7) (s : State) : Host.Outcome State Fault Refusal :=
  laneT (.cmplt w d a b) w d a b false s (cmpC .lt)

/-- CMPLE (R98, R99). -/
def execCmple (w : Width) (d : BitVec 8) (a : BitVec 8) (b : BitVec 7) (s : State) : Host.Outcome State Fault Refusal :=
  laneT (.cmple w d a b) w d a b false s (cmpC .le)

/-- CMPLTU (R98, R99). -/
def execCmpltu (w : Width) (d : BitVec 8) (a : BitVec 8) (b : BitVec 7) (s : State) : Host.Outcome State Fault Refusal :=
  laneT (.cmpltu w d a b) w d a b false s (cmpC .ltu)

/-- CMPLEU (R98, R99). -/
def execCmpleu (w : Width) (d : BitVec 8) (a : BitVec 8) (b : BitVec 7) (s : State) : Host.Outcome State Fault Refusal :=
  laneT (.cmpleu w d a b) w d a b false s (cmpC .leu)

/-- SEL: field b is one predicate slice; every active lane of d counts as written (R100). -/
def execSel (w : Width) (d : BitVec 8) (a : BitVec 8) (b : BitVec 7) (s : State) : Host.Outcome State Fault Refusal :=
  laneOp (.sel w d a b) (fun _ => ⟨w, w, .i4⟩) d.toNat a.toNat b.toNat true true s
    fun _ _ dv av bv => if bv % 2 = 1 then av else dv

/-- DOT8.I4 (R101). -/
def execDot8I4 (d : BitVec 8) (a : BitVec 8) (b : BitVec 7) (s : State) : Host.Outcome State Fault Refusal :=
  laneOp (.dot8I4 d a b) (fun _ => ⟨.i32, .i32, .i32⟩) d.toNat a.toNat b.toNat true true s
    fun _ _ x y z => wrap 32 (x + dotInt 4 8 y z)

/-- DOT4.I8 (R101). -/
def execDot4I8 (d : BitVec 8) (a : BitVec 8) (b : BitVec 7) (s : State) : Host.Outcome State Fault Refusal :=
  laneOp (.dot4I8 d a b) (fun _ => ⟨.i32, .i32, .i32⟩) d.toNat a.toNat b.toNat true true s
    fun _ _ x y z => wrap 32 (x + dotInt 8 4 y z)

/-- DOT2.B16 (R101). -/
def execDot2B16 (d : BitVec 8) (a : BitVec 8) (b : BitVec 7) (s : State) : Host.Outcome State Fault Refusal :=
  laneOp (.dot2B16 d a b) (fun _ => ⟨.i32, .i32, .i32⟩) d.toNat a.toNat b.toNat true true s
    fun _ _ => dot2C

/-- ADDI (R102). -/
def execAddi (w : Width) (d : BitVec 8) (a : BitVec 8) (imm : BitVec 7) (s : State) : Host.Outcome State Fault Refusal :=
  laneI (.addi w d a imm) w d a imm true s fun v x n => wrap v.d.bits (sx v.a x + n)

/-- ANDI (R102). -/
def execAndi (w : Width) (d : BitVec 8) (a : BitVec 8) (imm : BitVec 7) (s : State) : Host.Outcome State Fault Refusal :=
  laneI (.andi w d a imm) w d a imm false s fun v x n => (x &&& n.toNat) % 2 ^ v.d.bits

/-- ORI (R102). -/
def execOri (w : Width) (d : BitVec 8) (a : BitVec 8) (imm : BitVec 7) (s : State) : Host.Outcome State Fault Refusal :=
  laneI (.ori w d a imm) w d a imm false s fun v x n => (x ||| n.toNat) % 2 ^ v.d.bits

/-- XORI (R102). -/
def execXori (w : Width) (d : BitVec 8) (a : BitVec 8) (imm : BitVec 7) (s : State) : Host.Outcome State Fault Refusal :=
  laneI (.xori w d a imm) w d a imm false s fun v x n => (x ^^^ n.toNat) % 2 ^ v.d.bits

/-- SHLI (R102). -/
def execShli (w : Width) (d : BitVec 8) (a : BitVec 8) (imm : BitVec 7) (s : State) : Host.Outcome State Fault Refusal :=
  laneI (.shli w d a imm) w d a imm false s fun v x n => shlBy v.d x (n.toNat % v.d.bits)

/-- SHRI (R102). -/
def execShri (w : Width) (d : BitVec 8) (a : BitVec 8) (imm : BitVec 7) (s : State) : Host.Outcome State Fault Refusal :=
  laneI (.shri w d a imm) w d a imm false s fun v x n => shrBy v.d x (n.toNat % v.d.bits)

/-- SARI (R102). -/
def execSari (w : Width) (d : BitVec 8) (a : BitVec 8) (imm : BitVec 7) (s : State) : Host.Outcome State Fault Refusal :=
  laneI (.sari w d a imm) w d a imm false s fun v x n => sarBy v.d v.a x (n.toNat % v.d.bits)

/-- CMPEQI (R102). -/
def execCmpeqi (w : Width) (d : BitVec 8) (a : BitVec 8) (imm : BitVec 7) (s : State) : Host.Outcome State Fault Refusal :=
  laneI (.cmpeqi w d a imm) w d a imm true s fun v x n => predicate v.d.bits (x == wrap v.a.bits n)

/-- CMPLTI (R102). -/
def execCmplti (w : Width) (d : BitVec 8) (a : BitVec 8) (imm : BitVec 7) (s : State) : Host.Outcome State Fault Refusal :=
  laneI (.cmplti w d a imm) w d a imm true s fun v x n => predicate v.d.bits (decide (sx v.a x < n))

/-- MOVI reads no register: its result set is `co` alone (R102). -/
def execMovi (w : Width) (d : BitVec 8) (imm : BitVec 7) (s : State) : Host.Outcome State Fault Refusal :=
  issue (.movi w d imm) s fun x => do
    let x ← x.operands [opdOut d.toNat w.slices]
    .ok (x.put (x.wr d.toNat w.slices (fun _ => wrap w.bits (x.h.imm imm true)) x.rset))

/-- MOV (R103). -/
def execMov (w : Width) (d : BitVec 8) (a : BitVec 8) (s : State) : Host.Outcome State Fault Refusal :=
  laneU (.mov w d a) w w d a s id

/-- NOT (R103). -/
def execNot (w : Width) (d : BitVec 8) (a : BitVec 8) (s : State) : Host.Outcome State Fault Refusal :=
  laneU (.not w d a) w w d a s (fun x => 2 ^ w.bits - 1 - x)

/-- NEG (R103). -/
def execNeg (w : Width) (d : BitVec 8) (a : BitVec 8) (s : State) : Host.Outcome State Fault Refusal :=
  laneU (.neg w d a) w w d a s (negC w)

/-- ABS (R103). -/
def execAbs (w : Width) (d : BitVec 8) (a : BitVec 8) (s : State) : Host.Outcome State Fault Refusal :=
  laneU (.abs w d a) w w d a s (absC w)

/-- CLZ (R103). -/
def execClz (w : Width) (d : BitVec 8) (a : BitVec 8) (s : State) : Host.Outcome State Fault Refusal :=
  laneU (.clz w d a) w w d a s (clzN w.bits)

/-- CTZ (R103). -/
def execCtz (w : Width) (d : BitVec 8) (a : BitVec 8) (s : State) : Host.Outcome State Fault Refusal :=
  laneU (.ctz w d a) w w d a s (ctzN w.bits)

/-- POPC (R103). -/
def execPopc (w : Width) (d : BitVec 8) (a : BitVec 8) (s : State) : Host.Outcome State Fault Refusal :=
  laneU (.popc w d a) w w d a s (popcN w.bits)

/-- BREV (R103). -/
def execBrev (w : Width) (d : BitVec 8) (a : BitVec 8) (s : State) : Host.Outcome State Fault Refusal :=
  laneU (.brev w d a) w w d a s (brevN w.bits)

/-- BSWAP (R103). -/
def execBswap (w : Width) (d : BitVec 8) (a : BitVec 8) (s : State) : Host.Outcome State Fault Refusal :=
  laneU (.bswap w d a) w w d a s (bswapN w.bits)

/-- CLASS: a 16-bit mask (R104). -/
def execFclass (w : Width) (d : BitVec 8) (a : BitVec 8) (s : State) : Host.Outcome State Fault Refusal :=
  laneU (.fclass w d a) .i16 w d a s (fmtOf w).classMask

/-- SXT (R105). -/
def execSxt (w : Width) (d : BitVec 8) (a : BitVec 8) (src : BitVec 2) (s : State) : Host.Outcome State Fault Refusal :=
  laneU (.sxt w d a src) w (extWidth src) d a s fun x => wrap w.bits (sx (extWidth src) x)

/-- ZXT (R105). -/
def execZxt (w : Width) (d : BitVec 8) (a : BitVec 8) (src : BitVec 2) (s : State) : Host.Outcome State Fault Refusal :=
  laneU (.zxt w d a src) w (extWidth src) d a s id

/-- SQRT (R106). -/
def execSqrt (w : Width) (d : BitVec 8) (a : BitVec 8) (s : State) : Host.Outcome State Fault Refusal :=
  laneU (.sqrt w d a) w w d a s fun x => toFl w (fl w x).sqrt

/-- RCP (R106). -/
def execRcp (w : Width) (d : BitVec 8) (a : BitVec 8) (s : State) : Host.Outcome State Fault Refusal :=
  laneU (.rcp w d a) w w d a s fun x => toFl w (fl w x).rcp

/-- RSQ (R106). -/
def execRsq (w : Width) (d : BitVec 8) (a : BitVec 8) (s : State) : Host.Outcome State Fault Refusal :=
  laneU (.rsq w d a) w w d a s fun x => toFl w (fl w x).rsq

/-- EXP2 (R106). -/
def execExp2 (w : Width) (d : BitVec 8) (a : BitVec 8) (s : State) : Host.Outcome State Fault Refusal :=
  laneU (.exp2 w d a) w w d a s fun x => toFl w (fl w x).exp2

/-- LOG2 (R106). -/
def execLog2 (w : Width) (d : BitVec 8) (a : BitVec 8) (s : State) : Host.Outcome State Fault Refusal :=
  laneU (.log2 w d a) w w d a s fun x => toFl w (fl w x).log2

/-- SIN (R106). -/
def execSin (w : Width) (d : BitVec 8) (a : BitVec 8) (s : State) : Host.Outcome State Fault Refusal :=
  laneU (.sin w d a) w w d a s fun x => toFl w (fl w x).sin

/-- COS (R106). -/
def execCos (w : Width) (d : BitVec 8) (a : BitVec 8) (s : State) : Host.Outcome State Fault Refusal :=
  laneU (.cos w d a) w w d a s fun x => toFl w (fl w x).cos

/-- FLOOR (R107). -/
def execFloor (w : Width) (d : BitVec 8) (a : BitVec 8) (s : State) : Host.Outcome State Fault Refusal :=
  laneU (.floor w d a) w w d a s fun x => toFl w ((fl w x).integral .rm)

/-- CEIL (R107). -/
def execCeil (w : Width) (d : BitVec 8) (a : BitVec 8) (s : State) : Host.Outcome State Fault Refusal :=
  laneU (.ceil w d a) w w d a s fun x => toFl w ((fl w x).integral .rp)

/-- TRUNC (R107). -/
def execTrunc (w : Width) (d : BitVec 8) (a : BitVec 8) (s : State) : Host.Outcome State Fault Refusal :=
  laneU (.trunc w d a) w w d a s fun x => toFl w ((fl w x).integral .rz)

/-- RINT (R107). -/
def execRint (w : Width) (d : BitVec 8) (a : BitVec 8) (s : State) : Host.Outcome State Fault Refusal :=
  laneU (.rint w d a) w w d a s fun x => toFl w ((fl w x).integral .rne)

/-- CVT from E4M3, exact (R109). -/
def execCvtFromE4M3 (w : Width) (d : BitVec 8) (a : BitVec 8) (s : State) : Host.Outcome State Fault Refusal :=
  laneU (.cvtFromE4M3 w d a) w .i8 d a s fun x => toFl w (fmtE4M3.value x)

/-- CVT from E5M2, exact (R109). -/
def execCvtFromE5M2 (w : Width) (d : BitVec 8) (a : BitVec 8) (s : State) : Host.Outcome State Fault Refusal :=
  laneU (.cvtFromE5M2 w d a) w .i8 d a s fun x => toFl w (fmtE5M2.value x)

/-- CVT_TO_E4M3 (R110). -/
def execCvtToE4M3 (w : Width) (d : BitVec 8) (a : BitVec 8) (s : State) : Host.Outcome State Fault Refusal :=
  laneU (.cvtToE4M3 w d a) .i8 w d a s fun x => fmtE4M3.roundFp8 false (fl w x)

/-- CVT_TO_E4M3_SAT (R110). -/
def execCvtToE4M3Sat (w : Width) (d : BitVec 8) (a : BitVec 8) (s : State) : Host.Outcome State Fault Refusal :=
  laneU (.cvtToE4M3Sat w d a) .i8 w d a s fun x => fmtE4M3.roundFp8 true (fl w x)

/-- CVT_TO_E5M2 (R110). -/
def execCvtToE5M2 (w : Width) (d : BitVec 8) (a : BitVec 8) (s : State) : Host.Outcome State Fault Refusal :=
  laneU (.cvtToE5M2 w d a) .i8 w d a s fun x => fmtE5M2.roundFp8 false (fl w x)

/-- CVT_TO_E5M2_SAT (R110). -/
def execCvtToE5M2Sat (w : Width) (d : BitVec 8) (a : BitVec 8) (s : State) : Host.Outcome State Fault Refusal :=
  laneU (.cvtToE5M2Sat w d a) .i8 w d a s fun x => fmtE5M2.roundFp8 true (fl w x)

/-- The general conversions (R111). -/
def execCvt (w : Width) (d : BitVec 8) (a : BitVec 8) (src : Width) (uns : BitVec 1) (rnd : BitVec 2) (s : State) : Host.Outcome State Fault Refusal :=
  laneU (.cvt w d a src uns rnd) w src d a s (cvtC w src (uns == 1#1) (Rnd.of rnd.toNat))

end Sys2Proof.Machine
end

