-- ==== Sys2Proof/Machine/Cross.lean ====
section
/-! DEFINITION. Lane exchange, special registers, block registers, the cycle counter and the origin-set queries (R121, R122,
R142 to R144, R151 to R153, R158 to R167). -/

namespace Sys2Proof.Machine

/-- A write of a cross-lane instruction: with no active lane it writes nothing (R153). -/
def Iss.crossWr (i : Iss) (start n : Nat) (v : Nat → Nat) (set : OSet) : State :=
  if i.p.em == 0 then i.s else i.put (i.wr start n v set)

/-- The active lanes whose value passes a test. -/
def Iss.lanesWith (i : Iss) (f : Nat → Bool) : Mask := maskOf fun l => inMask i.p.em l && f l

/-- BALLOT (R158). -/
def execBallot (d a : BitVec 8) (s : State) : Host.Outcome State Fault Refusal :=
  issue (.ballot d a) s fun i => do
    let i ← i.operands [opdIn a.toNat 1 (routed i.p.em i.h.srcA), opdOut d.toNat 8]
    let m := i.lanesWith fun l => i.bit0 (i.h.srcA l) a.toNat
    .ok (i.crossWr d.toNat 8 (fun _ => m.toNat) i.rset)

/-- EQMASK (R159). -/
def execEqmask (w : Width) (d a : BitVec 8) (s : State) : Host.Outcome State Fault Refusal :=
  issue (.eqmask w d a) s fun i => do
    let i ← i.operands [opdIn a.toNat w.slices (routed i.p.em i.h.srcA), opdOut d.toNat 8]
    let v (l : Nat) : Nat := i.raw (i.h.srcA l) a.toNat w.slices
    .ok (i.crossWr d.toNat 8 (fun l => (i.lanesWith fun j => v j == v l).toNat) i.rset)

/-- ANY and ALL (R160). -/
def reduce (x : Instr) (w : Width) (d a : BitVec 8) (s : State) (test : Mask → Mask → Bool) :
    Host.Outcome State Fault Refusal :=
  issue x s fun i => do
    let i ← i.operands [opdIn a.toNat 1 (routed i.p.em i.h.srcA), opdOut d.toNat w.slices]
    let m := i.lanesWith fun l => i.bit0 (i.h.srcA l) a.toNat
    .ok (i.crossWr d.toNat w.slices (fun _ => predicate w.bits (test m i.p.em)) i.rset)

/-- ANY (R160). -/
def execAny (w : Width) (d a : BitVec 8) (s : State) : Host.Outcome State Fault Refusal :=
  reduce (.any w d a) w d a s fun m _ => m != 0

/-- ALL (R160). -/
def execAll (w : Width) (d a : BitVec 8) (s : State) : Host.Outcome State Fault Refusal :=
  reduce (.all w d a) w d a s fun m em => m == em

/-- SHFL: the index says from which lane a is read (R161). -/
def execShfl (w : Width) (d a : BitVec 8) (b : BitVec 7) (s : State) : Host.Outcome State Fault Refusal :=
  issue (.shfl w d a b) s fun i => do
    let i ← i.operands [opdIn a.toNat w.slices 0, opdIn b.toNat 2 (routed i.p.em i.h.srcB), opdOut d.toNat w.slices]
    let from_ (l : Nat) : Nat := i.h.srcA (i.raw (i.h.srcB l) b.toNat 2 % 32)
    let j ← i.operands [opdIn a.toNat w.slices (routed i.p.em from_)]
    .ok (j.crossWr d.toNat w.slices (fun l => j.raw (from_ l) a.toNat w.slices) j.rset)

/-! ## Special registers -/

/-- The skein status word (R124). -/
def State.sw (s : State) (k : Skein) : Nat :=
  (s.gridOf k).level * 2 ^ 17 + k.stack.length * 2 ^ 8 + k.swlo.toNat

/-- The code object whose code holds an address. -/
def Context.objAt (c : Context) (va : Nat) : Option CodeObj :=
  c.objs.find? fun o => decide (o.code ≤ va) && decide (va < o.code + o.codeLen)

/-- The code object of a grid. -/
def State.objOf (s : State) (k : Skein) : Option CodeObj := (s.ctxOf k).objAt (s.gridOf k).entry

/-- The value of a special register in a lane (R162). -/
def Iss.special (i : Iss) (num l : Nat) : Nat :=
  match num with
  | 0 => i.p.em.toNat
  | 1 => i.p.members.toNat
  | 2 => i.k.lfm.toNat
  | 3 => i.s.sw i.k
  | 4 => i.p.co.toNat
  | 5 => l
  | 6 => i.k.num
  | 7 => (i.s.blockOf i.k).n
  | 8 => i.k.block
  | 9 => (i.s.gridOf i.k).g
  | 10 => i.k.slotId
  | 11 => i.k.coreId
  | 12 => i.k.window
  | 13 => (i.s.gridOf i.k).tenant
  | 14 => i.k.grid
  | 15 => (i.s.objOf i.k).elim 0 (·.rodata)
  | _ => (i.s.objOf i.k).elim 0 (·.data)

/-- RDS (R162, R163). -/
def execRds (w : Width) (d num : BitVec 8) (s : State) : Host.Outcome State Fault Refusal :=
  issue (.rds w d num) s fun i => do
    let i ← i.operands [opdOut d.toNat w.slices]
    let set := if num == 2 then i.k.lfmSet ||| i.p.co else i.p.co
    .ok (i.crossWr d.toNat w.slices (fun l => i.special num.toNat l) set)

/-- The value of operand a in the lane that a one-lane write takes it from (R152). -/
def Iss.top (i : Iss) (a n : Nat) : Nat := i.raw (i.h.srcA (highest i.p.em)) a n

/-- The lane that a one-lane write reads. -/
def topLane (em : Mask) (src : Nat → Nat) : Mask := if em == 0 then 0 else 1#32 <<< src (highest em)

/-- WRS em (R127, R164). -/
def execWrsEm (a : BitVec 8) (s : State) : Host.Outcome State Fault Refusal :=
  issue (.wrsEm a) s fun i => do
    let i ← i.operands [opdIn a.toNat 8 (topLane i.p.em i.h.srcA)]
    let v := BitVec.ofNat 32 (i.top a.toNat 8)
    .ok (if i.p.em == 0 then i.s
      else i.put (i.k.modSplit i.p.uid fun p => { p with em := v &&& p.members, co := p.co ||| i.rd }))

/-- WRS sw (R124, R164). -/
def execWrsSw (a : BitVec 8) (s : State) : Host.Outcome State Fault Refusal :=
  issue (.wrsSw a) s fun i => do
    let i ← i.operands [opdIn a.toNat 8 (topLane i.p.em i.h.srcA)]
    .ok (if i.p.em == 0 then i.s else i.put { i.k with swlo := BitVec.ofNat 2 (i.top a.toNat 8) })

/-- RDCYC (R165). -/
def execRdcyc (d : BitVec 8) (s : State) : Host.Outcome State Fault Refusal :=
  issue (.rdcyc d) s fun i => do
    let i ← i.operands [opdOut d.toNat 16]
    .ok (i.crossWr d.toNat 16 (fun _ => (i.s.cluster i.k.cluster).counter) i.p.co)

/-! ## Block registers -/

/-- KRD (R166). -/
def execKrd (d k : BitVec 8) (s : State) : Host.Outcome State Fault Refusal :=
  issue (.krd d k) s fun i => do
    let i ← i.operands [opdOut d.toNat 8]
    let b := i.s.blockOf i.k
    let r := b.ks.getD k.toNat default
    let x := r.read i.k.num i.s.free
    let t := i.crossWr d.toNat 8 (fun _ => x.1.toNat) (r.set ||| i.p.co)
    .ok (if i.p.em == 0 then t
      else { t.setBlock { b with ks := b.ks.set k.toNat x.2.1 } with free := if x.2.2 then t.free + 1 else t.free })

/-- A block register after a write by a skein (R142, R143). -/
def KReg.write (r : KReg) (num : Nat) (v : BitVec 32) (set : OSet) : KReg :=
  { r with vals := r.vals ++ [v], set := set, writer := some num }

/-- KWR (R142, R143, R167). -/
def execKwr (k a : BitVec 8) (s : State) : Host.Outcome State Fault Refusal :=
  issue (.kwr k a) s fun i => do
    let i ← i.operands [opdIn a.toNat 8 (topLane i.p.em i.h.srcA)]
    let b := i.s.blockOf i.k
    let r := b.ks.getD k.toNat default
    if i.p.em == 0 then .ok i.s
    else do
      i.need (r.writer == none || r.writer == some i.k.num) (dnr 11 k.toNat) i.p.em
      .ok (i.s.setBlock { b with
        ks := b.ks.set k.toNat (r.write i.k.num (BitVec.ofNat 32 (i.top a.toNat 8)) i.rset) })

/-! ## Origin-set queries -/

/-- Every pending write to a register lands (R121). -/
def Iss.landReg (i : Iss) (r : Nat) : Iss :=
  let k := i.k.landThose fun q => laneIds.any fun l => (q.masks.getD l 0 &&& sliceMask (8 * r) 8) != 0
  { i with k := k, s := i.put k }

/-- LBLR. It waits for the writes to the register that it asks about before its own operands are looked at, so none of those
is a LOOKAHEAD violation, nor is a pending write of d one (R121). It is a lane instruction, and with no active lane its result set joins d's as any such write
does (R88). -/
def execLblr (d a : BitVec 8) (s : State) : Host.Outcome State Fault Refusal :=
  issue (.lblr d a) s fun i => do
    let i ← (i.landReg (a.toNat / 8)).operandsBut false [⟨a.toNat, 1, 1, 0, false, false⟩, opdOut d.toNat 4]
    .ok (i.put (i.wr d.toNat 4 (fun _ => (i.k.sets.getD (a.toNat / 8) 0).toNat) i.p.co))

/-- The set of the page at an address, 0 when it cannot be read (R122). -/
def State.pageSetAt (s : State) (c : Context) (va : Nat) : OSet :=
  match s.translate c va with
  | .leaf l => if l.readable c then l.set else 0
  | _ => 0

/-- LBLQ (R88, R122). -/
def execLblq (d a : BitVec 8) (s : State) : Host.Outcome State Fault Refusal :=
  issue (.lblq d a) s fun i => do
    let i ← i.operands [opdIn a.toNat 16 i.p.em, opdOut d.toNat 4]
    let c := i.s.ctxOf i.k
    .ok (i.put (i.wr d.toNat 4 (fun l => (i.s.pageSetAt c (i.raw l a.toNat 16)).toNat) i.rset))

end Sys2Proof.Machine
end

