-- ==== Sys2Proof/Machine/Access.lean ====
section
/-! DEFINITION. Accesses to memory by a split: addresses, checks, holds, reads and stores in the three spaces (R118 to R120,
R179 to R192, R205, R210, R214, R228 to R231, R239, R242, R348, R443). -/

namespace Sys2Proof.Machine

/-- One contiguous part of a lane's access: its first byte, length, memory type, and the set of each page or 1 KiB block. -/
structure Part where
  loc : Loc
  n : Nat
  type : Nat
  sets : List OSet
  deriving DecidableEq, Repr, Inhabited

/-- One lane's access. -/
structure LaneAcc where
  lane : Nat
  addr : Nat
  parts : List Part
  deriving DecidableEq, Repr, Inhabited

/-- What a kind of access needs from a page (R197). -/
structure Need where
  rd : Bool
  wr : Bool
  ex : Bool
  mask : Bool
  deriving DecidableEq, Repr, Inhabited

def needLoad : Need := ⟨true, false, false, true⟩
def needStore : Need := ⟨false, true, false, false⟩
def needAtomic : Need := ⟨true, true, false, true⟩
def needCode : Need := ⟨false, false, true, true⟩

/-- The permissions of a page meet a need (R197). -/
def Leaf.permits (l : Leaf) (n : Need) : Bool := (!n.rd || l.rd) && (!n.wr || l.wr) && (!n.ex || l.ex)

/-- A virtual range cut at 64 KiB pieces: addresses and lengths (R194). -/
def pieces : Nat → Nat → Nat → List (Nat × Nat)
  | 0, _, _ => []
  | f + 1, va, n =>
    if n = 0 then []
    else
      let m := min n (65536 - va % 65536)
      (va, m) :: pieces f ((va + m) % 2 ^ 64) (n - m)

/-- The lanes of a list. -/
def maskOfLanes (ls : List Nat) : Mask := maskOf fun l => ls.contains l

/-- Translation, then permission, of every lane's range, each cause for all lanes at once (R120, R197, R200). -/
def Iss.mapG (i : Iss) (kind : Nat) (need : Need) (rs : List (Nat × Nat × Nat)) : Res (List LaneAcc) :=
  let c := i.s.ctxOf i.k
  let walks := rs.map fun r => (r.1, (pieces (r.2.2 / 65536 + 2) r.2.1 r.2.2).map fun q => (q, i.s.translate c q.1))
  let fault (w : Walk) : Bool := match w with
    | .leaf _ => false
    | .unmapped | .malformed => true
  let bad := walks.filterMap fun w => (w.2.find? fun x => fault x.2).map fun x => (w.1, x.1.1, x.2)
  let lacks (f : Leaf → Bool) (w : Walk) : Bool := match w with
    | .leaf l => f l
    | _ => false
  let which (f : Leaf → Bool) := walks.filterMap fun w => (w.2.find? fun x => lacks f x.2).map fun x => (w.1, x.1.1)
  let noPerm := which fun l => !l.permits need
  let noRead := which fun l => need.mask && !c.mayRead l.set
  let both := which fun l => !l.permits need || (need.mask && !c.mayRead l.set)
  if !bad.isEmpty then .error (.park kind (bad.map fun x => (x.1, x.2.1)) (bad.any fun x => x.2.2 == .malformed) (some i.keeps))
  else if !noPerm.isEmpty then i.trapAt (dnr 4 1) (maskOfLanes (both.map (·.1))) both
  else if !noRead.isEmpty then i.trapAt (dnr 4 2) (maskOfLanes (both.map (·.1))) both
  else .ok (walks.map fun w => ⟨w.1, (w.2.map (·.1.1)).headD 0, w.2.filterMap fun x => match x.2 with
    | .leaf l => some ⟨locG l.pa, x.1.2, l.type, [l.set]⟩
    | _ => none⟩)

/-- The sets of the 1 KiB blocks that a range touches (R184). -/
def State.blockSets (s : State) (l : Loc) (n : Nat) : List OSet :=
  (List.range ((l.addr + n + 1023) / 1024 - l.addr / 1024)).map fun j =>
    s.blockSet { l with addr := (l.addr / 1024 + j) * 1024 }

/-- The range check of S and C, and the storage of BK baskets (R185, R443). -/
def Iss.mapSC (i : Iss) (sp : Space) (rs : List (Nat × Nat × Nat)) : Res (List LaneAcc) :=
  let out := rs.filter fun r => !i.s.inRange i.k sp r.2.1 r.2.2
  let hit := rs.filter fun r => i.s.hitsBasket i.k sp r.2.1 r.2.2
  if !out.isEmpty then i.trapAt (dnr 4 3) (maskOfLanes (out.map (·.1))) (out.map fun r => (r.1, r.2.1))
  else if !hit.isEmpty then i.trapAt (dnr 4 6) (maskOfLanes (hit.map (·.1))) (hit.map fun r => (r.1, r.2.1))
  else .ok (rs.map fun r => ⟨r.1, r.2.1, [⟨i.k.loc sp r.2.1, r.2.2, 0, i.s.blockSets (i.k.loc sp r.2.1) r.2.2⟩]⟩)

/-- The checks of an access in any space (R120, R207). -/
def Iss.map (i : Iss) (sp : Space) (kind : Nat) (need : Need) (rs : List (Nat × Nat × Nat)) : Res (List LaneAcc) :=
  match sp with
  | .g => i.mapG kind need rs
  | .s | .c => i.mapSC sp rs

/-- The locations of an access. -/
def LaneAcc.locs (a : LaneAcc) : List Loc := a.parts.flatMap fun p => p.loc.span p.n

/-- The join of the sets an access reads (R26, R184). -/
def LaneAcc.set (a : LaneAcc) : OSet := a.parts.foldl (fun x p => p.sets.foldl (· ||| ·) x) 0

/-- The join over all lanes. -/
def accSet (as : List LaneAcc) : OSet := as.foldl (fun x a => x ||| a.set) 0

/-- The subset test of R27 for every page or block of every lane. -/
def Iss.origin (i : Iss) (d : OSet) (as : List LaneAcc) : Res Unit :=
  let bad := as.filter fun a => a.parts.any fun p => p.sets.any fun x => !d.subset x
  i.need bad.isEmpty (dnr 5 0) (maskOfLanes (bad.map (·.lane)))

/-- The locations that an engine can own or pin: those not of memory type PCIe (R242). -/
def LaneAcc.holdable (a : LaneAcc) : List Loc := (a.parts.filter (·.type != 2)).flatMap fun p => p.loc.span p.n

/-- A load waits for owned lines, a store or an atomic also for pinned ones (R242). -/
def Iss.hold (i : Iss) (store : Bool) (as : List LaneAcc) : Res Unit :=
  let ls := as.flatMap LaneAcc.holdable
  let held := if store then i.s.heldForStore ls else i.s.heldForLoad ls
  if held.isEmpty then .ok () else .error (.stall (.line store held))

/-- The first byte of an access. -/
def LaneAcc.first (a : LaneAcc) : Loc := (a.parts.head?).elim (locG 0) (·.loc)

/-- What a load keeps of its access: its lane, address and first byte (R34). -/
def LaneAcc.src (a : LaneAcc) : Nat × Nat × Loc := (a.lane, a.addr, a.first)

/-- The uncorrectable error that waits for a demand read of the skein meets this access: its lanes, its level, and whether a
clean copy exists (R34, R348). -/
def Iss.flawOf (i : Iss) (as : List LaneAcc) : Option (List LaneAcc × Nat × Bool) :=
  match i.k.flaw with
  | none => none
  | some (lanes, level, clean) =>
    let hit := as.filter fun a => inMask lanes a.lane && levelFits a.first.sp level
    if hit.isEmpty then none else some (hit, level, clean)

/-- The DATA-ERROR stop of a demand access that reads a failed unit, or that meets the waiting error. With a clean copy it is
performed again from its group; without one the units fail (R34, R348, R349). -/
def Iss.sound (i : Iss) (as : List LaneAcc) : Res Unit :=
  let stop (s : State) (grade level : Nat) (l : Loc) (bad : List LaneAcc) : Res Unit :=
    .error (.dataError (BitVec.ofNat 16 (grade + level)) (maskOfLanes (bad.map (·.lane))) (bad.map fun a => (a.lane, a.addr))
      (i.rd ||| i.p.co) (s.countError i.k.coreId l.addr level))
  let failed (s : State) : List LaneAcc := as.filter fun a => a.locs.any s.failedAt
  match i.flawOf as with
  | some (hit, level, clean) =>
    let ls := hit.map LaneAcc.first
    let s := i.put { i.k with flaw := none }
    let s := ls.foldl (fun t l => t.dropAt i.k.coreId level l) s
    if clean then
      let units := ls.map (·.addr / 32)
      stop s 0x0C00 level (ls.headD (locG 0)) (as.filter fun a => a.locs.any fun l => units.contains (l.addr / 32))
    else let t := s.fail level ls; stop t 0xCC00 level (ls.headD (locG 0)) (failed t)
  | none =>
    match failed i.s with
    | [] => .ok ()
    | a :: t =>
      let l := (a.locs.find? i.s.failedAt).getD (locG 0)
      stop i.s 0xCC00 (i.s.failLevel l) l (a :: t)

/-- The line numbers of the PCIe parts of an access. -/
def LaneAcc.pcieLines (a : LaneAcc) : List Nat :=
  (a.parts.filter (·.type == 2)).flatMap fun p =>
    (List.range ((p.loc.addr + p.n - 1) / 64 + 1 - p.loc.addr / 64)).map (p.loc.addr / 64 + ·)

/-- The request of this word of the split (R211, R394). -/
def Iss.request (i : Iss) : Option PReq := i.k.preqs.find? fun r => r.uid == i.p.uid && r.word == i.pc

/-- The status of the completion that the split waited for (R211, R394). -/
def Iss.completion (i : Iss) : Option Nat := i.request.elim none (·.status)

/-- The completion is consumed. -/
def Iss.consume (i : Iss) : Iss :=
  let k := { i.k with preqs := i.k.preqs.filter (·.uid != i.p.uid) }
  { i with k := k, s := i.put k }

/-- An access whose request went without a completion while the skein was stopped ends in HOST-TIMEOUT (R394). -/
def Iss.timely (i : Iss) (lanes : Mask) : Res Unit :=
  if i.request.elim false (·.expired) then .error (.dataError 0x1500 lanes [] i.p.co i.consume.s) else .ok ()

/-- Parts of 8 bytes of a line, each from one of some copies of it: PCIe memory is read atomically only in such parts
(R229). -/
def tearOf (free : Nat) (copies : List (List Byte)) : List Byte :=
  (List.range 64).map fun j => (copies.getD (Config.freePick free (j / 8) % copies.length) []).getD j 0

/-- A PCIe line enters the die's L2 as the host held it between the request and its completion; bytes that it already holds
stay. A refused read gives free bytes (R214, R229, log 13). -/
def State.fillPcie (s : State) (die line : Nat) (refused : Bool) (seen : List (List Byte)) : State :=
  let read := tearOf s.free (if seen.isEmpty then [cellsRead s.mem (line * 64) 64] else seen)
  let host (j : Nat) : Byte := if refused then BitVec.ofNat 8 (Config.freeWord (s.free + j)).toNat else read.getD j 0
  let t := match s.pline? die line with
    | some x => s.modDie die fun d => { d with pcie := putBy (·.line) { x with
        bytes := (List.range 64).map fun j => some ((x.bytes.getD j none).getD (host j)) } d.pcie }
    | none => (s.roomPcie die line).modDie die fun d =>
        { d with pcie := ⟨line, (List.range 64).map fun j => some (host j), 0⟩ :: d.pcie }
  { t with free := t.free + 64 }

/-- A load of PCIe memory is served from the die's copies, or once its request has completed (R214, R394). The completion
names the lanes whose requests were refused (R211). -/
def Iss.pcieReady (i : Iss) (as : List LaneAcc) : Res Iss := do
  let missing := ((as.flatMap LaneAcc.locs).filter fun l => l.sp == .g && paType l.addr == 2 &&
    (i.s.pbyte? i.k.die l.addr).isNone).map fun l => l.addr / 64
  let lanes := (as.filter fun a => a.pcieLines.any missing.contains).map (·.lane)
  let asked := i.request.elim [] fun r => r.lines.map (·.1)
  i.timely (maskOfLanes ((as.filter fun a => a.pcieLines.any asked.contains).map (·.lane)))
  if missing.isEmpty then .ok (if i.completion.isSome then i.consume else i)
  else match i.completion with
    | none => .error (.stall (.pcie (maskOfLanes lanes) missing.eraseDups))
    | some st =>
      let j := i.consume
      let refused (n : Nat) : Bool := (as.filter fun a => a.pcieLines.contains n).any fun a => st.testBit a.lane
      let seen (n : Nat) : List (List Byte) :=
        (i.request.bind fun r => r.lines.find? (·.1 == n)).elim [] (·.2)
      .ok { j with s := missing.eraseDups.foldl (fun t n => t.fillPcie i.k.die n (refused n) (seen n)) j.s }

/-- The die keeps no copy of the lines of a completed request that an INVAL has passed meanwhile: what it brought is for its own access
alone (R244, R428). -/
def Iss.shed (i : Iss) (s : State) : State :=
  (i.request.elim [] (·.gone)).foldl (fun t n => (t.pdrop i.k.die n).modCore i.k.coreId fun c => { c with l1 := l1Drop c.l1 n }) s

/-! ## Reading -/

/-- The core holds a line of an L1 (R179, R189). -/
def State.fillL1 (s : State) (core line : Nat) (bytes : List Byte) : State :=
  s.modCore core fun c => c.addL1 ⟨line, bytes⟩ (s.spadUsed core) (Config.freeWay s.free)

/-- A line as a load of a core sees it: the L1 copy may be older until the next acquire, and what a load has returned the L1
holds from then on (R179, R189, R214, R231). -/
def State.viewLine (s : State) (core line : Nat) (noalloc : Bool) : List Byte × State :=
  let home := s.homeLine (core / 64) line
  match (s.core core).l1.find? (·.line == line) with
  | some x =>
    if x.bytes == home then (home, s)
    else
      let t : State := { s with free := s.free + 1 }
      let pcie := paType (line * 64) == 2
      let torn := tearOf s.free [x.bytes, home]
      if pcie && Config.freePick s.free 8 % 2 == 0 then (torn, t.fillL1 core line torn)
      else if Config.freeBit s.free then (x.bytes, t) else (home, t.fillL1 core line home)
  | none => (home, if noalloc then s else s.fillL1 core line home)

/-- The values that a byte of G has held since the skein's last acquire at CL scope or wider, before the present one
(R192). -/
def State.held (s : State) (k : Skein) (pa : Nat) : List Byte :=
  ((s.past.take (s.past.length - k.acquired)).filter (·.1 == pa)).map (·.2)

/-- A line as a load with ronly takes it from the home; the L1 holds nothing older from then on (R192, R231). -/
def State.homeView (s : State) (core line : Nat) (noalloc : Bool) : List Byte × State :=
  let home := s.homeLine (core / 64) line
  (home, if noalloc && !(s.core core).l1.any (·.line == line) then s else s.fillL1 core line home)

/-- The lines that a load reads, each once. -/
def State.viewLines (s : State) (core : Nat) (noalloc home : Bool) : List Nat → List (Nat × List Byte) × State
  | [] => ([], s)
  | n :: t =>
    let r := if home then s.homeView core n noalloc else s.viewLine core n noalloc
    let q := r.2.viewLines core noalloc home t
    ((n, r.1) :: q.1, q.2)

/-- A split sees a waiting store: one before it in program order, or one it has read (R231, R239). -/
def PStore.visible (e : PStore) (uid : Nat) : Bool := e.owners.contains uid || e.seen.contains uid

/-- For each waiting store that a load meets and its split need not see, a free choice (R239). -/
def seeBits (uid : Nat) (locs : List Loc) : Nat → List PStore → List (PStore × Bool)
  | _, [] => []
  | n, e :: t =>
    if e.visible uid then (e, true) :: seeBits uid locs n t
    else if locs.any e.covers then (e, Config.freeBit n) :: seeBits uid locs (n + 1) t
    else (e, false) :: seeBits uid locs n t

/-- The stores after a load by a split: one that it returned, and every earlier one to the same bytes, is seen from now on. -/
def markSeen (uid : Nat) (l : List (PStore × Bool)) : List PStore :=
  (withEarlier (fun e => (l.find? (·.1 == e)).elim false (·.2)) (l.map (·.1))).map fun x =>
    if x.2 && !x.1.visible uid then { x.1 with seen := uid :: x.1.seen } else x.1

/-- The bytes of the waiting stores that a split sees replace those of memory, the latest last (R231). -/
def overlay (uid : Nat) (stores : List PStore) (l : Loc) (b : Byte) : Byte :=
  stores.foldl (fun x e => if e.visible uid && e.covers l then e.bytes.getD (l.addr - e.loc.addr) x else x) b

/-- What a load reads: the state afterwards, each line, the stores it sees, and, where it takes older values under ronly, the number of
the free choices among what each byte has held. -/
structure ReadView where
  i : Iss
  lines : List (Nat × List Byte)
  stores : List PStore
  pick : Option Nat := none

/-- A byte of some lines. -/
def lineByte (lines : List (Nat × List Byte)) (pa : Nat) : Byte := ((lines.find? (·.1 == pa / 64)).elim [] (·.2)).getD (pa % 64) 0#8

/-- The value of a location under a view. With ronly a byte may also be the one at its home without the split's waiting stores, or any
that it has held since the skein's last acquire at CL scope or wider (R192). -/
def ReadView.byte (v : ReadView) (l : Loc) : Byte :=
  let now := match l.sp with
    | .g => lineByte v.lines l.addr
    | .s | .c => v.i.s.peek l
  let seen := overlay v.i.p.uid v.stores l now
  match v.pick with
  | none => seen
  | some n =>
    let vals := seen :: v.i.s.engineByte v.i.k.die l :: if l.sp == .g then v.i.s.held v.i.k l.addr else []
    vals.getD (Config.freePick n l.addr % vals.length) seen

/-- The bytes of one lane's access. -/
def ReadView.bytes (v : ReadView) (a : LaneAcc) : List Byte := a.locs.map v.byte

/-- A demand load of every lane at once: the same byte reads the same in every lane (R228). With ronly a free choice lets it take
older values, its lines then coming from their homes (R192). -/
def Iss.read (i : Iss) (pol : BitVec 32) (as : List LaneAcc) : ReadView :=
  let locs := as.flatMap LaneAcc.locs
  let lines := ((locs.filter (·.sp == .g)).map (·.addr / 64)).eraseDups
  let older := pol.getLsbD 16 && Config.freeBit i.s.free
  let r := ({ i.s with free := i.s.free + 1 } : State).viewLines i.k.coreId (pol.getLsbD 17) older lines
  let bits := seeBits i.p.uid locs r.2.free i.k.stores
  let stores := markSeen i.p.uid bits
  let k := { i.k with stores := stores }
  let n := r.2.free + i.k.stores.length
  let t := { r.2 with free := n + 1 }.setSkein k
  ⟨{ i with k := k, s := t }, r.1, stores, if older then some n else none⟩

/-- The checks of a demand load after translation and permission: held lines, PCIe requests, data errors (R34, R242, R394). -/
def Iss.load (i : Iss) (pol : BitVec 32) (as : List LaneAcc) : Res ReadView := do
  i.hold false as
  i.sound as
  let j ← i.pcieReady as
  let v := j.read pol as
  .ok { v with i := { v.i with s := i.shed v.i.s } }

/-! ## Storing -/

/-- Bytes cut at the multiples of a unit (R229). -/
def cutUnits (u : Nat) : Nat → Nat → List Byte → List (Nat × List Byte)
  | 0, _, _ => []
  | f + 1, a, bs =>
    if bs.isEmpty then []
    else
      let m := u - a % u
      (a, bs.take m) :: cutUnits u f (a + m) (bs.drop m)

/-- The stores of one lane's bytes, in single-copy atomic units (R229). -/
def LaneAcc.stores (a : LaneAcc) (uid : Nat) (unit : Nat) (bytes : List Byte) : List PStore :=
  (a.parts.foldl (fun r p =>
    (r.1 ++ (cutUnits (if p.type == 2 then min unit 8 else unit) 64 p.loc.addr (r.2.take p.n)).map fun x =>
      (⟨[uid], { p.loc with addr := x.1 }, x.2, []⟩ : PStore), r.2.drop p.n)) (([] : List PStore), bytes)).1

/-- A store takes in the rest of an earlier one of the same instruction to its atomic unit, of which it supplies the first
bytes: the unit is performed as one (R228, R229). -/
def PStore.over (f e : PStore) : PStore := { f with bytes := f.bytes ++ e.bytes.drop f.bytes.length }

/-- The stores of one instruction in lane order, each byte from the highest lane that writes it (R228). Two that meet are in
one aligned unit and start at one byte: accesses are aligned to their size, and records to 8 bytes (R118, R220, R229). -/
def cutLower : List PStore → List PStore
  | [] => []
  | e :: t => if (cutLower t).any e.meets then (cutLower t).map fun f => if f.meets e then f.over e else f else e :: cutLower t

/-- Stores wait in the skein until they are performed (R228, R248). -/
def Iss.store (i : Iss) (unit : Nat) (as : List LaneAcc) (bytes : Nat → List Byte) : Skein :=
  { i.k with stores := i.k.stores ++ cutLower (as.flatMap fun a => a.stores i.p.uid unit (bytes a.lane)) }

/-- The waiting stores that the split sees and that satisfy a test are performed (R231). -/
def Iss.flushIf (i : Iss) (f : PStore → Bool) : Res Iss :=
  let mine (e : PStore) : Bool := e.visible i.p.uid && f e
  let t := i.s.drain i.k.id mine
  match t.skein? i.k.id with
  | none => .ok i
  | some k =>
    let rest := k.stores.filter mine
    if rest.isEmpty then .ok { i with s := t, k := k } else .error (.stall (.line true (rest.flatMap PStore.locs)))

/-- Those to some locations, before an atomic on them. -/
def Iss.flush (i : Iss) (ls : List Loc) : Res Iss := i.flushIf fun e => ls.any e.covers

/-! ## Addresses and policies -/

/-- The effective address of a lane (R75, R118). -/
def Iss.ea (i : Iss) (n : BitVec 5) (l : Nat) : Nat := wrap 64 ((i.raw l (8 * n.toNat) 16 : Int) + i.h.offset)

/-- The illegal-operand trap of misaligned lanes (R118). -/
def Iss.aligned (i : Iss) (bytes : Nat) (ea : Nat → Nat) : Res Unit :=
  let bad := i.active.filter fun l => ea l % bytes != 0
  if bad.isEmpty then .ok () else i.trapAt (dnr 2 2) (maskOfLanes bad) (bad.map fun l => (l, ea l))

/-- The policy operand: read as KRD would read it, and refused with reserved bits, or with ronly on a store (R189, R191). A
replay keeps the one that its instruction read (R120, R200, log 41). -/
def Iss.policy (i : Iss) (n : Nat) (store : Bool) : Res (BitVec 32 × Iss) :=
  if n = 0 then .ok (0, i)
  else if let some pol := i.pol then .ok (pol, i)
  else
    let b := i.s.blockOf i.k
    let x := (b.ks.getD n default).read i.k.num i.s.free
    if x.1.extractLsb' 19 13 != 0 || (store && x.1.getLsbD 16) then i.trap (dnr 2 4) i.p.em
    else .ok (x.1, { i with pol := some x.1, s := { i.s.setBlock { b with ks := b.ks.set n x.2.1 } with
      free := if x.2.2 then i.s.free + 1 else i.s.free } })

/-- The lines of a stream that a demand access touches move its position (R193). -/
def Stream.touch (x : Stream) (lines : List Nat) : Stream :=
  lines.foldl (fun x n =>
    let d : Int := if 0 < x.stride then (((n * 64 + 2 ^ 64 - x.start) % 2 ^ 64 : Nat) : Int)
      else (((x.start + 2 ^ 64 - n * 64) % 2 ^ 64 : Nat) : Int)
    let st : Int := if 0 < x.stride then x.stride else -x.stride
    if d % st = 0 ∧ d / st < x.count ∧ x.position < d / st then { x with position := d / st } else x) x

/-- The virtual lines of some lanes' ranges. -/
def virtualLines (rs : List (Nat × Nat × Nat)) : List Nat :=
  (rs.flatMap fun r => (List.range ((r.2.1 + r.2.2 - 1) / 64 + 1 - r.2.1 / 64)).map (r.2.1 / 64 + ·)).eraseDups

/-- A demand load or atomic moves the skein's streams (R193). -/
def Skein.touch (k : Skein) (rs : List (Nat × Nat × Nat)) : Skein :=
  { k with streams := k.streams.map fun x => x.touch (virtualLines rs) }

end Sys2Proof.Machine
end

