-- ==== Sys2Proof/Machine/Memory.lean ====
section
/-! DEFINITION. Loads and stores of the three spaces (R118 to R120, R205 to R207). -/

namespace Sys2Proof.Machine

/-- Bytes and slices of a memory width: code 000 is W (R63, R118). -/
def memBytes (w : Width) : Nat := if w = .i4 then 16 else w.bits / 8
def memSlices (w : Width) : Nat := 2 * memBytes w

/-- The number in some bytes of a lane's access. -/
def ReadView.num (v : ReadView) (as : List LaneAcc) (l : Nat) : Nat :=
  (as.find? (·.lane == l)).elim 0 fun a => ofBytesLE (v.bytes a)

/-- The result of a load: a long-latency write with the sets of what it read (R26, R31, R118). -/
def ReadView.write (v : ReadView) (la start n : Nat) (as : List LaneAcc) : Skein :=
  let set := v.i.rset ||| accSet as
  if v.i.p.em == 0 then v.i.wr start n (v.num as) set
  else v.i.wrLate la start n (v.num as) set (as.map LaneAcc.src)

/-- A load (R118, R207). R118 and R191 give a rejected policy and a misaligned address the same class without an order: the
policy is looked at first (log 25). -/
def loadOp (x : Instr) (sp : Space) (w : Width) (d : BitVec 8) (n : BitVec 5) (pol : Nat) (la : BitVec 4) (s : State) :
    Host.Outcome State Fault Refusal :=
  issue x s fun i => do
    let i ← i.operands [opdPair (8 * n.toNat) i.p.em, opdOut d.toNat (memSlices w)]
    let (pol, i) ← i.policy pol false
    i.aligned (memBytes w) (i.ea n)
    let rs := i.active.map fun l => (l, i.ea n l, memBytes w)
    let as ← i.map sp 1 needLoad rs
    let v ← i.load pol as
    let k := v.write (i.h.look la) d.toNat (memSlices w) as
    .ok (v.i.put (if sp == .g then k.touch rs else k))

/-- A store (R27, R119, R207). -/
def storeOp (x : Instr) (sp : Space) (w : Width) (d : BitVec 8) (n : BitVec 5) (pol : Nat) (s : State) :
    Host.Outcome State Fault Refusal :=
  issue x s fun i => do
    let i ← i.operands [opdPair (8 * n.toNat) i.p.em, opdIn d.toNat (memSlices w) i.p.em]
    let (_, i) ← i.policy pol true
    i.aligned (memBytes w) (i.ea n)
    let as ← i.map sp 2 needStore (i.active.map fun l => (l, i.ea n l, memBytes w))
    i.origin i.rset as
    i.hold true as
    .ok (i.put (i.store 16 as fun l => bytesLE (memBytes w) (i.raw l d.toNat (memSlices w))))

/-- LDG (R118, R205). -/
def execLdg (w : Width) (d : BitVec 8) (n : BitVec 5) (pol la : BitVec 4) (s : State) : Host.Outcome State Fault Refusal :=
  loadOp (.ldg w d n pol la) .g w d n pol.toNat la s

/-- STG (R119, R205). -/
def execStg (w : Width) (d : BitVec 8) (n : BitVec 5) (pol : BitVec 4) (s : State) : Host.Outcome State Fault Refusal :=
  storeOp (.stg w d n pol) .g w d n pol.toNat s

/-- LDS (R207). -/
def execLds (w : Width) (d : BitVec 8) (n : BitVec 5) (la : BitVec 4) (s : State) : Host.Outcome State Fault Refusal :=
  loadOp (.lds w d n la) .s w d n 0 la s

/-- LDC (R207). -/
def execLdc (w : Width) (d : BitVec 8) (n : BitVec 5) (la : BitVec 4) (s : State) : Host.Outcome State Fault Refusal :=
  loadOp (.ldc w d n la) .c w d n 0 la s

/-- STS (R207). -/
def execSts (w : Width) (d : BitVec 8) (n : BitVec 5) (s : State) : Host.Outcome State Fault Refusal :=
  storeOp (.sts w d n) .s w d n 0 s

/-- STC (R207). -/
def execStc (w : Width) (d : BitVec 8) (n : BitVec 5) (s : State) : Host.Outcome State Fault Refusal :=
  storeOp (.stc w d n) .c w d n 0 s

end Sys2Proof.Machine
end

