-- ==== Sys2Proof/Machine/Cache.lean ====
section
/-! DEFINITION. Fences, cache maintenance, run-ahead fetches and streams (R193, R204, R212 to R219, R394). -/

namespace Sys2Proof.Machine

/-- The split's outstanding loads land (R212). -/
def Iss.landOwn (i : Iss) : Iss :=
  let k := i.k.landThose (·.binds i.p)
  { i with k := k, s := i.put k }

/-- FENCE (R212, R239, R394). -/
def execFence (ord : BitVec 2) (sc : BitVec 3) (s : State) : Host.Outcome State Fault Refusal :=
  issue (.fence ord sc) s fun i => do
    let i ← i.landOwn.release (ord.getLsbD 1 && decide (1 ≤ sc.toNat))
    let i ← if sc == 4 && i.k.wbs.contains i.p.uid then do
        i.timely i.p.em
        match i.completion with
        | none => .error (.stall (.pcie i.p.em []))
        | some _ =>
          let j := i.consume
          let k := { j.k with wbs := j.k.wbs.filter (· != i.p.uid) }
          .ok { j with k := k, s := j.put k }
      else .ok i
    .ok (if ord.getLsbD 0 then i.s.acquire i.k.id sc.toNat else i.s)

/-- The 64-byte lines of an access, as physical line numbers with their memory types. -/
def LaneAcc.lines (a : LaneAcc) : List (Nat × Nat) :=
  a.parts.flatMap fun p => (List.range (p.n / 64)).map fun j => (p.loc.addr / 64 + j, p.type)

/-- The ranges of the active lanes, cut at whole lines: lane, address and bytes (R213). -/
def Iss.ranges (i : Iss) (x y : Nat) : List (Nat × Nat × Nat) :=
  (i.active.filter fun l => i.raw l y 8 != 0).map fun l =>
    let a := i.raw l x 16
    (l, a / 64 * 64, (a + i.raw l y 8 + 63) / 64 * 64 - a / 64 * 64)

/-- The operands and the limits of a range instruction (R213). -/
def Iss.rangeOperands (i : Iss) (x y : BitVec 8) : Res Iss := do
  let i ← i.operands [opdPair x.toNat i.p.em, opdIn y.toNat 8 i.p.em]
  let bad := i.lanesWith fun l => decide (262144 < i.raw l y.toNat 8) || decide (2 ^ 64 < i.raw l x.toNat 16 + i.raw l y.toNat 8)
  i.need (bad == 0) (dnr 2 4) bad
  .ok i

/-- A core's own copies of a line are dropped. -/
def Core.drop (c : Core) (line : Nat) : Core := { c with l1 := l1Drop c.l1 line }

/-- A request is passed by an INVAL of a line that it reads (R244). -/
def PReq.pass (r : PReq) (line : Nat) : PReq := if r.lines.any (·.1 == line) then { r with gone := line :: r.gone } else r

/-- CLEAN and INVAL of one line; a write-back that they start is awaited by the split's next FENCE.SY (R213, R214). An INVAL of
a PCIe line leaves no copy of it on the die, nor does a request in flight bring one: R244 promises every core of the die the host's
write after it (R428, log 40). -/
def State.maintain (s : State) (core line type : Nat) (inval : Bool) : State :=
  if type == 2 then
    if inval then
      let t := s.pdrop (core / 64) line
      { t with
        cores := t.cores.mapIdx fun n c => if n / 64 == core / 64 then c.drop line else c,
        skeins := t.skeins.map fun k => if k.die == core / 64 then { k with preqs := k.preqs.map (·.pass line) } else k }
    else s.pclean (core / 64) line
  else if inval then s.modCore core fun c => c.drop line else s

/-- The die's copy of a line is dirty (R214). -/
def State.pdirty (s : State) (die line : Nat) : Bool := (s.pline? die line).elim false (·.dirty != 0)

/-- CLEAN and INVAL (R213 to R215). The split's own earlier stores to the lines are performed first (R231). -/
def maintainOp (z : Instr) (x y : BitVec 8) (inval : Bool) (s : State) : Host.Outcome State Fault Refusal :=
  issue z s fun i => do
    let i ← i.rangeOperands x y
    let as ← i.mapG 4 needLoad (i.ranges x.toNat y.toNat)
    let ls := (as.flatMap LaneAcc.lines).eraseDups
    let i ← i.flushIf fun e => e.loc.sp == .g && ls.any fun n => e.loc.addr / 64 == n.1
    let wb := ls.any fun n => n.2 == 2 && i.s.pdirty i.k.die n.1
    let k := if wb then { i.k with wbs := i.p.uid :: i.k.wbs } else i.k
    .ok (ls.foldl (fun t n => t.maintain i.k.coreId n.1 n.2 inval) (i.put k))

/-- CLEAN (R213). -/
def execClean (x y : BitVec 8) (s : State) : Host.Outcome State Fault Refusal := maintainOp (.clean x y) x y false s

/-- INVAL (R213). -/
def execInval (x y : BitVec 8) (s : State) : Host.Outcome State Fault Refusal := maintainOp (.inval x y) x y true s

/-- ICINV (R213, R217). -/
def execIcinv (x y : BitVec 8) (s : State) : Host.Outcome State Fault Refusal :=
  issue (.icinv x y) s fun i => do
    let i ← i.rangeOperands x y
    let as ← i.mapG 4 needCode (i.ranges x.toNat y.toNat)
    let ls := (as.flatMap LaneAcc.lines).map (·.1)
    .ok (i.s.modCore i.k.coreId fun c =>
      { c with ic := c.ic.filter fun q => !ls.contains q.line, fills := c.fills.filter fun q => !ls.contains q.line })

/-- IBAR (R216). -/
def execIbar (s : State) : Host.Outcome State Fault Refusal :=
  issue .ibar s fun i =>
    .ok (i.s.modCore i.k.coreId fun c => if i.k.port % 2 = 0 then { c with fetch0 := [] } else { c with fetch1 := [] })

/-! ## Run-ahead fetches (R204) -/

/-- A run-ahead fetch is dropped and counted. -/
def State.dropAhead (s : State) (core : Nat) : State := s.modCore core fun c => { c with drops := satInc c.drops }

/-- A line fetched into the L1 and the L2, or into the instruction cache; a copy already there stays. -/
def State.fetchInto (s : State) (core line : Nat) (code : Bool) : State :=
  let bytes := s.homeLine (core / 64) line
  s.modCore core fun c =>
    if code then
      if c.ic.any (·.line == line) || c.fills.any (·.line == line) then c else { c with fills := ⟨line, bytes⟩ :: c.fills }
    else if c.l1.any (·.line == line) then c
    else c.addL1 ⟨line, bytes⟩ (s.spadUsed core) (Config.freeWay s.free)

/-- What becomes of a run-ahead fetch of a line: its page also ends the range of a PREF or an IPREF, it is only dropped, or the
line at a physical address is fetched (R204, R215). -/
inductive Ahead where
  | ends
  | drops
  | line (pa : Nat)
  deriving DecidableEq, Repr, Inhabited

/-- The outcome of a run-ahead fetch at a virtual address (R204, R215). -/
def State.ahead (s : State) (c : Context) (need : Need) (va : Nat) : Ahead :=
  match s.translate c va with
  | .unmapped | .malformed => .ends
  | .leaf l => if !l.permits need then .ends else if !c.mayRead l.set || l.type == 2 then .drops else .line l.pa

/-- The physical line that a run-ahead fetch may read, none when R204 drops it. -/
def State.aheadPa (s : State) (c : Context) (need : Need) (va : Nat) : Option Nat :=
  match s.ahead c need va with
  | .line pa => some pa
  | .ends | .drops => none

/-- The error of a line that is fetched ahead is counted (R204). -/
def State.countAhead (s : State) (core line : Nat) : State :=
  let l := locG (line * 64)
  let l := if s.failedAt l then l else { l with addr := l.addr + 32 }
  s.countError core l.addr (s.failLevel l)

/-- The lines of one range fetched ahead one after another, to the page that ends it; a line of the union that has been acted on
before is not acted on again, and a line that is dropped, or holds an error, is counted (R204, R213, R215). -/
def State.fetchLines (s : State) (c : Context) (core : Nat) (need : Need) (done : List Nat) : List Nat → State × List Nat
  | [] => (s, done)
  | va :: t =>
    let first := !done.contains va
    match s.ahead c need va with
    | .ends => (if first then s.dropAhead core else s, va :: done)
    | .drops => (if first then s.dropAhead core else s).fetchLines c core need (va :: done) t
    | .line pa =>
      (if !first then s else if s.failedLine (pa / 64) then s.countAhead core (pa / 64)
        else s.fetchInto core (pa / 64) need.ex).fetchLines c core need (va :: done) t

/-- The ranges of several lanes fetched ahead, each line of their union once (R213). Where several ranges end at one line of a
bad page one drop is counted, R215 giving no number (log 27). -/
def State.fetchRanges (s : State) (c : Context) (core : Nat) (need : Need) (done : List Nat) : List (Nat × Nat) → State
  | [] => s
  | r :: t =>
    let x := s.fetchLines c core need done ((List.range (r.2 / 64)).map fun j => r.1 + 64 * j)
    x.1.fetchRanges c core need x.2 t

/-- PREF and IPREF over the union of the ranges (R213, R215). -/
def prefetch (z : Instr) (x y : BitVec 8) (need : Need) (s : State) : Host.Outcome State Fault Refusal :=
  issue z s fun i => do
    let i ← i.rangeOperands x y
    .ok (i.s.fetchRanges (i.s.ctxOf i.k) i.k.coreId need [] (((i.ranges x.toNat y.toNat).map (·.2)).eraseDups))

/-- PREF (R213). -/
def execPref (x y : BitVec 8) (s : State) : Host.Outcome State Fault Refusal := prefetch (.pref x y) x y needLoad s

/-- IPREF (R213). -/
def execIpref (x y : BitVec 8) (s : State) : Host.Outcome State Fault Refusal := prefetch (.ipref x y) x y needCode s

/-! ## Streams -/

/-- The stream slots in use on a core (R193). -/
def State.streamSlots (s : State) (core : Nat) : List Nat :=
  (s.skeins.filter (·.coreId == core)).flatMap fun k => k.streams.map (·.slot)

/-- A STREAM argument is within its limits (R218). -/
def streamOk (stride : Int) (ctl : Nat) : Bool :=
  stride != 0 && stride % 64 == 0 && bitsOf ctl 0 16 != 0 && bitsOf ctl 20 12 == 0

/-- STREAM (R218). -/
def execStream (x y : BitVec 8) (la : BitVec 4) (s : State) : Host.Outcome State Fault Refusal :=
  issue (.stream x y la) s fun i => do
    let top := topLane i.p.em id
    let i ← i.operands [⟨x.toNat, 32, 32, top, true, false⟩, opdOut y.toNat 1]
    if i.p.em == 0 then .ok i.s
    else do
      let h := highest i.p.em
      let start := i.raw h x.toNat 16 / 64 * 64
      let stride := signed 32 (i.raw h (x.toNat + 16) 8)
      let ctl := i.raw h (x.toNat + 24) 8
      i.need (streamOk stride ctl) (dnr 2 4) i.p.em
      let (pol, i) ← i.policy (bitsOf ctl 16 4) false
      let used := i.s.streamSlots i.k.coreId
      let slot := (List.range 32).find? fun n => !used.contains n
      let handle := (List.range 2).find? fun n => !i.k.streams.any (·.handle == n)
      match slot, handle with
      | some n, some m =>
        let k := i.wrLate (i.h.look la) y.toNat 1 (fun _ => m) i.rset []
        .ok (i.put { k with streams := k.streams ++ [⟨m, n, start, stride, bitsOf ctl 0 16, 0, -1, pol⟩] })
      | _, _ => .ok (i.put (i.wrLate (i.h.look la) y.toNat 1 (fun _ => stNoSlot) i.rset []))

/-- STREAMX (R219). -/
def execStreamx (y : BitVec 8) (s : State) : Host.Outcome State Fault Refusal :=
  issue (.streamx y) s fun i => do
    let i ← i.operands [opdIn y.toNat 1 (topLane i.p.em id)]
    let h := i.raw (highest i.p.em) y.toNat 1
    if i.p.em == 0 || h == stNoSlot then .ok i.s
    else do
      i.need (decide (h ≤ 1)) (dnr 2 4) i.p.em
      .ok (i.put { i.k with streams := i.k.streams.filter (·.handle != h) })

end Sys2Proof.Machine
end

