-- ==== Sys2Proof/Machine/Control.lean ====
section
/-! DEFINITION. Control transfers, divergence and yielding (R112 to R117, R130 to R136, R154 to R157). -/

namespace Sys2Proof.Machine

/-- The target of a displacement (R114). -/
def Iss.disp (i : Iss) (d : BitVec 18) : Addr := i.pc + 4 * d.signExtend 64

/-- The split continues at an address. -/
def Skein.jump (k : Skein) (uid : Nat) (pc : Addr) : Skein := k.modSplit uid fun p => { p with pc := pc }

/-- BRA (R114). -/
def execBra (disp : BitVec 18) (s : State) : Host.Outcome State Fault Refusal :=
  issue (.bra disp) s fun i => .ok (i.put (i.k.jump i.p.uid (i.disp disp)))

/-- The conditional branches: taken when bit 0 of a uniform predicate is `sense` (R113, R115). -/
def branch (x : Instr) (p : BitVec 8) (disp : BitVec 18) (sense : Bool) (s : State) : Host.Outcome State Fault Refusal :=
  issue x s fun i => do
    let i ← i.operands [opdIn p.toNat 1 i.p.em]
    let ones := maskOf fun l => inMask i.p.em l && i.bit0 l p.toNat
    i.need (ones == 0 || ones == i.p.em) (dnr 2 3) ones
    let k := i.k.joinCo i.rd
    .ok (i.put (if i.p.em != 0 && (ones != 0) == sense then k.jump i.p.uid (i.disp disp) else k))

/-- BZ (R115). -/
def execBz (p : BitVec 8) (disp : BitVec 18) (s : State) : Host.Outcome State Fault Refusal :=
  branch (.bz p disp) p disp false s

/-- BNZ (R115). -/
def execBnz (p : BitVec 8) (disp : BitVec 18) (s : State) : Host.Outcome State Fault Refusal :=
  branch (.bnz p disp) p disp true s

/-- CALL (R116). -/
def execCall (d : BitVec 8) (disp : BitVec 18) (s : State) : Host.Outcome State Fault Refusal :=
  issue (.call d disp) s fun i => do
    let i ← i.operands [opdOut d.toNat 16]
    .ok (i.put ((i.wr d.toNat 16 (fun _ => (i.pc + 4).toNat) i.p.co).jump i.p.uid (i.disp disp)))

/-- The uniform aligned target held in a pair, none with no active lane. R117 gives a target that is both not uniform and
misaligned two details without an order: not uniform comes first (log 25). -/
def Iss.target (i : Iss) (a : Nat) : Res (Option Addr) :=
  match i.active with
  | [] => .ok none
  | l :: _ =>
    let t := i.raw l a 16
    let bad := maskOf fun j => inMask i.p.em j && i.raw j a 16 != t
    if bad != 0 then i.trap (dnr 2 3) bad
    else if t % 4 != 0 then i.trap (dnr 2 2) i.p.em
    else .ok (some (BitVec.ofNat 64 t))

/-- A transfer to the address held in a pair, with a link or without (R113, R117). -/
def transfer (x : Instr) (d : Option Nat) (a : BitVec 8) (s : State) : Host.Outcome State Fault Refusal :=
  issue x s fun i => do
    let i ← i.operands (opdIn a.toNat 16 i.p.em :: (d.elim [] fun d => [opdOut d 16]))
    match ← i.target a.toNat with
    | none => .ok (i.put (i.k.joinCo i.rd))
    | some t =>
      let k := d.elim i.k fun d => i.wr d 16 (fun _ => (i.pc + 4).toNat) i.rset
      .ok (i.put ((k.joinCo i.rd).jump i.p.uid t))

/-- RET (R117). -/
def execRet (a : BitVec 8) (s : State) : Host.Outcome State Fault Refusal := transfer (.ret a) none a s

/-- JMPI (R117). -/
def execJmpi (a : BitVec 8) (s : State) : Host.Outcome State Fault Refusal := transfer (.jmpi a) none a s

/-- CALLI (R117). -/
def execCalli (d a : BitVec 8) (s : State) : Host.Outcome State Fault Refusal := transfer (.calli d a) (some d.toNat) a s

/-- NOP (R117). -/
def execNop (s : State) : Host.Outcome State Fault Refusal := issue .nop s fun i => .ok i.s

/-! ## The reconvergence stack -/

/-- Freed slots at the top are reclaimed (R134). -/
def trimStack (l : List StackSlot) : List StackSlot := (l.reverse.dropWhile fun e => !e.used).reverse

/-- SPLIT on the taken lanes (R132). R130 gives bits [63:2] of the rejoin PC only for an entry whose PC is bound; in an open one they are 0, the
model's choice, which DBG-READ shows (log 35). -/
def Skein.divide (k : Skein) (p : Split) (taken : Mask) (target : Addr) (x : OSet) (now : Nat) : Skein :=
  let n := k.stack.length
  let e : StackSlot := { used := true, pc := 0, opened := true, rejoin := p.members, arrived := 0, em := p.em,
                         taken := taken, takenPc := target, fr := p.fr, co := p.co, parent := p.inner }
  let fall := p.members &&& ~~~taken
  let f := { p with members := fall, em := p.em &&& fall, co := p.co ||| x, inner := some n }
  let t := { p with uid := k.nextUid, pc := target, members := taken, em := taken, co := p.co ||| x, inner := some n,
                    since := now, yielded := none, st := .ready }
  { k.inherit [p.uid] k.nextUid false with
    stack := k.stack ++ [e],
    nextUid := k.nextUid + 1,
    cur := if fall == 0 then some k.nextUid else k.cur,
    splits := (k.splits.filter (·.uid != p.uid)) ++ (if fall == 0 then [] else [f]) ++ (if taken == 0 then [] else [t]) }

/-- SPLIT (R132, R154). -/
def execSplit (p : BitVec 8) (disp : BitVec 18) (s : State) : Host.Outcome State Fault Refusal :=
  issue (.split p disp) s fun i => do
    let i ← i.operands [opdIn p.toNat 1 i.p.em]
    i.need (decide (i.k.stack.length < 256)) (dnr 2 5) i.p.em
    let taken := maskOf fun l => inMask i.p.em l && i.bit0 l p.toNat
    .ok (i.put (i.k.divide i.p taken (i.disp disp) i.rd i.s.issueTicks))

/-- Every split of the skein sees the stores of some splits from now on (R239). -/
def Skein.seeAll (k : Skein) (uids : List Nat) : Skein :=
  { k with stores := k.stores.map fun e =>
      if e.owners.any uids.contains then { e with seen := e.seen ++ k.splits.map (·.uid) } else e }

/-- An entry completes when its arrived mask equals its rejoin mask (R134). What the merged paths stored counts as the
merged split's own from then on, and every split of the skein sees it (R155, R239). -/
def Skein.complete (k : Skein) (now : Nat) (n : Nat) : Skein :=
  match k.stack[n]? with
  | none => k
  | some e =>
    if !e.used || e.arrived != e.rejoin then k
    else
      let stack := trimStack (k.stack.set n { e with used := false })
      if e.rejoin == 0 then { k with stack := stack }
      else
        let m : Split := { uid := k.nextUid, pc := e.pc + 4, members := e.arrived, em := e.em &&& e.arrived, fr := e.fr,
                           co := e.co, inner := e.parent, st := .ready, since := now, yielded := none,
                           hints := Hints.empty, stub := none }
        let gone (p : Split) : Bool := p.inner == some n && p.st == .joinWait true
        let uids := (k.splits.filter gone).map (·.uid)
        { (k.seeAll uids).inherit uids k.nextUid false with
          stack := stack, nextUid := k.nextUid + 1, cur := some k.nextUid,
          splits := (k.splits.filter fun p => !gone p) ++ [m] }

/-- JOIN (R133, R155). -/
def execJoin (s : State) : Host.Outcome State Fault Refusal :=
  issue .join s fun i =>
    match i.p.inner with
    | none => i.trap (dnr 2 5) i.p.members
    | some n =>
      let e := i.k.stack.getD n default
      let here := e.opened || e.pc == i.pc
      let k := i.k.modSplit i.p.uid fun p => { p with st := .joinWait here }
      if here then
        let k1 := { k with stack := k.stack.set n { e with opened := false, pc := i.pc, arrived := e.arrived ||| i.p.members } }
        .ok (i.put (k1.complete i.s.issueTicks n))
      else .ok (i.put k)

/-- The entries of a chain, innermost first (R135). -/
def Skein.chain (k : Skein) : Nat → Option Nat → List Nat
  | 0, _ => []
  | _, none => []
  | f + 1, some n => n :: k.chain f (k.stack.getD n default).parent

/-- EXIT of a split: its members leave every entry of its chain, and the entries that this completes complete, innermost
first (R135). The step bit's current split follows R373, and the skein's streams end with it (R193, R218). -/
def Skein.exit (k : Skein) (p : Split) (now : Nat) : Skein :=
  let ch := k.chain 256 p.inner
  let leave (n : Nat) (e : StackSlot) : StackSlot :=
    if ch.contains n then { e with rejoin := e.rejoin &&& ~~~p.members } else e
  let k1 : Skein := { k with splits := k.splits.filter (·.uid != p.uid), stack := k.stack.mapIdx leave }
  let k2 := ch.foldl (fun k n => k.complete now n) k1
  let ready := k2.splits.filter (·.st == .ready)
  { k2 with
    streams := if k2.splits.isEmpty then [] else k2.streams,
    cur := ((if ready.isEmpty then k2.splits else ready).foldl Split.lower none).map (·.uid) }

/-- EXIT: what its arrivals release is all that the skein has stored (R135, R156, R170, R172). -/
def execExit (s : State) : Host.Outcome State Fault Refusal :=
  issue .exit s fun i => do
    let i ← if i.s.exitArrives (i.k.exit i.p i.s.issueTicks) then i.releaseIf (fun _ => true) true else .ok i
    let k := i.k.exit i.p i.s.issueTicks
    .ok ((i.put k).exitBars k)

/-- The other splits that are READY on the port of an issuing split (R157). -/
def Iss.others (i : Iss) : List (Nat × Nat) :=
  (i.s.skeins.filter fun k => k.port == i.k.port && k.stop.isNone).flatMap fun k =>
    (k.splits.filter fun p => p.st == .ready && !(k.id == i.k.id && p.uid == i.p.uid)).map fun p => (k.id, p.uid)

/-- YIELD (R157). -/
def execYieldI (s : State) : Host.Outcome State Fault Refusal :=
  issue .yieldI s fun i =>
    .ok (i.put (i.k.modSplit i.p.uid fun p => { p with yielded := some (i.others, i.s.issueTicks + 64) }))

end Sys2Proof.Machine
end

