-- ==== Sys2Proof/Machine/Basket.lean ====
section
/-! DEFINITION. Baskets and their three instructions (R293 to R297, R318 to R323). -/

namespace Sys2Proof.Machine

/-- The cluster, generation, reserved bits and slot of a handle (R293). -/
def hCluster (v : Nat) : Nat := bitsOf v 24 8
def hGen (v : Nat) : Nat := bitsOf v 8 16
def hRest (v : Nat) : Nat := bitsOf v 6 2
def hSlot (v : Nat) : Nat := bitsOf v 0 6

/-- A handle built from its fields (R293). -/
def handleMake (cl gen slot : Nat) : Nat := cl * 2 ^ 24 + gen * 2 ^ 8 + slot

/-- A slot of a cluster's basket controller. -/
def State.basket (s : State) (cl slot : Nat) : Basket := (s.cluster cl).baskets.getD slot Basket.reset

/-- One slot changed. -/
def State.modBasket (s : State) (cl slot : Nat) (f : Basket → Basket) : State :=
  s.modCluster cl fun c => { c with baskets := c.baskets.modify slot f }

/-- The handle has a reserved bit set, another generation than the slot's, or names a FREE slot (R295). -/
def State.staleHandle (s : State) (v : Nat) : Bool :=
  let b := s.basket (hCluster v) (hSlot v)
  hRest v != 0 || decide (192 ≤ hCluster v) || b.gen.toNat != hGen v || b.st == .free

/-- The skein is within the basket's scope (R295). -/
def Basket.inScope (b : Basket) (cl : Nat) (k : Skein) : Bool :=
  b.ctx == k.ctx &&
    (if b.scope = 0 then b.owner == (k.grid, k.block) else if b.scope = 1 then k.cluster == cl else true)

/-- Slices of an entry in each lane (R294). -/
def Basket.perLane (b : Basket) : Nat := b.e / 16

/-- The entry's slices in one lane (R294). -/
def entryLane (n entry l : Nat) : Nat := bitsOf entry (4 * n * l) (4 * n)

/-- The splits HELD in QPOP on a slot and not stopped, as skein, split and moment of the hold (R322). -/
def State.waiters (s : State) (cl slot : Nat) : List (Nat × Nat × Nat) :=
  s.skeins.flatMap fun k =>
    if k.stop.isSome then []
    else k.splits.filterMap fun p => match p.st with
      | .held (.qpop c n _ _ _ _ _) => if c == cl && n == slot then some (k.id, p.uid, p.since) else none
      | _ => none

/-- The one HELD longest. Of several HELD since one cycle the first of the list is taken: QPUSH and the sorter name none
(R321, R339, log 43). -/
def longest : List (Nat × Nat × Nat) → Option (Nat × Nat × Nat)
  | [] => none
  | x :: t => match longest t with
    | none => some x
    | some y => if y.2.2 < x.2.2 then some y else some x

/-- A HELD QPOP ends: with an entry its slices are written, then the status, and it is an acquire at the basket's scope
(R322). -/
def State.popEnds (s : State) (sid uid : Nat) (code : Nat) (entry : Option (Nat × OSet)) : State :=
  match s.skein? sid with
  | none => s
  | some k =>
    match k.split? uid with
    | none => s
    | some p =>
      match p.st with
      | .held (.qpop cl slot _ x h set la) =>
        let b := s.basket cl slot
        let n := b.perLane
        let all := set ||| entry.elim 0 (·.2)
        let w (k : Skein) (start n : Nat) (v : Nat → Nat) : Skein :=
          k.writePend uid (p.pc - 4) (p.pc - 4) la la p.em (regsOf start n) (sliceMask start n) (imageOf start n v) (fun _ => all) []
        let k1 := entry.elim k fun e => w k x n (entryLane n e.1)
        let k2 := (w k1 (h + 8) 8 fun _ => code).modSplit uid fun p => { p with st := .ready }
        let t := s.setSkein k2
        if entry.isSome then t.acquire sid (b.scope + 1) else t
      | _ => s

/-- The split waits on a slot: HELD in QPOP, or STALLED in QPUSH also while its skein was stopped (R137, R296). -/
def Split.waitsOn (p : Split) (cl slot : Nat) : Bool :=
  p.pushing == some (cl, slot) || match p.st with
    | .held (.qpop c n _ _ _ _ _) => c == cl && n == slot
    | .stalled (.basket c n _) => c == cl && n == slot
    | _ => false

/-- Some split, of a resident skein or a saved one, waits on a slot (R296, R368). -/
def State.basketAwaited (s : State) (cl slot : Nat) : Bool :=
  (s.skeins.any fun k => k.splits.any (·.waitsOn cl slot)) ||
    s.ctxs.any fun c => c.saved.any fun k => k.splits.any (·.waitsOn cl slot)

/-- A slot that no split waits on any longer becomes FREE, its storage zeroed (R296, R443). -/
def State.settleBasket (s : State) (cl slot : Nat) : State :=
  let b := s.basket cl slot
  if b.st != .retiring || s.basketAwaited cl slot then s
  else
    let t := s.modBasket cl slot fun b => { b with st := .free, ring := [] }
    match if b.scope == 0 then t.block? b.owner.1 b.owner.2 else none with
    | none => t
    | some x => t.setBlock { x with cells := cellsClear x.cells b.off (b.n * b.e) }

/-- OPEN becomes RETIRING: every HELD QPOP leaves with GONE, and a stage of the basket becomes invalid (R296, R338). -/
def State.retireBasket (s : State) (cl slot : Nat) : State :=
  if (s.basket cl slot).st != .opened then s
  else
    let h := BitVec.ofNat 32 (handleMake cl (s.basket cl slot).gen.toNat slot)
    let t := s.modBasket cl slot fun b => { b with st := .retiring, ring := [] }
    let drop (c : Cluster) : Cluster := { c with
      stages := c.stages.map fun x => if x.valid && x.handle == h then { x with valid := false } else x }
    let t : State := { t with clusters := t.clusters.map drop }
    ((t.waiters cl slot).foldl (fun t w => t.popEnds w.1 w.2.1 stGone none) t).settleBasket cl slot

/-- The baskets that satisfy a test are retired (R296). -/
def State.retireBaskets (s : State) (f : Basket → Bool) : State :=
  (List.range s.clusters.length).foldl (fun t cl =>
    (List.range 64).foldl (fun t n => if f (t.basket cl n) then t.retireBasket cl n else t) t) s

/-- A split HELD in QPOP while its skein was stopped looks at its basket again once the skein runs (R296, R322). -/
def State.recheckPop (s : State) (sid uid : Nat) : State :=
  match (s.skein? sid).bind (·.split? uid) with
  | none => s
  | some p => match p.st with
    | .held (.qpop cl slot gen _ _ _ _) =>
      let b := s.basket cl slot
      if b.st != .opened || b.gen.toNat != gen then (s.popEnds sid uid stGone none).settleBasket cl slot
      else match b.ring with
        | [] => s
        | e :: rest => (s.modBasket cl slot fun b => { b with ring := rest }).popEnds sid uid stOk (some e)
    | _ => s

/-- Every HELD QPOP of a skein looks again. -/
def State.recheckPops (s : State) (sid : Nat) : State :=
  ((s.skein? sid).elim [] fun k => k.splits.map (·.uid)).foldl (fun t u => t.recheckPop sid u) s

/-- The status word, in every active lane (R318, R319). -/
def Iss.qstatus (i : Iss) (la y code : Nat) (set : OSet) : Skein := i.wrLate la (y + 8) 8 (fun _ => code) set []

/-- The operands of a basket instruction: the handle in the highest active lane, the status register (R318). -/
def Iss.basketOperands (i : Iss) (y : Nat) : Res Iss :=
  i.operands [⟨y, 8, 16, topLane i.p.em id, true, false⟩, opdOut (y + 8) 8]

/-- Checks 1 to 3 of R320 for QPUSH and QPOP: the issue with the entry's slices checked, the handle and its basket. R87 moves
only the window check of those slices behind the handle's; that their LOOKAHEAD check stands there too is the model's choice
(log 11). -/
def Iss.basketChecked (i : Iss) (v x : Nat) (read : Bool) : Res (Iss × Basket) := do
  let b := i.s.basket (hCluster v) (hSlot v)
  i.need (!i.s.staleHandle v && b.inScope (hCluster v) i.k) (dnr 9 0) i.p.em
  let j ← i.operands [⟨x, b.perLane, 1, if read then 0xFFFFFFFF#32 else 0, read, !read⟩]
  .ok (j, b)

/-- The entry pushed: to the split HELD longest in QPOP, or into the ring (R321). -/
def State.pushEntry (s : State) (cl slot : Nat) (e : Nat × OSet) : State :=
  match longest (s.waiters cl slot) with
  | some w => s.popEnds w.1 w.2.1 stOk (some e)
  | none => s.modBasket cl slot fun b => { b with ring := b.ring ++ [e] }

/-- QPUSH (R294, R320, R321). -/
def execQpush (x y : BitVec 8) (la : BitVec 4) (s : State) : Host.Outcome State Fault Refusal :=
  issue (.qpush x y la) s fun i => do
    let i ← i.basketOperands y.toNat
    if i.p.em == 0 then .ok i.s
    else do
      let v := i.raw (highest i.p.em) y.toNat 8
      let hset := i.rset
      let (i, b) ← i.basketChecked v x.toNat true
      i.need (i.rset.subset b.set) (dnr 5 0) i.p.em
      if b.st == .retiring then
        .ok ((i.put (i.qstatus (i.h.look la) y.toNat stGone hset)).settleBasket (hCluster v) (hSlot v))
      else if (i.s.waiters (hCluster v) (hSlot v)).isEmpty && decide (b.n ≤ b.ring.length) then
        .error (.stall (.basket (hCluster v) (hSlot v) b.gen.toNat))
      else do
        let i ← i.release true
        let n := b.perLane
        let e := laneIds.foldl (fun a l => a + i.raw l x.toNat n * 2 ^ (4 * n * l)) 0
        .ok ((i.put (i.qstatus (i.h.look la) y.toNat stOk hset)).pushEntry (hCluster v) (hSlot v) (e, i.rset))

/-- The oldest entry popped at issue: its slices, then the status (R322, R323). -/
def Iss.popNow (i : Iss) (la v x y : Nat) (b : Basket) (e : Nat × OSet) : State :=
  let set := i.rset ||| e.2
  let n := b.perLane
  let k1 := i.wrLate la x n (entryLane n e.1) set []
  let k2 := Iss.qstatus { i with k := k1 } la y stOk set
  ((i.put k2).modBasket (hCluster v) (hSlot v) fun b => { b with ring := b.ring.drop 1 }).acquire i.k.id (b.scope + 1)

/-- QPOP (R320, R322). -/
def execQpop (x y : BitVec 8) (la : BitVec 4) (s : State) : Host.Outcome State Fault Refusal :=
  issue (.qpop x y la) s fun i => do
    let i ← i.basketOperands y.toNat
    if i.p.em == 0 then .ok i.s
    else do
      let v := i.raw (highest i.p.em) y.toNat 8
      let (i, b) ← i.basketChecked v x.toNat false
      if b.st == .retiring then .ok (i.put (i.qstatus (i.h.look la) y.toNat stGone i.rset))
      else match b.ring with
        | e :: _ => .ok (i.popNow (i.h.look la) v x.toNat y.toNat b e)
        | [] => .ok (i.put (i.k.modSplit i.p.uid fun p => { p with
            st := .held (.qpop (hCluster v) (hSlot v) b.gen.toNat x.toNat y.toNat i.rset (i.h.look la)) }))

/-- QTRY (R320, R323). -/
def execQtry (x y : BitVec 8) (la : BitVec 4) (s : State) : Host.Outcome State Fault Refusal :=
  issue (.qtry x y la) s fun i => do
    let i ← i.basketOperands y.toNat
    if i.p.em == 0 then .ok i.s
    else
      let v := i.raw (highest i.p.em) y.toNat 8
      let b := i.s.basket (hCluster v) (hSlot v)
      let only (code : Nat) : State := i.put (i.qstatus (i.h.look la) y.toNat code i.rset)
      if i.s.staleHandle v then .ok (only stStale)
      else if !b.inScope (hCluster v) i.k then .ok (only stScope)
      else do
        let (i, b) ← i.basketChecked v x.toNat false
        if b.st == .retiring then .ok (i.put (i.qstatus (i.h.look la) y.toNat stGone i.rset))
        else match b.ring with
          | e :: _ => .ok (i.popNow (i.h.look la) v x.toNat y.toNat b e)
          | [] => .ok (i.put (i.qstatus (i.h.look la) y.toNat stEmpty i.rset))

end Sys2Proof.Machine
end

