-- ==== Sys2Proof/Machine/Place.lean ====
section
/-! DEFINITION. The state of a block and of its skeins at placement (R15, R28, R123 to R126, R141, R148, R168, R182, R263,
R276, R285, R332). -/

namespace Sys2Proof.Machine

/-- The only split of a skein at placement (R126, R128, R263). -/
def Split.fresh (pc : Addr) (members : Mask) (co : OSet) (since : Nat) : Split :=
  ⟨0, pc, members, members, 0, co, none, .ready, since, none, Hints.empty, none, none, none⟩

/-- A skein at placement: every slice 0, every set the tenant bit, the first split at the entry (R15, R126, R276). -/
def Skein.fresh (id ctx grid blk num window tenant : Nat) (pc : Addr) (members : Mask) (co : OSet) (since : Nat) : Skein :=
  { id := id, ctx := ctx, grid := grid, block := blk, num := num, window := window,
    lanes := List.replicate 32 0, sets := List.replicate 32 (tenantBit tenant), swlo := 0, lfm := 0, lfmSet := 0,
    stack := [], splits := [Split.fresh pc members co since], nextUid := 1, cur := none, pend := [], stores := [],
    streams := [], lastW := 0, lastM := 0, cmds := [], mq := [], faults := [], preqs := [], wbs := [], stop := none, recipe := none,
    removed := [] }

/-- A k register at placement (R141). -/
def KReg.fresh (v : BitVec 32) (set : OSet) : KReg := ⟨[v], set, none, 0, []⟩

/-- A block barrier at placement of n skeins (R168). -/
def Bar.fresh (n : Nat) : Bar :=
  ⟨0, n, n, 0, (List.range 32).map fun i => ⟨decide (i < n), false, false, 0⟩⟩

/-- An unclaimed bay (R285). -/
def Bay.fresh : Bay := ⟨none, 0, 0, 0, 32, 0, none⟩

/-- An unclaimed tile (R285). -/
def Tile.fresh : Tile := ⟨none, 0, 0⟩

/-- A block of a grid placed on a core in given slots (R141, R168, R182, R285, R332). -/
def Block.fresh (g : Grid) (num core : Nat) (slots : List Nat) : Block :=
  { grid := g.id, num := num, ctx := g.ctx, cluster := core / 8, core := core, n := g.skeins, slots := slots,
    ks := (List.range 64).map fun i => KReg.fresh (g.kinit.getD i 0) g.kset,
    bars := List.replicate 16 (Bar.fresh g.skeins), spad := g.spad, cells := [],
    spSets := List.replicate ((g.spad + 1023) / 1024) (tenantBit g.tenant ||| g.spo),
    bays := List.replicate g.bays Bay.fresh, tiles := List.replicate g.acc Tile.fresh, slices := g.slices, threads := none }

end Sys2Proof.Machine
end

