-- ==== Sys2Proof/Machine/Grid.lean ====
section
/-! DEFINITION. Grids: descriptors, acceptance, completion, the dispatcher's own accesses, the ending of a context, and
retirement (R51, R145 to R150, R328 to R332, R340, R346, R347, R350, R391 to R393, R401, R436, R441). -/

namespace Sys2Proof.Machine

/-! ## Virtual functions and completions (R391 to R393) -/

/-- A state that refuses new grids (R340). -/
def RunState.drains : RunState → Bool
  | .draining | .quiesced => true
  | .idle | .running => false

/-- The partition behaves as DRAINING, or is QUIESCED (R340). -/
def State.drains (s : State) (part : Nat) : Bool := (s.part part).st.drains || s.run.drains

/-- The flags of a function's device-specific configuration (R391). -/
def State.flagsOf (s : State) (v : VF) : BitVec 16 :=
  let b (x : Bool) (n : Nat) : BitVec 16 := if x then 1#16 <<< n else 0
  b (s.drains v.part) 0 ||| b (s.modSt == .degraded) 1 ||| b ((s.ctx? v.ctx).elim false (·.finished)) 2

/-- A vector of the function is raised: sent, or pending while the driver masks it in the MSI-X table (R390, R391, log 14). -/
def VF.raise (v : VF) (n : Nat) : VF :=
  if (v.msix.getD (16 * n + 12) 0).getLsbD 0 then { v with pba := v.pba ||| (1#64 <<< n) } else { v with vectors := v.vectors ++ [n] }

/-- The configuration-change vector, with its ISR bit (R391). -/
def VF.configChange (v : VF) : VF := { v with isr := v.isr ||| 2 }.raise 2

/-- A change of flags raises the configuration-change vector and advances config_generation (R391). -/
def State.refreshFlags (s : State) : State :=
  { s with vfs := s.vfs.map fun v =>
      if s.flagsOf v == v.flags then v else { v with flags := s.flagsOf v, cfgGen := v.cfgGen + 1 }.configChange }

/-- The mailbox or the sideband gives a command's answer to the path by which it came; Finwesin's own requests have none (R438,
R439). -/
def State.answerMgmt (s : State) (t : Ticket) (status : BitVec 16) (result : List Byte) (total : Nat) : State :=
  let done (m : Mailbox) : Mailbox :=
    { m with doorbell := false, status := status, rlen := result.length, rtotal := total, rtag := t.tag,
             data := result ++ m.data.drop result.length }
  let head := bytesLE 2 status.toNat ++ bytesLE 2 0 ++ bytesLE 4 result.length ++ bytesLE 4 total ++ bytesLE 8 t.tag.toNat
  if t.path < 2 then { s with mailboxes := s.mailboxes.modify t.path done }
  else if t.path = 2 then { s with sideband := s.sideband ++ [head ++ result] }
  else s

/-- The response of a request (R392). -/
def response (status : BitVec 16) (result : Nat) : List Byte :=
  bytesLE 2 status.toNat ++ List.replicate 6 0#8 ++ bytesLE 8 result

/-- A chain of queue 0 completes; after a reset nothing is written (R390, R392, R399). -/
def State.respond (s : State) (vf chain : Nat) (status : BitVec 16) (result : Nat) : State :=
  match s.vf? vf with
  | none => s
  | some v =>
    if v.stopped || !v.open0.contains chain then s
    else s.setVf (({ v with open0 := v.open0.filter (· != chain), used := v.used ++ [(chain, response status result)],
                            isr := v.isr ||| 1 } : VF).raise 0)

/-- A grid that completes with a non-zero code enters the fault log (R436). -/
def State.logFault (s : State) (g : Grid) (code : BitVec 16) (cl : Nat) : State :=
  let e : LogEntry := ⟨g.id, code, g.part, g.tenant, cl, (s.cluster cl).counter, s.loghead + 1⟩
  { s with log := (e :: s.log).take 256, loghead := s.loghead + 1 }

/-- The state of a partition or of the module once a grid has left it (R340). -/
def RunState.settle (x : RunState) (none : Bool) : RunState :=
  if !none then x else match x with
    | .running => .idle
    | .draining => .quiesced
    | .idle => .idle
    | .quiesced => .quiesced

/-- The partition or module of a DRAIN command is QUIESCED (R438). -/
def State.quiesced (s : State) (part : Nat) : Bool :=
  if part = 0xFF then s.run == .quiesced else (s.part part).st == .quiesced

/-- A DRAIN command completes once its target is QUIESCED, whatever has been served in between (R438, R439, log 36). -/
def State.finishDrain (s : State) : State :=
  (s.serving.filter fun x => s.quiesced x.2).foldl (fun t x => t.answerMgmt x.1 0 [] 0)
    { s with serving := s.serving.filter fun x => !s.quiesced x.2 }

/-- Partition and module follow the grids that remain (R340). -/
def State.settleRun (s : State) (part : Nat) : State :=
  let t := s.modPart part fun p => { p with st := p.st.settle (!s.grids.any (·.part == part)) }
  { t with run := t.run.settle t.grids.isEmpty }.finishDrain.refreshFlags

/-- A grid completes to its launcher and leaves (R146, R176, R350, R393). -/
def State.completeGrid (s : State) (g : Grid) (code : BitVec 16) (cl : Nat) : State :=
  let t : State := { s with grids := s.grids.filter (·.id != g.id) }
  let t := match g.origin with
    | .queue vf chain => t.respond vf chain code g.id
    | .finwesin | .child _ _ _ _ | .spawnOf _ => t
  (if code == 0 then t else t.logFault g code cl).settleRun g.part

/-! ## Ending a context (R350) -/

/-- The severity of a code's grade (R346, R350). -/
def severity (code : BitVec 16) : Nat := (code.extractLsb' 14 2).toNat |> fun g => match g with | 3 => 3 | 1 => 2 | 2 => 1 | _ => 0

/-- Frames of a context's storage commands in flight are quarantined; a buffered write that has not been submitted is in flight on no
frame (R399, R401). -/
def State.quarantine (s : State) (f : Nvme → Bool) : State :=
  { s with quarantined := (s.quarantined ++ (s.nvme.filter fun x => x.submitted && f x).flatMap (·.frames)).eraseDups }

/-- The pages of regions are freed and zeroed before another use, which makes their failed units sound (R349). -/
def State.soundRegions (s : State) (rs : List Region) : State :=
  let inside (f : FailedUnit) (r : Region) : Bool :=
    f.sp == .g && decide (r.frame * 2 ^ 16 ≤ f.unit * 32) && decide (f.unit * 32 < r.frame * 2 ^ 16 + r.len)
  { s with failedUnits := s.failedUnits.filter fun f => !rs.any (inside f) }

/-- The ending is complete: the engine commands are discarded, every store that had issued is performed, or waits at its home for the
engine of another context, its grids complete with the code, oldest first, and its resources are freed (R242, R248, R349, R350). -/
def State.finishEnd (s : State) (id : Nat) : State :=
  match s.ctx? id with
  | none => s
  | some c =>
    let code := c.code.getD 0
    let cl := c.clusters.headD 0
    let gs := sortBy (fun a b => decide (a.id ≤ b.id)) (s.grids.filter (·.ctx == id))
    let hold := severity code == 3
    let drop (k : Skein) : Skein := if k.ctx == id then { k with cmds := [], mq := [], removed := [] } else k
    let s : State := { s with skeins := s.skeins.map drop }
    let s := (s.skeins.filter (·.ctx == id)).foldl (fun t k => t.drain k.id fun _ => true) s
    let late := (s.skeins.filter (·.ctx == id)).flatMap fun k => (k.stores.filter (·.loc.sp == .g)).map fun e => (e.loc.addr, e.bytes)
    let s : State := { s with posted := s.posted ++ late }
    let s := if hold then s else s.soundRegions c.regions
    let t : State := { s with
      skeins := s.skeins.filter (·.ctx != id), blocks := s.blocks.filter (·.ctx != id),
      tables := if hold then s.tables else s.tables.filter (·.2 != id),
      failedUnits := s.failedUnits.filter fun f => !(f.sp == .s && s.blocks.any fun b => b.ctx == id && f.own == (b.grid, b.num)),
      dbgQueue := s.dbgQueue.filter (·.ctx != id), grants := s.grants.filter (·.ctx != id),
      clusters := s.clusters.map fun x => { x with
        bins := x.bins.filter fun b => !gs.any (·.id == b.grid),
        fbuf := x.fbuf.filter (·.ctx != id),
        wins := if hold then x.wins else x.wins.filter (·.ctx != id) } }
    let t := (t.setCtx { c with finished := true, ending := none, gids := gs.map (·.id), saved := [], savedBlocks := [],
                                onCl := c.onCl.map fun x => { x with phase := .ended },
                                regions := if hold then c.regions else [] }).quarantine (·.ctx == id)
    (gs.foldl (fun t g => t.completeGrid g code cl) (t.retireBaskets (·.ctx == id))).refreshFlags

/-- A cause of ending reaches the home shard: the first starts the ending, a graver one replaces the code while it lasts, and a later
one changes nothing (R350). -/
def State.endContext (s : State) (id : Nat) (code : BitVec 16) : State :=
  match s.ctx? id with
  | none => s
  | some c =>
    if c.finished then s
    else match c.code with
      | some old => if severity old < severity code then s.setCtx { c with code := some code } else s
      | none =>
        let t := s.setCtx { c with code := some code, ending := some c.clusters }
        if c.clusters.isEmpty then t.finishEnd id else t

/-- A record that ends its context; one that arrives when the ending is complete is discarded and counted at the home shard, that of
the lowest cluster of the set (R350). -/
def State.endByRecord (s : State) (id : Nat) (code : BitVec 16) : State :=
  match s.ctx? id with
  | none => s
  | some c =>
    if c.finished then s.modCluster (c.clusters.headD 0) fun x => { x with discarded := satInc x.discarded } else s.endContext id code

/-- The context is being ended or has ended (R350). -/
def Context.over (c : Context) : Bool := c.code.isSome

/-! ## The dispatcher's own accesses (R441) -/

/-- The page of a dispatcher's AOR: its physical address, or the code of the failure (R441). -/
def State.aorPage (s : State) (c : Context) (va tenant : Nat) : Except (BitVec 16) Nat :=
  match s.pageOf c va with
  | .unmapped => .error 0x8301
  | .malformed => .error 0x8302
  | .leaf l =>
    if !(l.rd && l.wr) then .error 0x8401
    else if 2 ≤ l.type then .error 0x8404
    else if !(tenantBit tenant).subset l.set then .error 0x8500
    else .ok l.pa

/-- The page of a dependency read (R441). -/
def State.readPage (s : State) (c : Context) (va : Nat) : Except (BitVec 16) Nat :=
  match s.pageOf c va with
  | .unmapped => .error 0x8301
  | .malformed => .error 0x8302
  | .leaf l =>
    if !l.rd then .error 0x8401
    else if !c.mayRead l.set then .error 0x8402
    else .ok l.pa

/-- Bits ORed into a 32-bit word at its location (R149). -/
def State.orWord (s : State) (pa bits : Nat) : State := s.pokes (locG pa) (bytesLE 4 (cellsNat s.mem pa 4 ||| bits))

/-- An engine owns or pins a byte of a word, so that an atomic to it waits (R242). -/
def State.wordHeld (s : State) (pa : Nat) : Bool := (Loc.span (locG pa) 4).any fun l => s.owned l || s.pinned l

/-- A dispatcher's AOR: the state after it, unchanged while the word is held, or the context's ending; and whether it was
performed. One that reads a failed unit ends the context with the error's code (R149, R348, R441, log 20). -/
def State.dispatchOr (s : State) (ctx va bits tenant : Nat) : State × Bool :=
  match s.ctx? ctx with
  | none => (s, false)
  | some c => match s.aorPage c va tenant with
    | .error code => (s.endContext ctx code, false)
    | .ok pa =>
      if s.wordHeld pa then (s, false)
      else match ((locG pa).span 4).find? s.failedAt with
        | some l => ((s.outsideError l).endContext ctx (s.outsideCode l), false)
        | none => (s.orWord pa bits, true)

/-! ## Descriptors (R329 to R331) -/

/-- The kernel of a loaded code object at an address, with its object (R51, R331). -/
def Context.kernelAt (c : Context) (va : Nat) : Option (CodeObj × Kernel) :=
  c.objs.findSome? fun o => (o.kernels.find? fun k => o.code + k.entry == va).map fun k => (o, k)

/-- Who submits a descriptor (R328): Finwesin, a virtual function with its tenant and the sets of the descriptor's pages, or a LAUNCH with the target, the
parent's tenant, level and priority. -/
inductive Source where
  | finwesin
  | queue (tenant : Nat) (pages : OSet)
  | launch (entry tenant level prio : Nat)

/-- The pages of a range satisfy a test (R149, R331). -/
def State.pagesOk (s : State) (c : Context) (va n : Nat) (f : Leaf → Bool) : Bool :=
  (pieces (n / 65536 + 2) va n).all fun q => match s.pageOf c q.1 with
    | .leaf l => f l
    | .unmapped | .malformed => false


/-- The fields of a kernel record lie in their ranges (R51, R52). -/
def kernelOk (k : Kernel) : Bool :=
  decide (1 ≤ k.slices) && decide (k.slices ≤ 256) && decide (1 ≤ k.skeins) && decide (k.skeins ≤ 32) && decide (k.spad ≤ 327680) &&
    k.spad % 1024 == 0 && decide (k.bays ≤ 2048) && decide (k.acc ≤ 256) && decide (1 ≤ k.tack) && decide (k.tack ≤ 4096) &&
    decide (k.scratch ≤ k.spad)

/-- The block shape: slices, skeins, scratchpad bytes, tiles, bays; none where a field is out of range (R330, R331). -/
def shapeOf (k : Kernel) (ovr : Bool) (s0 s1 : Nat) : Option (Nat × Nat × Nat × Nat × Nat) :=
  if !ovr then if kernelOk k && decide (s0 = 0) && decide (s1 = 0) then some (k.slices, k.skeins, k.spad, k.acc, k.bays) else none
  else
    let slices := bitsOf s0 0 9
    let skeins := bitsOf s0 9 6
    let spad := bitsOf s0 15 9
    let bays := bitsOf s1 0 12
    let acc := bitsOf s1 12 9
    if decide (s0 < 2 ^ 24) && decide (s1 < 2 ^ 21) && decide (1 ≤ slices) && decide (slices ≤ 256) &&
        decide (1 ≤ skeins) && decide (skeins ≤ 32) && decide (spad ≤ 320) && decide (acc ≤ 256) && decide (bays ≤ 2048) &&
        (k.skeins != 1 || skeins == 1) then
      some (slices, skeins, spad * 1024, acc, bays)
    else none

/-- A descriptor as a grid, none where R331 refuses it. -/
def State.parseDesc (s : State) (c : Context) (src : Source) (origin : Origin) (d : List Byte) : Option Grid :=
  let f (a n : Nat) : Nat := ofBytesLE ((d.drop a).take n)
  let flags := f 48 4
  let entry := match src with
    | .launch e _ _ _ => e
    | .finwesin | .queue _ _ => f 0 8
  let tenant := match src with
    | .launch _ t _ _ => t
    | .finwesin | .queue _ _ => bitsOf flags 4 4
  let level := match src with
    | .launch _ _ l _ => l
    | .finwesin | .queue _ _ => 0
  let prio := match src with
    | .launch _ _ _ p => min p (bitsOf flags 0 2)
    | .finwesin | .queue _ _ => bitsOf flags 0 2
  let submitOk := match src with
    | .launch _ _ _ _ => true
    | .finwesin => bitsOf flags 8 4 == 0 && tenant == c.tenant
    | .queue t pages => bitsOf flags 8 4 == 0 && tenant == t && pages.subset (tenantBit t)
  let bitmap := f 8 8
  let producer := f 16 8
  let g := f 24 4
  let p := f 28 4
  let m := f 32 2
  let q := f 34 2
  let spo : OSet := BitVec.ofNat 16 (f 54 2)
  match c.kernelAt entry with
  | none => none
  | some (_, k) => match shapeOf k (bitsOf flags 3 1 == 1) (f 40 4) (f 44 4) with
    | none => none
    | some (slices, skeins, spad, acc, bays) =>
      if d.length == 128 && submitOk && bitsOf flags 12 20 == 0 && f 56 8 == 0 && decide (1 ≤ g) &&
          decide (g ≤ 2 ^ 24) && bitmap % 8 == 0 && producer % 4 == 0 &&
          (if producer = 0 then p == 0 && m == 0 && q == 0
           else decide (1 ≤ p) && decide (p ≤ 2 ^ 24) && decide (1 ≤ m) && decide (1 ≤ q)) &&
          decide (k.scratch ≤ spad) && spo.subset c.readMask &&
          s.pagesOk c bitmap (4 * ((g + 31) / 32)) (fun l => l.rd && l.wr && l.type != 2 && (tenantBit tenant).subset l.set) &&
          (producer == 0 || s.pagesOk c producer (4 * ((p + 31) / 32)) (Leaf.readable c)) then
        some { id := 0, ctx := c.id, part := c.part, tenant := tenant, level := level, prio := prio,
               idem := bitsOf flags 2 1 == 1, origin := origin, entry := entry, bitmap := bitmap, producer := producer,
               g := g, p := p, m := m, q := q, c := signed 32 (f 36 4), slices := slices, skeins := skeins, spad := spad,
               acc := acc, bays := bays, spo := spo,
               kinit := (List.range 16).map fun j =>
                 if bitsOf (f 52 2) j 1 = 1 then BitVec.ofNat 32 (f (64 + 4 * j) 4) else 0,
               kset := tenantBit tenant ||| (match origin with | .child _ _ _ x => x | _ => 0),
               next := 0, held := [], avail := [], retired := 0, accepted := 0, spawned := [], dropped := [] }
      else none

/-- The producer bit that a block depends on (R150). -/
def Grid.dependsOn (g : Grid) (i : Nat) : Option Nat :=
  if g.producer = 0 then none
  else
    let j : Int := ((i * g.m / g.q : Nat) : Int) + g.c
    if j < 0 ∨ (g.p : Int) ≤ j then none else some j.toNat

/-- The first block from an index on that has no dependency, G where there is none (R333). -/
def Grid.skip (g : Grid) : Nat → Nat → Nat
  | 0, i => i
  | f + 1, i => if g.g ≤ i ∨ (g.dependsOn i).isNone then i else g.skip f (i + 1)

/-- The blocks that depend on a producer bit are held from the acceptance on (R150, R336). -/
def Grid.opened (g : Grid) : Grid :=
  { g with
    next := g.skip g.g 0
    held := if g.producer = 0 then [] else (List.range g.g).filter fun i => (g.dependsOn i).isSome }

/-- A grid is accepted: its identity, and the states of its partition and of the module (R328, R340). -/
def State.accept (s : State) (g : Grid) : Nat × State :=
  let run (x : RunState) : RunState := if x == .idle then .running else x
  let t := s.modPart g.part fun p => { p with st := run p.st }
  (s.nextId, { t with nextId := s.nextId + 1, run := run t.run,
                      grids := t.grids ++ [Grid.opened { g with id := s.nextId, accepted := s.ticks }] })

/-! ## Spawn bins and retirement (R146 to R149, R176) -/

/-- The spawn grid of a grid, made when the first of its skeins launches (R148). -/
def State.spawnGrid (s : State) (g : Grid) : Grid × State :=
  match s.grids.find? fun x => x.origin == .spawnOf g.id with
  | some x => (x, s)
  | none =>
    let x : Grid := { g with origin := .spawnOf g.id, level := g.level + 1, g := 0, next := 0, held := [], avail := [],
                             retired := 0, spawned := [], dropped := [], bitmap := 0, producer := 0, idem := false, spo := 0, kinit := [],
                             kset := tenantBit g.tenant }
    let r := s.accept x
    ({ x with id := r.1, accepted := s.ticks }, r.2)

/-- A bin launches a skein of its threads and is free again (R147, R148). -/
def State.launchBin (s : State) (cl : Nat) (b : Bin) : State :=
  match s.grid? b.grid with
  | none => s
  | some g =>
    let r := s.spawnGrid g
    let x := r.1
    let sp : Spawned := ⟨x.next, b.entry, b.args, b.vset, b.coset, cl, s.ticks⟩
    (r.2.setGrid { x with next := x.next + 1, g := x.next + 1, spawned := x.spawned ++ [sp] }).modCluster cl fun c =>
      { c with bins := c.bins.filter fun y => !(y.entry == b.entry && y.grid == b.grid) }

/-- Every bin of a grid launches at once (R148). -/
def State.launchBins (s : State) (gid : Nat) : State :=
  (List.range s.clusters.length).foldl (fun t cl =>
    ((t.cluster cl).bins.filter (·.grid == gid)).foldl (fun t b => t.launchBin cl b) t) s

/-- A grid has no block left anywhere and no thread in a bin. -/
def State.emptied (s : State) (g : Grid) : Bool :=
  g.spawned.isEmpty && !s.blocks.any (·.grid == g.id) && !(s.ctxs.any fun c => c.savedBlocks.any (·.grid == g.id)) &&
    !(s.clusters.any fun c => c.bins.any (·.grid == g.id))

/-- The blocks of a grid have all retired (R146). -/
def State.allRetired (s : State) (g : Grid) : Bool :=
  match g.origin with
  | .spawnOf p => s.emptied g && !(s.clusters.any fun c => c.bins.any (·.grid == p))
  | .finwesin | .queue _ _ | .child _ _ _ _ => g.retired == g.g && s.emptied g

/-- A grid retires once its blocks and its spawn grid have: the retire word, then the completion (R146, R176). -/
def State.retireGrid (s : State) (id : Nat) : State :=
  match s.grid? id with
  | none => s
  | some g =>
    let sg := s.grids.find? fun x => x.origin == .spawnOf g.id
    if !s.allRetired g || !sg.elim true s.allRetired then s
    else match g.origin with
      | .spawnOf _ => s
      | .finwesin | .queue _ _ => (sg.elim s fun x => s.completeGrid x 0 0).completeGrid g 0 0
      | .child _ _ w _ =>
        let r := if w = 0 then (s, true) else s.dispatchOr g.ctx w 1 g.tenant
        if r.2 then (sg.elim r.1 fun x => r.1.completeGrid x 0 0).completeGrid g 0 0 else r.1

/-- A child that the block's leader launched has not retired (R146). -/
def State.hasChildren (s : State) (b : Block) : Bool :=
  s.grids.any fun g => match g.origin with
    | .child p blk _ _ => p == b.grid && blk == b.num
    | .finwesin | .queue _ _ | .spawnOf _ => false

/-- The skeins of a block. -/
def State.skeinsOf (s : State) (b : Block) : List Skein := s.skeins.filter fun k => k.grid == b.grid && k.block == b.num

/-- The block's resources are freed (R146, R181, R296). -/
def State.freeBlock (s : State) (b : Block) : State :=
  let t : State := { s with
    blocks := s.blocks.filter fun x => !(x.grid == b.grid && x.num == b.num),
    skeins := s.skeins.filter fun k => !(k.grid == b.grid && k.block == b.num),
    failedUnits := s.failedUnits.filter fun f => !(f.sp == .s && f.own == (b.grid, b.num)) }
  t.retireBaskets fun x => x.scope == 0 && x.owner == (b.grid, b.num) && x.ctx == b.ctx

/-- A block retires: its completion bit, then its resources, its grid's bins and its grid (R146, R148, R149). The grid's bins launch
when its last block retires; one that a spawned skein starts after that waits for 32 threads or its timer, of which R148 says nothing
else (log 28). -/
def State.retireBlock (s : State) (b : Block) (g : Grid) : State :=
  let drained := (s.skeinsOf b).foldl (fun t k => t.release k.id (fun _ => true) true) s
  if (drained.skeinsOf b).any fun k => !k.stores.isEmpty then drained
  else
    let spawned : Bool := match g.origin with
      | .spawnOf _ => true
      | .finwesin | .queue _ _ | .child _ _ _ _ => false
    let r := if spawned then (drained, true)
      else drained.dispatchOr g.ctx (g.bitmap + 4 * (b.num / 32)) (2 ^ (b.num % 32)) g.tenant
    if !r.2 then r.1
    else
      let t := r.1.freeBlock b
      let g1 := { g with retired := g.retired + 1 }
      let t := t.setGrid g1
      let t := if !spawned && g1.retired == g1.g then t.launchBins g1.id else t
      let t := match g.origin with
        | .spawnOf p => t.retireGrid p
        | .finwesin | .queue _ _ | .child _ _ _ _ => t.retireGrid g.id
      t

/-- The conditions of retirement, of which a command removed by a pre-emption is still outstanding (R146, R367); a context that is being ended
retires no block (R350), and a block that is being dropped does not retire (R371). -/
def State.mayRetire (s : State) (b : Block) : Bool :=
  !b.dropping && (s.skeinsOf b).all (fun k => k.splits.isEmpty && k.idleEngines && k.stop.isNone) &&
    !s.hasChildren b && !(s.ctx? b.ctx).elim true Context.over

/-- BLOCK_RETIRE (R146). -/
def execBlockRetire (grid blk : Nat) (s : State) : Host.Outcome State Fault Refusal :=
  .next (match s.block? grid blk, s.grid? grid with
    | some b, some g => if s.mayRetire b then s.retireBlock b g else s
    | none, some _ => s.retireGrid grid
    | _, none => s)

/-- The remaining blocks of a grid are all held on a dependency (R340). -/
def State.onlyHeld (s : State) (g : Grid) : Bool :=
  decide (g.g ≤ g.next) && g.avail.isEmpty && g.dropped.isEmpty && s.emptied g && decide (g.retired + g.held.length == g.g)

/-- The cut option: a draining partition whose remaining blocks are all held kills its grids with DRAIN (R340); a grid whose context is
being ended completes with that code instead (R400). The entry of the fault log names cluster 0 and its counter: R436 says which only for what
ends a context, so this is the model's choice (log 25). -/
def State.cutGrids (s : State) (part : Nat) : State :=
  let gs := s.grids.filter fun g => g.part == part && !(s.ctx? g.ctx).elim false Context.over
  let on := ((s.part part).st == .draining && (s.part part).cut) || (s.run == .draining && s.runCut)
  if on && !gs.isEmpty && gs.all s.onlyHeld then gs.foldl (fun t g => t.completeGrid g 0x1400 0) s else s

end Sys2Proof.Machine
end

