-- ==== Sys2Proof/Machine/Launch.lean ====
section
/-! DEFINITION. SPAWN, LAUNCH and BITWAIT (R147, R148, R173 to R177). -/

namespace Sys2Proof.Machine

/-! ## SPAWN -/

/-- The grid that a skein's bins are keyed to (R148). -/
def State.spawner (s : State) (k : Skein) : Grid :=
  let g := s.gridOf k
  match g.origin with
  | .spawnOf p => (s.grid? p).getD g
  | .finwesin | .queue _ _ | .child _ _ _ _ => g

/-- The entry is that of a kernel of the grid's code object that declares one skein (R173). -/
def State.spawnable (s : State) (k : Skein) (entry : Nat) : Bool :=
  entry % 4 == 0 && (s.objOf k).elim false fun o => o.kernels.any fun x => o.code + x.entry == entry && x.skeins == 1

/-- One thread goes into its bin, which launches at 32 threads; the status (R147, R173). -/
def State.placeThread (s : State) (cl : Nat) (g : Grid) (giver : Nat × Nat) (entry arg : Nat) (vset coset : OSet) : State × Nat :=
  if g.level = 9 then (s, stNest)
  else
    let bins := (s.cluster cl).bins
    let a := BitVec.ofNat 64 arg
    match bins.find? fun b => b.entry == entry && b.grid == g.id with
    | some b =>
      let b1 := { b with args := b.args ++ [a], vset := b.vset ||| vset, coset := b.coset ||| coset, givers := giver :: b.givers }
      let t := s.modCluster cl fun c => { c with
        bins := c.bins.map fun y => if y.entry == entry && y.grid == g.id then b1 else y }
      (if 32 ≤ b1.args.length then t.launchBin cl b1 else t, stPlaced)
    | none =>
      if 64 ≤ bins.length then (s, stNoBin)
      else (s.modCluster cl fun c => { c with bins := c.bins ++ [⟨entry, g.id, [a], vset, coset, s.ticks, [giver]⟩] }, stPlaced)

/-- The threads of the active lanes in ascending order, with the status of each lane (R173). -/
def State.placeThreads (s : State) (cl : Nat) (g : Grid) (giver : Nat × Nat) (vset coset : OSet) :
    List (Nat × Nat × Nat) → State × List (Nat × Nat)
  | [] => (s, [])
  | (l, entry, arg) :: t =>
    let r := s.placeThread cl g giver entry arg vset coset
    let q := r.1.placeThreads cl g giver vset coset t
    (q.1, (l, r.2) :: q.2)

/-- SPAWN (R173). -/
def execSpawn (x y : BitVec 8) (la : BitVec 4) (s : State) : Host.Outcome State Fault Refusal :=
  issue (.spawn x y la) s fun i => do
    let i ← i.operands [⟨x.toNat, 32, 32, i.p.em, true, false⟩, opdOut y.toNat 1]
    if i.p.em == 0 then .ok i.s
    else do
      let bad := i.lanesWith fun l => !i.s.spawnable i.k (i.raw l (x.toNat + 16) 16)
      i.need (bad == 0) (dnr 2 4) bad
      let i ← i.release true
      let ts := i.active.map fun l => (l, i.raw l (x.toNat + 16) 16, i.raw l x.toNat 16)
      let r := i.s.placeThreads i.k.cluster (i.s.spawner i.k) (i.k.grid, i.k.block) i.rset i.p.co ts
      let k := i.wrLate (i.h.look la) y.toNat 1 (fun l => (r.2.find? (·.1 == l)).elim 0 (·.2)) i.rset []
      .ok (r.1.setSkein k)

/-! ## LAUNCH -/

/-- Children of a block that have not retired (R176). -/
def State.childCount (s : State) (grid blk : Nat) : Nat :=
  (s.grids.filter fun g => match g.origin with
    | .child p b _ _ => p == grid && b == blk
    | .finwesin | .queue _ _ | .spawnOf _ => false).length

/-- The retire word's page takes the report (R176). -/
def State.retireOk (s : State) (c : Context) (w tenant : Nat) : Bool :=
  w == 0 || s.pagesOk c w 4 fun l => l.wr && (tenantBit tenant).subset l.set

/-- One lane of a LAUNCH: its status and the state with its child (R176). -/
def State.launchLane (s : State) (k : Skein) (entry : Nat) (d : List Byte) (w : Nat) (set : OSet) : State × Nat :=
  let g := s.gridOf k
  let c := s.ctxOf k
  if g.level = 9 then (s, lnNest)
  else if s.drains g.part then (s, lnDrain)
  else if 16 ≤ s.childCount k.grid k.block then (s, lnLimit)
  else match s.parseDesc c (.launch entry g.tenant (g.level + 1) g.prio) (.child k.grid k.block w set) d with
    | none => (s, lnRefused)
    | some x => if s.retireOk c w g.tenant then ((s.accept x).2, lnAccepted) else (s, lnRefused)

/-- The lanes of a LAUNCH in ascending order. -/
def State.launchLanes (s : State) (k : Skein) (entry : Nat) (set : OSet) :
    List (Nat × List Byte × Nat) → State × List (Nat × Nat)
  | [] => (s, [])
  | (l, d, w) :: t =>
    let r := s.launchLane k entry d w set
    let q := r.1.launchLanes k entry set t
    (q.1, (l, r.2) :: q.2)

/-- LAUNCH (R174 to R176): the window of its operands and the LOOKAHEAD trap come first (R87), then the checks of R175, of
which the alignment of the argument block is the second. -/
def execLaunch (x : BitVec 8) (disp : BitVec 18) (s : State) : Host.Outcome State Fault Refusal :=
  issue (.launch x disp) s fun i => do
    let entry := (i.pc + 4 * disp.signExtend 64).toNat
    let i ← i.operands [⟨x.toNat, 32, 1, i.p.em, true, false⟩, ⟨x.toNat, 8, 1, 0, false, true⟩]
    i.need (i.k.num == 0 && ((i.s.objOf i.k).elim false fun o => o.kernels.any fun y => o.code + y.entry == entry))
      (dnr 2 4) i.p.em
    i.need (x.toNat % 32 == 0) (dnr 2 2) i.p.em
    if i.p.em == 0 then .ok i.s
    else do
      let bad := i.lanesWith fun l => i.raw l x.toNat 16 % 64 != 0 || i.raw l (x.toNat + 16) 16 % 4 != 0
      i.need (bad == 0) (dnr 2 2) bad
      let rs := i.active.map fun l => (l, i.raw l x.toNat 16, 128)
      let as ← i.mapG 1 needLoad rs
      let v ← i.load 0 as
      let ds := as.map fun a => (a.lane, v.bytes a, i.raw a.lane (x.toNat + 16) 16)
      let j ← v.i.release true
      let set := j.rset ||| accSet as
      let r := j.s.launchLanes j.k entry set ds
      let k := j.wr x.toNat 8 (fun l => (r.2.find? (·.1 == l)).elim 0 (·.2)) set
      .ok (r.1.setSkein (k.touch rs))

/-! ## BITWAIT -/

/-- The word at a virtual address as a poll may read it, with its page's set: none where a demand load would fault, meet an error, or
send a request to PCIe memory (R177, R394). -/
def State.bitPage (s : State) (die : Nat) (c : Context) (va : Nat) : Option (Loc × OSet) :=
  match s.translate c va with
  | .leaf l =>
    let locs := Loc.span (locG l.pa) 4
    if l.readable c && !locs.any s.failedAt && !(l.type == 2 && locs.any fun x => (s.pbyte? die x.addr).isNone) then
      some (locG l.pa, l.set)
    else none
  | .unmapped | .malformed => none

/-- A bit of a word reads 1; a word that an engine owns cannot be read yet (R177, R242). -/
def State.bitSet (s : State) (die : Nat) (l : Loc) (n : Nat) : Bool :=
  !(l.span 4).any s.owned && bitsOf (ofBytesLE ((l.span 4).map (s.engineByte die))) n 1 == 1

/-- Each lane's word as a poll of a skein reads it, none for one that has to be read by the instruction again to meet its cause. -/
def State.bitPages (s : State) (k : Skein) (bits : List (Nat × Nat × Nat)) : List (Option (Loc × OSet)) :=
  let flawed (l : Nat) : Bool := k.flaw.elim false fun f => levelFits .g f.2.1 && inMask f.1 l
  bits.map fun b => if flawed b.1 then none else s.bitPage k.die (s.ctxOf k) b.2.1

/-- Every bit of the words of a BITWAIT reads 1. -/
def State.bitsSet (s : State) (die : Nat) (bits : List (Nat × Nat × Nat)) (pages : List (Loc × OSet)) : Bool :=
  (pages.zip bits).all fun x => s.bitSet die x.1.1 x.2.2.2

/-- The words can be read and every bit reads 1, or a word has to be read by the instruction again: the split leaves at this poll. -/
def State.bitLeaves (s : State) (k : Skein) (bits : List (Nat × Nat × Nat)) : Bool :=
  ((s.bitPages k bits).mapM id).elim true (s.bitsSet k.die bits)

/-- BITWAIT completes: its sets join every `co`, and it is an acquire at DV scope (R177). -/
def State.bitEnds (s : State) (k : Skein) (uid : Nat) (set : OSet) : State :=
  (s.setSkein ((k.joinCo set).modSplit uid fun p => { p with st := .ready })).acquire k.id 3

/-- One read of every word: the split leaves, or is HELD with the sets of every page read so far; its streams see the accesses (R177,
R193). -/
def State.bitRead (s : State) (k : Skein) (uid : Nat) (redo : Redo) (bits : List (Nat × Nat × Nat)) (pages : List (Loc × OSet)) :
    State :=
  let r := redo.join (pages.foldl (fun x p => x ||| p.2) 0)
  let k := k.touch (bits.map fun b => (b.1, b.2.1, 4))
  if s.bitsSet k.die bits pages then s.bitEnds k uid r.read
  else s.setSkein (k.modSplit uid fun p => { p with st := .held (.bitwait r bits) })

/-- A poll of a split HELD in BITWAIT. Once a word cannot be read so, the split performs the instruction again with what it read at its
issue, and meets the cause as a demand load, which of a PCIe line that the die no longer holds is a request (R21, R120, R177, R394,
log 26). -/
def State.bitPoll (s : State) (k : Skein) (uid : Nat) (redo : Redo) (bits : List (Nat × Nat × Nat)) : State :=
  match (s.bitPages k bits).mapM id with
  | none => s.setSkein (k.modSplit uid (·.reissue redo))
  | some pages => s.bitRead k uid redo bits pages

/-- BITWAIT (R177). Its first read is of the words as they have been translated, checked and, from PCIe memory, brought. -/
def execBitwait (x y : BitVec 8) (s : State) : Host.Outcome State Fault Refusal :=
  issue (.bitwait x y) s fun i => do
    let i ← i.operands [opdPair x.toNat i.p.em, opdIn y.toNat 8 i.p.em]
    if i.p.em == 0 then .ok i.s
    else do
      i.aligned 4 fun l => i.raw l x.toNat 16
      let va (l : Nat) : Nat := (i.raw l x.toNat 16 + 4 * (i.raw l y.toNat 8 / 32)) % 2 ^ 64
      let as ← i.mapG 1 needLoad (i.active.map fun l => (l, va l, 4))
      i.sound as
      let j ← i.pcieReady as
      let j ← j.flush (as.flatMap LaneAcc.locs)
      let bits := as.map fun a => (a.lane, a.addr, i.raw a.lane y.toNat 8 % 32)
      .ok (i.shed (j.s.bitRead j.k i.p.uid (i.heldRedo (.bitwait x y)) bits (as.map fun a => (a.first, a.set))))

/-- BITWAIT_POLL (R177). -/
def execBitwaitPoll (sid uid : Nat) (s : State) : Host.Outcome State Fault Refusal :=
  .next (match s.skein? sid with
    | none => s
    | some k => match (k.split? uid).map Split.st with
      | some (.held (.bitwait redo bits)) => if k.stop.isNone then s.bitPoll k uid redo bits else s
      | _ => s)

end Sys2Proof.Machine
end

