-- ==== Sys2Proof/Machine/SBar.lean ====
section
/-! DEFINITION. Scratchpad barriers (R222 to R225). -/

namespace Sys2Proof.Machine

/-- The fields of a scratchpad barrier object (R222). -/
structure SbObj where
  phase : Nat
  n : Nat
  out : Nat
  flags : Nat
  bytes : Nat
  rest : Nat
  deriving DecidableEq, Repr, Inhabited

/-- The S location of an offset of a block. -/
def Block.sloc (b : Block) (off : Nat) : Loc := ⟨.s, (b.grid, b.num), off⟩

/-- The object at an offset (R222). -/
def Block.sbRead (b : Block) (off : Nat) : SbObj :=
  let f (a n : Nat) : Nat := cellsNat b.cells (off + a) n
  ⟨f 0 2, f 2 2, f 4 2, f 6 2, f 8 4, f 12 4⟩

/-- Its 16 bytes (R222). -/
def SbObj.enc (o : SbObj) : List Byte :=
  bytesLE 2 o.phase ++ bytesLE 2 o.n ++ bytesLE 2 o.out ++ bytesLE 2 o.flags ++ bytesLE 4 o.bytes ++ bytesLE 4 o.rest

/-- update(o, arrivals, add) (R223). -/
def SbObj.update (o : SbObj) (arrivals : Nat) (add : Int) : SbObj :=
  let out := wrap 16 ((o.out : Int) - arrivals)
  let bytes := wrap 32 ((o.bytes : Int) + add)
  if out = 0 ∧ bytes = 0 then
    { o with phase := (o.phase + 1) % 65536, out := o.n, bytes := 0, flags := if o.n = 0 then 0 else o.flags }
  else { o with out := out, bytes := bytes }

/-- A split HELD at SBWAIT leaves with an acquire once the phase differs from every token, and joins the sets of what it
waited with into `co` (R225). An object that an engine owns cannot be read yet, and one that holds an error lets the split
perform the SBWAIT again, with what it read at its issue, and meet it there (R21, R242, R348, R349, log 26). -/
def State.sbCheck (s : State) (sid uid : Nat) : State :=
  match s.skein? sid with
  | none => s
  | some k =>
    match k.split? uid with
    | none => s
    | some p =>
      match p.st with
      | .held (.sbwait redo off toks) =>
        let b := s.blockOf k
        let locs := (b.sloc off).span 16
        let flawed := k.flaw.elim false fun f => levelFits .s f.2.1 && inMask f.1 (lowest p.em)
        if k.stop.isSome || locs.any s.owned then s
        else if flawed || locs.any s.failedAt then s.setSkein (k.modSplit uid (·.reissue redo))
        else if toks.contains (b.sbRead off).phase then s
        else
          let k1 := (k.joinCo (redo.read ||| s.rangeSet (b.sloc off) 16)).modSplit uid fun p => { p with st := .ready }
          (s.setSkein k1).acquire sid 1
      | _ => s

/-- Every split of a block HELD at an object is looked at again (R223). -/
def State.sbWake (s : State) (b : Block) (off : Nat) : State :=
  let waits (p : Split) : Bool := match p.st with
    | .held (.sbwait _ o _) => o == off
    | _ => false
  (s.skeins.flatMap fun k => if k.grid == b.grid && k.block == b.num
    then (k.splits.filter waits).map fun p => (k.id, p.uid) else []).foldl (fun t x => t.sbCheck x.1 x.2) s

/-- The object takes a new value and its waiters are looked at again. -/
def State.sbPut (s : State) (b : Block) (off : Nat) (o : SbObj) : State :=
  (s.pokes (b.sloc off) o.enc).sbWake b off

/-- The offset of the active lanes, equal and aligned, and the range (R224, checks 1 to 3); none with no active lane. -/
def Iss.sbOffset (i : Iss) (y : Nat) : Res (Option Nat) :=
  match i.active with
  | [] => .ok none
  | l :: _ =>
    let o := i.raw l y 8
    let bad := maskOf fun j => inMask i.p.em j && i.raw j y 8 != o
    if bad != 0 then i.trap (dnr 2 3) bad
    else if o % 16 != 0 then i.trap (dnr 2 2) i.p.em
    else if !i.s.inRange i.k .s o 16 then i.trapAt (dnr 4 3) i.p.em (i.active.map fun l => (l, o))
    else if i.s.hitsBasket i.k .s o 16 then i.trapAt (dnr 4 6) i.p.em (i.active.map fun l => (l, o))
    else .ok (some o)

/-- An instruction on a scratchpad barrier object: its checks, then its own effect (R224). `init` stands for SBINIT,
which reads nothing of the object (R349), and `store` and `arrival` say which of checks 5 and 6 apply. -/
def sbOp (z : Instr) (y : BitVec 8) (ops : Mask → List Opd) (store arrival : Bool) (s : State) (init : Bool)
    (ok : Iss → SbObj → Bool) (body : Iss → Block → Nat → SbObj → Res State) : Host.Outcome State Fault Refusal :=
  issue z s fun i => do
    let i ← i.operands (opdIn y.toNat 8 i.p.em :: ops i.p.em)
    match ← i.sbOffset y.toNat with
    | none => .ok i.s
    | some off =>
      let acc : LaneAcc := ⟨lowest i.p.em, off, [⟨i.k.loc .s off, 16, 0, i.s.blockSets (i.k.loc .s off) 16⟩]⟩
      i.hold store [acc]
      if init then .ok () else i.sound [acc]
      let i ← i.flush acc.locs
      let b := i.s.blockOf i.k
      let o := b.sbRead off
      i.need (ok i o) (dnr 2 4) i.p.em
      i.need (!store || i.rset.subset (i.s.rangeSet (b.sloc off) 16)) (dnr 5 0) i.p.em
      i.need (!(arrival && o.out == 0)) (dnr 10 16) i.p.em
      let i ← if arrival then i.release true else .ok i
      body i (i.s.blockOf i.k) off o

/-- The object is valid (R224, check 4). -/
def SbObj.valid (o : SbObj) : Bool := o.flags == 1 && o.rest == 0

/-- SBINIT (R223). -/
def execSbinit (x y : BitVec 8) (s : State) : Host.Outcome State Fault Refusal :=
  sbOp (.sbinit x y) y (fun em => [opdIn x.toNat 4 (topLane em id)]) true false s true
    (fun i _ => i.raw (highest i.p.em) x.toNat 4 != 0)
    fun i b off _ =>
      let c := i.raw (highest i.p.em) x.toNat 4
      .ok (i.s.sbPut b off ⟨0, c, c, 1, 0, 0⟩)

/-- SBARR (R223, R225). -/
def execSbarr (x y : BitVec 8) (la : BitVec 4) (s : State) : Host.Outcome State Fault Refusal :=
  sbOp (.sbarr x y la) y (fun _ => [opdOut x.toNat 4]) true true s false (fun _ o => o.valid)
    fun i b off o =>
      let set := i.rset ||| i.s.rangeSet (b.sloc off) 16
      .ok ((i.put (i.wrLate (i.h.look la) x.toNat 4 (fun _ => o.phase) set [])).sbPut b off (o.update 1 0))

/-- SBEXP (R223). -/
def execSbexp (x y : BitVec 8) (s : State) : Host.Outcome State Fault Refusal :=
  sbOp (.sbexp x y) y (fun em => [opdIn x.toNat 8 (topLane em id)]) true false s false (fun _ o => o.valid)
    fun i b off o => .ok (i.s.sbPut b off (o.update 0 (i.raw (highest i.p.em) x.toNat 8)))

/-- SBWAIT (R223, R225). -/
def execSbwait (x y : BitVec 8) (s : State) : Host.Outcome State Fault Refusal :=
  sbOp (.sbwait x y) y (fun em => [opdIn x.toNat 4 em]) false false s false (fun _ o => o.valid)
    fun i _ off _ =>
      let toks := i.active.map fun l => i.raw l x.toNat 4
      let k := i.k.modSplit i.p.uid fun p => { p with st := .held (.sbwait (i.heldRedo (.sbwait x y)) off toks) }
      .ok ((i.put k).sbCheck i.k.id i.p.uid)

/-- SBDROP (R223). -/
def execSbdrop (y : BitVec 8) (s : State) : Host.Outcome State Fault Refusal :=
  sbOp (.sbdrop y) y (fun _ => []) true true s false (fun _ o => o.valid)
    fun i b off o => .ok (i.s.sbPut b off (SbObj.update { o with n := wrap 16 ((o.n : Int) - 1) } 1 0))

end Sys2Proof.Machine
end

