-- ==== Sys2Proof/Machine/Svc.lean ====
section
/-! DEFINITION. The five SVC instructions and the resumption of parked splits (R351 to R356, R360, R361, R364). -/

namespace Sys2Proof.Machine

/-- The stop of a TRAP, a BRK or a TACK: the split stands at its group, and `lfm` is written where the cause writes it
(R344, R352, R353). -/
def Iss.stop (i : Iss) (code : BitVec 16) (cause : Nat) (lfm : Mask) (imm : BitVec 32) : State :=
  i.s.takeStop (i.k.modSplit i.p.uid fun p => { p with pc := i.gpc }) i.p.uid
    { i.k.record i.gpc i.pc i.p.em with code := code, cause := cause, lfm := lfm, imm := imm } i.rset none

/-- TRAP (R347, R352). -/
def execTrap (imm : BitVec 7) (s : State) : Host.Outcome State Fault Refusal :=
  issue (.trap imm) s fun i =>
    let n := (i.h.imm imm false).toNat
    .ok (i.stop (dnr 0x12 (n % 256)) 2 i.p.em (BitVec.ofNat 32 n))

/-- BRK (R347, R352). -/
def execBrk (imm : BitVec 7) (s : State) : Host.Outcome State Fault Refusal :=
  issue (.brk imm) s fun i =>
    let n := (i.h.imm imm false).toNat
    .ok (i.stop (dnr 0x11 (n % 256)) 3 i.p.em (BitVec.ofNat 32 n))

/-- A pre-emption request is pending for the skein's context on its cluster (R353, R363). -/
def State.preempting (s : State) (k : Skein) : Bool :=
  (s.ctxOf k).onCl.any fun x => x.cl == k.cluster && x.phase == .stopping

/-- TACK (R353). -/
def execTack (idx : BitVec 12) (s : State) : Host.Outcome State Fault Refusal :=
  issue (.tack idx) s fun i => do
    let n := ((i.s.ctxOf i.k).objAt i.pc.toNat).elim 0 (·.nrec)
    i.need (decide (idx.toNat < n)) (dnr 2 4) i.p.em
    .ok (if i.s.preempting i.k then i.stop 0 5 0 (BitVec.ofNat 32 idx.toNat) else i.s)

/-- SYSCALL. Every access of the skein is released, those of its other splits too (R247, R354). -/
def execSyscall (imm : BitVec 7) (s : State) : Host.Outcome State Fault Refusal :=
  issue (.syscall imm) s fun i => do
    i.need (decide (32 ≤ i.k.window)) (dnr 2 1) i.p.em
    if i.p.em == 0 then .ok i.s
    else do
      let i ← i.operands [opdIn 0 32 i.p.em]
      let i ← i.releaseIf (fun _ => true) true
      let n := (i.h.imm imm false).toNat
      let calls := i.active.map fun l =>
        (⟨l, n, (List.range 4).map fun r => BitVec.ofNat 32 (i.raw l (8 * r) 8), none⟩ : Call)
      let k := i.k.modSplit i.p.uid fun p => { p with st := .parked (.syscall calls i.rset (i.pc + 4) i.pc) }
      .ok ((i.put k).receive k.cluster
        { k.record i.gpc i.pc i.p.em with cause := 1, imm := BitVec.ofNat 32 n })

/-! ## UINT -/

/-- The page of a target's pending record, none once an ending has freed it (R350, R361). -/
def State.recordPage (s : State) (t : UTarget) : Option Leaf :=
  match s.ctx? t.ctx with
  | none => none
  | some c => match s.pageOf c t.va with
    | .leaf l => if c.finished && c.regions.isEmpty then none else some l
    | .unmapped | .malformed => none

/-- A host target's event goes to queue 1 if a buffer is posted (R393). -/
def State.hostEvent (s : State) (t : UTarget) (vec : Nat) : State :=
  if t.kind != 2 then s
  else match s.vf? t.who with
    | none => s
    | some v =>
      if v.stopped || v.posted == 0 then s
      else s.setVf (({ v with posted := v.posted - 1, isr := v.isr ||| 1,
                              events := v.events ++ [bytesLE 4 t.handle ++ bytesLE 4 vec ++ List.replicate 8 0#8] } : VF).raise 1)

/-- One lane's interrupt: the state and the status. The chiplet raises that of a running thread to its core. A record whose page is in
no held region gives a free status (R361, log 7). For a record on a page of type PCIe, where R211 has no AOR, R361 names no outcome: the model
ORs the bit into the host's word and answers as for another record (log 29). -/
def State.interrupt (s : State) (core handle vec : Nat) (d : OSet) : State × Nat :=
  match s.uints.find? (·.handle == handle) with
  | none => (s, stBadHandle)
  | some t =>
    if 64 ≤ vec then (s, stBadHandle)
    else match s.recordPage t with
      | none => (s.takeWord.2, s.takeWord.1 % 16)
      | some l =>
        if !d.subset l.set then (s, stDenied)
        else
          let bs := bytesLE 8 (cellsNat s.mem l.pa 8 ||| 2 ^ vec)
          let own (c : Core) : Core := { c with l1 := (bs.zipIdx).foldl (fun ls x => l1Update ls (l.pa + x.2) x.1) c.l1 }
          let t1 : State := if paType l.pa == 2 then s else s.modCore core own
          let u := (t1.pokes (locG l.pa) bs).hostEvent t vec
          match t.kind, t.core with
          | 0, some n => ({ u with appInts := u.appInts ++ [(n, handle)] }, stDelivered)
          | _, _ => (u, stPosted)

/-- The lanes' interrupts in ascending order. -/
def State.interrupts (s : State) (core : Nat) (d : OSet) : List (Nat × Nat × Nat) → State × List (Nat × Nat)
  | [] => (s, [])
  | (l, h, v) :: t =>
    let r := s.interrupt core h v d
    let q := r.1.interrupts core d t
    (q.1, (l, r.2) :: q.2)

/-- The pending records that the lanes' interrupts read, each as its lane's access (R361). -/
def State.records (s : State) (d : OSet) (args : List (Nat × Nat × Nat)) : List LaneAcc :=
  args.filterMap fun x => (s.uints.find? (·.handle == x.2.1)).bind fun t => (s.recordPage t).bind fun l =>
    if 64 ≤ x.2.2 || !d.subset l.set then none else some ⟨x.1, t.va, [⟨locG l.pa, 8, l.type, [l.set]⟩]⟩

/-- UINT. An uncorrectable error in a pending record stops it before any lane's AOR (R348, R361). -/
def execUint (d a : BitVec 8) (s : State) : Host.Outcome State Fault Refusal :=
  issue (.uint d a) s fun i => do
    let i ← i.operands [opdPair a.toNat i.p.em, opdOut d.toNat 1]
    let i ← i.release true
    let args := i.active.map fun l => (l, i.raw l a.toNat 8, i.raw l (a.toNat + 8) 8)
    let held := (args.filterMap fun x => (i.s.uints.find? (·.handle == x.2.1)).bind i.s.recordPage).flatMap fun l =>
      (Loc.span (locG l.pa) 8).filter fun l => i.s.owned l || i.s.pinned l
    if !held.isEmpty then .error (.stall (.line true held))
    else do
      i.sound (i.s.records i.rset args)
      let r := i.s.interrupts i.k.coreId i.rset args
      let k := i.wr d.toNat 1 (fun l => (r.2.find? (·.1 == l)).elim 0 (·.2)) i.rset
      .ok (r.1.setSkein k)

/-! ## Resuming a parked split (R356) -/

/-- The result registers of the lanes of a mask are written, each with the sets its calls join (R356). -/
def Skein.results (k : Skein) (mask : Mask) (calls : List Call) (argset : OSet) : Skein :=
  let done := calls.filter fun c => inMask mask c.lane
  let val (r l : Nat) : Option (BitVec 32) :=
    ((done.find? (·.lane == l)).bind (·.result)).bind fun x => x.1[r]?
  let set := done.foldl (fun a c => a ||| (c.result.elim 0 (·.2))) argset
  (List.range 4).foldl (fun k r =>
    let m := maskOf fun l => (val r l).isSome
    if m == 0 then k
    else k.write m [r] (sliceMask (8 * r) 8) (imageOf (8 * r) 8 fun l => ((val r l).getD 0).toNat) fun _ => set) k

/-- A resume mask divides a parked split: the part with the lowest member keeps its identity, and both continue its
lookahead count (R31, R126, R138, R356). -/
def Skein.resumePart (k : Skein) (p : Split) (mask : Mask) (calls : List Call) (argset : OSet) (resume word : Addr)
    (now : Nat) : Skein :=
  let low := lowest p.em
  let mem := mask ||| (if inMask mask low then p.members &&& ~~~p.em else 0)
  let rest := p.members &&& ~~~mem
  let part : Split := { p with pc := resume, members := mem, em := mask, st := .ready, since := now, yielded := none }
  if rest == 0 then k.setSplit part
  else
    let wait : SplitSt := .parked (.syscall (calls.filter fun c => !inMask mask c.lane) argset resume word)
    let left : Split := { p with members := rest, em := p.em &&& ~~~mask, since := now, st := wait }
    let keep := decide (lowest mem < lowest rest)
    let k1 := { k.inherit [p.uid] k.nextUid true with nextUid := k.nextUid + 1 }
    let a := if keep then part else { part with uid := k.nextUid }
    let b := if keep then { left with uid := k.nextUid } else left
    { k1 with splits := (k1.splits.filter (·.uid != p.uid)) ++ [a, b] }

/-- RESUME_MASK: the mender writes results and resumes lanes whose calls are complete (R356). -/
def execResumeMask (sid uid : Nat) (mask : BitVec 32) (s : State) : Host.Outcome State Fault Refusal :=
  .next (match s.skein? sid with
    | none => s
    | some k => match k.split? uid with
      | none => s
      | some p => match p.st with
        | .parked (.syscall calls argset resume word) =>
          let ok := mask != 0 && (mask &&& ~~~p.em) == 0 &&
            (lanesOf mask).all fun l => calls.any fun c => c.lane == l && c.result.isSome
          if !ok || (s.ctxOf k).over then s
          else
            let k1 := k.results mask calls argset
            (s.setSkein (k1.resumePart p mask calls argset resume word s.issueTicks)).acquire sid 4
        | _ => s)

end Sys2Proof.Machine
end

