-- ==== Sys2Proof/Machine/Stops.lean ====
section
/-! DEFINITION. What the mender and Finwesin do with a stop (R34, R247, R275, R343, R348, R350, R374). -/

namespace Sys2Proof.Machine

/-- The mender resumes a stopped skein: splits HELD in QPOP look at their baskets again (R140, R247, R296). -/
def State.resume (s : State) (sid : Nat) : State := (s.resumeSkein sid).recheckPops sid

/-- A stopped skein that the mender has decided to resume may run: its context runs on the cluster, or a pre-emption waits for
the skein to reach its stop, and its block is not being dropped (R363, R364, R371). -/
def State.mayResume (s : State) (k : Skein) : Bool :=
  let c := s.ctxOf k
  !c.over && !(s.blockOf k).dropping &&
    (!(c.onCl.any (·.cl == k.cluster)) || c.phase k.cluster == .running || c.phase k.cluster == .stopping)

/-- SKEIN_RESUME (R247): a stop after which the mender has decided to resume. -/
def execSkeinResume (sid : Nat) (s : State) : Host.Outcome State Fault Refusal :=
  .next (match s.skein? sid with
    | none => s
    | some k => if k.stop.elim false (·.go) && s.mayResume k then s.resume sid else s)

/-- A change to the stop of the skein that a record names, resident or saved. -/
def State.modStopped (s : State) (r : Record) (f : Skein → Stop → Skein) : State :=
  let g (k : Skein) : Skein := match k.stop with
    | none => k
    | some st => if k.ctx == r.ctx && k.coreId == r.core && k.slotId == r.slot && st.record == r then f k st else k
  { s with skeins := s.skeins.map g,
           ctxs := s.ctxs.map fun c => if c.id == r.ctx then { c with saved := c.saved.map g } else c }

/-- The access of a recoverable data error is performed again alone, and the skein may resume (R34, R348, R349). -/
def Skein.reperform (k : Skein) (st : Stop) : Skein :=
  let k1 := match st.redo with
    | none => k
    | some q => { k with lanes := mergeLanes k.lanes q.img q.masks, badRegs := mendRegs q.masks k.badRegs }
  { k1 with stop := some { st with go := true, redo := none } }

/-- Grade REQUEUE-SAFE of class DATA-ERROR (R348). -/
def recoverable (code : BitVec 16) : Bool := severity code == 0 && code.extractLsb' 8 6 == 12

/-- An event enters the error log (R348, R374). -/
def State.logError (s : State) (r : Record) : State := { s with errorLog := s.errorLog ++ [r] }

/-- Finwesin's action on a record (R350, R374). -/
def State.actOn (s : State) (r : Record) : State :=
  let dbg := (s.ctx? r.ctx).elim false (·.dbg.isSome)
  let hand (s : State) : State := { s with dbgQueue := s.dbgQueue ++ [r] }
  match r.cause with
  | 0 | 6 => if recoverable r.code then (s.modStopped r Skein.reperform).logError r else s.endByRecord r.ctx r.code
  | 2 | 3 => if dbg then hand s else s.endByRecord r.ctx r.code
  | 4 => if dbg then hand s
    else (s.modStopped r fun k st => { k with swlo := k.swlo &&& 1, stop := some { st with go := true } }).logError r
  | _ => s

/-- FINWESIN_STOP_ACTION: the oldest record of the cluster (R350). -/
def execFinwesinStopAction (cl : Nat) (s : State) : Host.Outcome State Fault Refusal :=
  .next (match (s.cluster cl).records with
    | [] => s
    | r :: rest => (s.modCluster cl fun c => { c with records := rest }).actOn r)

/-- A skein of an ended context stops where it stands, with its issued words complete (R350). -/
def Skein.halt (k : Skein) : Skein :=
  let k1 := k.landAll
  { k1 with stop := some (k1.stop.getD ⟨k1.record 0 0 0, 0, none, false, false⟩) }

/-- CLUSTER_CONFIRM: the cluster's skeins of the context have completed their issued words; the last confirmation completes
the ending (R350). -/
def execClusterConfirm (ctx cl : Nat) (s : State) : Host.Outcome State Fault Refusal :=
  .next (match s.ctx? ctx with
    | none => s
    | some c => match c.ending with
      | none => s
      | some left =>
        let mine (k : Skein) : Bool := k.ctx == ctx && k.cluster == cl
        let busy := s.skeins.any fun k => mine k && k.preqs.any PReq.waits
        if !left.contains cl || busy then s
        else
          let t := (s.skeins.filter mine).foldl (fun t k => t.drain k.id fun _ => true) s
          let t : State := { t with skeins := t.skeins.map fun k => if mine k then k.halt else k }
          let rest := left.filter (· != cl)
          let t := t.setCtx { c with ending := some rest }
          if rest.isEmpty then t.finishEnd ctx else t)

/-- The split at which the error of an outstanding load stops the skein: the one that counts its followers, else one that took
over from it, else the one with the lowest member (R31, R34). -/
def Skein.loader (k : Skein) (q : Pend) : Option Split :=
  (k.splits.find? q.counts).orElse fun _ =>
    (k.splits.find? fun p => q.heirs.contains p.uid).orElse fun _ => k.splits.foldl Split.lower none

/-- The followers of a load that have issued, as the split that counts them counted (R31, R34). -/
def Pend.followers (q : Pend) (uid : Nat) : Nat :=
  q.look - ((q.wins.find? (·.1 == uid)).orElse fun _ => q.wins.find? (·.1 == q.owner)).elim 0 (·.2)

/-- An outstanding load of the lanes that reads a space with the level (R347). -/
def Pend.loads (q : Pend) (lanes : Mask) (level : Nat) : Bool :=
  q.src.any fun x => inMask lanes x.1 && levelFits x.2.2.sp level

/-- An uncorrectable error in the data of an outstanding load is taken at the load's address. With a clean copy at a lower
level the access is performed again; without one the units fail (R34, R348, R349). R34 speaks of followers in the window
only; of an error found after words beyond it have issued too, the stop is taken all the same, counts at most L followers, and
execution goes on after those words. The stop names the lanes of the event, and not another lane of the load that reads the same failed
unit, which R348 leaves open (log 25). -/
def State.loadError (s : State) (k : Skein) (n : Nat) (q : Pend) (lanes : Mask) (level : Nat) (clean : Bool) : State :=
  let src := q.src.filter fun x => inMask lanes x.1
  let ls := src.map (·.2.2)
  let t := (s.countError k.coreId ((ls.headD (locG 0)).addr) level)
  let t := ls.foldl (fun t l => t.dropAt k.coreId level l) t
  let t := if clean then t else t.fail level ls
  match k.loader q with
  | none => t
  | some p =>
    let k1 := { k with pend := k.pend.eraseIdx n }
    t.takeStop k1 p.uid
      { k.record q.pc q.word p.em with
          code := BitVec.ofNat 16 ((if clean then 0x0C00 else 0xCC00) + level), lfm := lanes &&& q.lanes, flags := 1,
          followers := q.followers p.uid, addrs := src.map fun x => (x.1, x.2.1) } p.co
      (some (trimPend (pendMasks (k.pend.drop (n + 1))) q))

/-- An engine of the skein's core finds a clean copy of a line: it is read again and counted, and is no fault. Of memory, whose
stack held the line is open (R275, R434, log 7). -/
def State.refetch (s : State) (k : Skein) (level : Nat) (clean : Bool) : State :=
  if !clean || (k.cmds.isEmpty && k.mq.isEmpty) then s
  else let r := s.takeWord; r.2.countError k.coreId (r.1 % 24 * 4096) level

/-- LOAD_DATA_ERROR: an uncorrectable error of the memory or of the register file (R34, R347 to R349). It stands in the data of
the oldest outstanding load that it fits, or else waits for the next demand read of the lanes, as of the read half of an
atomic, which meets it with no follower (R210, log 25). In the register file a register of the lanes fails, and the error is
met when it is read; which one is open (log 7). With no lane named, an engine of the skein met it. -/
def execLoadDataError (sid : Nat) (lanes : BitVec 32) (level : BitVec 8) (clean : Bool) (s : State) :
    Host.Outcome State Fault Refusal :=
  .next (match s.skein? sid with
    | none => s
    | some k =>
      if level == 0 || 6 < level.toNat then s
      else if lanes == 0 then s.refetch k level.toNat clean
      else if k.stop.isSome then s
      else if level == 6 then
        let r := s.takeWord
        r.2.setSkein { k with badRegs := (lanesOf lanes).map (fun l => (l, r.1 % 32)) ++ k.badRegs }
      else match k.pend.findIdx? (·.loads lanes level.toNat) with
        | none => if k.flaw.isSome then s else s.setSkein { k with flaw := some (lanes, level.toNat, clean) }
        | some n => match k.pend[n]? with
          | none => s
          | some q => s.loadError k n q lanes level.toNat clean)

end Sys2Proof.Machine
end

