-- ==== Sys2Proof/Machine/CoreEvents.lean ====
section
/-! DEFINITION. What cores, fetch units, the root complex and the mender do between words: landings, polls, streams, fills,
translation parks and PCIe (R32, R136, R157, R193, R199 to R204, R211, R214, R225, R245, R248, R376, R377, R394, R442). -/

namespace Sys2Proof.Machine

/-- LONG_LATENCY_WRITE_LANDS: the oldest pending write of the skein (R32). -/
def execLongLatencyWriteLands (sid : Nat) (s : State) : Host.Outcome State Fault Refusal :=
  .next (match s.skein? sid with
    | none => s
    | some k => s.setSkein (k.land 0))

/-- Every split waits at a JOIN and one has not arrived (R136). -/
def Skein.deadlocked (k : Skein) : Bool :=
  k.stop.isNone && k.splits.any (·.st == .joinWait false) &&
    k.splits.all fun p => match p.st with
      | .joinWait _ => true
      | .ready | .stalled _ | .held _ | .parked _ => false

/-- JOIN_DEADLOCK: the trap at the JOIN of the unarrived split with the lowest member (R136). -/
def execJoinDeadlock (sid : Nat) (s : State) : Host.Outcome State Fault Refusal :=
  .next (match s.skein? sid with
    | none => s
    | some k =>
      let lost := k.splits.filter (·.st == .joinWait false)
      match k.deadlocked, lost.foldl Split.lower none with
      | true, some p =>
        let k1 := k.modSplit p.uid fun p => { p with pc := p.pc - 4, st := .ready }
        s.trapStop k1 { p with pc := p.pc - 4 } (p.pc - 4) (p.pc - 4) (dnr 6 0)
          (lost.foldl (fun m q => m ||| q.members) 0) [] p.co
      | _, _ => s)

/-- SBWAIT_POLL (R225). -/
def execSbwaitPoll (sid uid : Nat) (s : State) : Host.Outcome State Fault Refusal := .next (s.sbCheck sid uid)

/-- YIELD_RELEASE (R157). -/
def execYieldRelease (sid uid : Nat) (s : State) : Host.Outcome State Fault Refusal :=
  .next (match s.skein? sid with
    | none => s
    | some k => s.setSkein (k.modSplit uid fun p => if s.yieldOver p then { p with yielded := none } else p))

/-- STORE_PERFORMED (R248). -/
def execStorePerformed (sid idx : Nat) (s : State) : Host.Outcome State Fault Refusal := .next (s.performStore sid idx)

/-! ## Run-ahead and fetch (R193, R204, R376, R377) -/

/-- The next line of a stream may be fetched (R193). -/
def Stream.open (x : Stream) : Bool := decide (x.next < x.count) && decide ((x.next : Int) ≤ x.position + 16)

/-- The virtual address of a line of a stream (R193). -/
def Stream.lineVa (x : Stream) (n : Nat) : Nat := wrap 64 ((x.start : Int) + (n : Int) * x.stride)

/-- The stream ends or moves on. -/
def Skein.streamNext (k : Skein) (slot : Nat) (more : Bool) : Skein :=
  { k with streams := k.streams.filterMap fun x =>
      if x.slot != slot then some x
      else if more && decide (x.next + 1 < x.count) then some { x with next := x.next + 1 } else none }

/-- STREAM_FETCH (R193, R204). With pfscope 0 the line enters the L1 whatever the policy's noalloc says, which R189 orders for
no stream (log 40). -/
def execStreamFetch (core slot : Nat) (s : State) : Host.Outcome State Fault Refusal :=
  .next (match s.skeins.find? fun k => k.coreId == core && k.streams.any (·.slot == slot) with
    | none => s
    | some k => match k.streams.find? (·.slot == slot) with
      | none => s
      | some x =>
        if !x.open then s
        else match s.aheadPa (s.ctxOf k) needLoad (x.lineVa x.next) with
          | none => (s.dropAhead core).setSkein (k.streamNext slot false)
          | some pa =>
            if s.failedLine (pa / 64) then
              (s.countAhead core (pa / 64)).setSkein (k.streamNext slot false)
            else
              let t := s.setSkein (k.streamNext slot true)
              if x.policy.getLsbD 18 then t else t.fetchInto core (pa / 64) false)

/-- The target of a transfer of format B: BRA, BZ, BNZ or CALL (R66, R114). -/
def branchTarget (pc : Nat) (w : Word) : Option Nat :=
  let m := fMajor w
  if decide (0x2C ≤ m) && decide (m ≤ 0x2F) then some (wrap 64 ((pc : Int) + 4 * (fDisp w).toInt)) else none

/-- The virtual line that holds the target of a B-format word that the fetch unit holds in the line of an address (R377). -/
def State.targetsIn (s : State) (k : Skein) (line : Nat) : List Nat :=
  match s.walk (s.ctxOf k) (line * 64) with
  | .unmapped | .malformed => []
  | .leaf l =>
    let c := s.core k.coreId
    let words := (List.range 16).filterMap fun j =>
      let pa := l.pa / 64 * 64 + 4 * j
      (((c.buffered k.port).find? (·.1 == pa)).map (·.2) |>.orElse fun _ =>
        (c.ic.find? (·.line == pa / 64)).map fun ln => lineWord ln.bytes (pa % 64)).map fun w => (line * 64 + 4 * j, w)
    words.filterMap fun x => (branchTarget x.1 x.2).map (· / 64)

/-- The virtual address at which the code of a context's objects shows a physical word (R50, R365). -/
def State.codeVa (s : State) (c : Context) (pa : Nat) : Option Nat :=
  (c.objs.flatMap fun o => (List.range ((o.codeLen + 65535) / 65536)).map fun n => o.code + n * 65536).findSome? fun va =>
    match s.walk c va with
    | .leaf l => if l.pa / 65536 == pa / 65536 then some (va / 65536 * 65536 + pa % 65536) else none
    | .unmapped | .malformed => none

/-- The lines that hold the targets of the transfers that the fetch unit has in its buffer or its instruction cache (R377). -/
def State.targetsHeld (s : State) (k : Skein) : List Nat :=
  let c := s.core k.coreId
  let words := c.buffered k.port ++ c.ic.flatMap fun ln =>
    (List.range 16).map fun j => (ln.line * 64 + 4 * j, lineWord ln.bytes (4 * j))
  words.filterMap fun x => ((s.codeVa (s.ctxOf k) x.1).bind fun va => branchTarget va x.2).map (· / 64)

/-- The lines that the fetch unit may fetch ahead of a split: the two beyond the line of its next group, and those of the
targets that it has fetched (R377). -/
def State.aheadLines (s : State) (k : Skein) (p : Split) : List Nat :=
  let at0 := (p.hints.gpc.getD p.pc).toNat / 64
  ((List.range 3).map (at0 + ·) ++ ((List.range 3).flatMap fun n => s.targetsIn k (at0 + n)) ++ s.targetsHeld k).eraseDups

/-- The fetch unit may fetch ahead the line of an address (R377). -/
def State.mayFetchAhead (s : State) (k : Skein) (p : Split) (va : Nat) : Bool := (s.aheadLines k p).contains (va / 64)

/-- FETCH_AHEAD: the fill of a line starts, or is dropped with no trace (R377). -/
def execFetchAhead (sid uid va : Nat) (s : State) : Host.Outcome State Fault Refusal :=
  .next (match s.skein? sid with
    | none => s
    | some k => match k.split? uid with
      | none => s
      | some p =>
        if !s.mayFetchAhead k p va || k.stop.isSome then s
        else match s.translate (s.ctxOf k) va with
          | .unmapped | .malformed => s
          | .leaf l =>
            if !(l.permits needCode && (s.ctxOf k).mayRead l.set) ||
                s.failedLine (l.pa / 64) then s
            else s.fetchInto k.coreId (l.pa / 64) true)

/-- INSTRUCTION_FETCH_FILL: a fill in flight arrives, and the splits that wait for it can issue (R376, R377). -/
def execInstructionFetchFill (core line : Nat) (s : State) : Host.Outcome State Fault Refusal :=
  .next (s.modCore core fun c => match c.fills.find? (·.line == line) with
    | none => c
    | some f => Core.addIc { c with fills := c.fills.filter (·.line != line) } f (Config.freeWay s.free line))

/-! ## Translation parks and invalidations (R199 to R203, R442) -/

/-- A fault-buffer entry is freed. -/
def State.freeEntry (s : State) (cl id : Nat) : State :=
  s.modCluster cl fun c => { c with fbuf := c.fbuf.filter (·.id != id) }

/-- A split parked on an entry is READY to perform its instruction again, from its translation on; a fetch is made again. In a
stopped skein it stands at its group until the resumption (R137, R200). -/
def Split.replays (p : Split) (entry : Nat) (stopped : Bool) : Split :=
  match p.st with
  | .parked (.translation n redo) =>
    if n != entry then p
    else
      let q := { p with st := .ready, again := redo }
      if stopped then q else q.redo
  | .parked (.syscall _ _ _ _) | .ready | .stalled _ | .held _ | .joinWait _ => p

/-- The parked split performs its instruction again; its resumption is an acquire at SY (R200, R343). -/
def State.replay (s : State) (e : FaultEntry) : State :=
  match s.skein? e.sid with
  | none => s
  | some k => (s.setSkein (k.modSplit e.uid fun p => p.replays e.id k.stop.isSome)).acquire e.sid 4

/-- TRANSLATION_PARK_RESOLVE (R442). An entry with a malformed walk and an address in no held region ends the context with the
code of the first, an order that R442 leaves open (log 29). -/
def execTranslationParkResolve (cl entry : Nat) (s : State) : Host.Outcome State Fault Refusal :=
  .next (match (s.cluster cl).fbuf.find? (·.id == entry) with
    | none => s
    | some e => match s.ctx? e.ctx with
      | none => s
      | some c =>
        if c.over then s
        else
          let t := s.freeEntry cl entry
          if e.malformed then t.endContext e.ctx (dnr 3 2)
          else if e.vas.all fun v => (c.region? v.2).isSome then
            (e.vas.foldl (fun t v => match s.walk c v.2 with
              | .leaf _ => t
              | .unmapped | .malformed => t.mapPiece e.ctx v.2) t).replay e
          else t.endContext e.ctx (dnr 3 1))

/-- Some outstanding command of a context, of a saved skein or removed by a pre-emption too, keeps its translation of a piece, or of
another piece of its old leaf (R274, R367). -/
def State.commandHolds (s : State) (ctx piece : Nat) : Bool :=
  let e := ((s.ctx? ctx).bind fun c => c.stale.find? (·.1 == piece)).elim 0 (·.2.1)
  let hit (pages : List Nat) : Bool := pages.any (stalePiece piece e)
  (s.skeins ++ (s.ctx? ctx).elim [] (·.saved)).any fun k =>
    k.ctx == ctx && (k.cmds.any (fun c => hit c.pages) || (k.mq ++ k.removed).any fun c => hit c.pages)

/-- TRANSLATION_INVALIDATE (R199, R274). -/
def execTranslationInvalidate (ctx va : Nat) (s : State) : Host.Outcome State Fault Refusal :=
  .next (match s.ctx? ctx with
    | none => s
    | some c =>
      let n := va / 2 ^ 16
      if s.commandHolds ctx n then s
      else s.setCtx { c with stale := c.stale.filter (·.1 != n) })

/-! ## PCIe (R211, R245, R390, R394) -/

/-- A completion with no request waiting for it is discarded and counted (R394). -/
def State.lateCompletion (s : State) (sid : Nat) : State :=
  match (s.cluster (sid / 1024)).part with
  | none => s
  | some n => s.modPart n fun p => { p with lateCompletions := satInc p.lateCompletions }

/-- PCIE_COMPLETION: the access finishes at the split's next issue (R211, R394). -/
def execPcieCompletion (sid uid status : Nat) (s : State) : Host.Outcome State Fault Refusal :=
  .next (match s.skein? sid with
    | none => s.lateCompletion sid
    | some k =>
      if k.preqs.any fun r => r.uid == uid && r.waits then
        s.setSkein { k with preqs := k.preqs.map fun r => if r.uid == uid && r.waits then { r with status := some status } else r }
      else s.lateCompletion sid)

/-- A request of a split has waited 50 ms for its completion (R394). -/
def State.requestLate (s : State) (k : Skein) (uid : Nat) : Bool :=
  k.preqs.any fun r => r.uid == uid && r.waits && decide (r.sent + 87500000 ≤ s.linkTime)

/-- PCIE_COMPLETION_TIMEOUT: HOST-TIMEOUT, precisely, at the access that waits; in a stopped skein the access has ended all the same, and meets
its trap once the skein runs again (R211, R394). -/
def execPcieCompletionTimeout (sid uid : Nat) (s : State) : Host.Outcome State Fault Refusal :=
  .next (match s.skein? sid with
    | none => s
    | some k => match s.requestLate k uid, k.split? uid with
      | true, some p => match p.st with
        | .stalled (.pcie lanes _) =>
          if k.stop.isSome then
            s.setSkein { k with preqs := k.preqs.map fun r => if r.uid == uid && r.waits then { r with expired := true } else r }
          else
            let k1 := { k with preqs := k.preqs.filter (·.uid != uid) }
            s.trapStop k1 p (p.hints.gpc.getD p.pc) p.pc 0x1500 lanes [] p.co
        | _ => s.setSkein { k with preqs := k.preqs.filter (·.uid != uid) }
      | _, _ => s)

/-- WRITEBACK_UNDELIVERED: the context whose MAP holds the frame ends (R394). -/
def execWritebackUndelivered (pa : Nat) (s : State) : Host.Outcome State Fault Refusal :=
  let holds (r : Region) : Bool := r.kind == 1 && decide (r.frame * 2 ^ 16 ≤ pa) && decide (pa < r.frame * 2 ^ 16 + r.len)
  .next (match s.ctxs.find? fun c => c.regions.any holds with
    | none => s
    | some c => s.endContext c.id 0x1500)

/-- Posted writes are performed in order at their home L2; one that an engine holds keeps those behind it back (R242,
R245). -/
def State.performPosted (s : State) : List (Nat × List Byte) → State
  | [] => { s with posted := [] }
  | (pa, bs) :: t =>
    if (Loc.span (locG pa) bs.length).any fun l => s.owned l || s.pinned l then { s with posted := (pa, bs) :: t }
    else (s.pokes (locG pa) bs).performPosted t

/-- The physical range of a function's memory window (R390). -/
def VF.window (v : VF) (pa n : Nat) : Bool :=
  decide (v.winBase ≤ pa) && decide (pa + n ≤ v.winBase + v.winUnits * 2 ^ 16)

/-- The range is host memory behind PCIe (R186). -/
def pcieRange (pa n : Nat) : Bool := paType pa == 2 && paType (pa + n - 1) == 2 && decide (pa + n ≤ 0x400000000000)

/-- PCIE_POSTED_WRITE: a host write into a function's memory window, or a host's write of its own memory as it reaches the root
complex; one into memory that is lost goes nowhere (R244, R245, R386, R390, log 37). -/
def execPciePostedWrite (pa : Nat) (data : List (BitVec 8)) (s : State) : Host.Outcome State Fault Refusal :=
  .next (if pcieRange pa data.length || s.vfs.any (fun v => v.window pa data.length && s.hbmAt pa data.length) then s.performPosted (s.posted ++ [(pa, data)]) else s)

end Sys2Proof.Machine
end

