-- ==== Sys2Proof/Machine/Engine.lean ====
section
/-! DEFINITION. What the commands of both engines share: regions and their checks, the issue moment, destination writes and
command faults (R242, R243, R273 to R276, R282, R284, R298, R299, R305, R349). -/

namespace Sys2Proof.Machine

/-- A region of a command: its parts in address order, and the 64 KiB pieces it translated. -/
structure Extent where
  parts : List Part
  pages : List Nat
  deriving DecidableEq, Repr, Inhabited

/-- The locations of a region. -/
def Extent.locs (e : Extent) : List Loc := e.parts.flatMap fun p => p.loc.span p.n

/-- The join of the sets of its pages and blocks (R282). -/
def Extent.set (e : Extent) : OSet := e.parts.foldl (fun x p => p.sets.foldl (· ||| ·) x) 0

/-- Every page and block of the region has a set that includes D (R27, R282). -/
def Extent.takes (e : Extent) (d : OSet) : Bool := e.parts.all fun p => p.sets.all fun x => d.subset x

/-- An S or C address of an argument block has bits [63:32] zero, also where it names no byte; one that has not is out of
range (R185, R302, log 18). -/
def Iss.narrow (i : Iss) (sp : Space) (addr : Nat) : Res Unit :=
  i.need (sp == .g || decide (addr < 2 ^ 32)) (dnr 4 3) i.p.em

/-- The pages of a G region, each translated and its permission checked before the next (R274, R299). -/
def Iss.regionG (i : Iss) (need : Need) : List (Nat × Nat) → Res (List LaneAcc)
  | [] => .ok []
  | q :: t => do
    let a ← i.mapG 4 need [(highest i.p.em, q.1, q.2)]
    let r ← i.regionG need t
    .ok (a ++ r)

/-- A region checked by the check of its own space; its faults name the lanes of `em`, and a park issues the command again from its
first step (R274, R299, R443). -/
def Iss.region (i : Iss) (sp : Space) (need : Need) (addr n : Nat) : Res Extent :=
  if n = 0 then do
    i.narrow sp addr
    .ok ⟨[], []⟩
  else
    let ps := pieces (n / 65536 + 2) addr n
    match if sp == .g then i.regionG need ps else i.mapSC sp [(highest i.p.em, addr, n)] with
    | .ok as => .ok ⟨as.flatMap (·.parts), if sp == .g then ps.map (·.1 / 65536) else []⟩
    | .error (.trap code _ addrs set) => .error (.trap code i.p.em addrs set)
    | .error (.park kind vas bad _) => .error (.park kind vas bad none)
    | .error c => .error c

/-- Regions checked one after another in order. -/
def Iss.regions (i : Iss) (sp : Space) (need : Need) (n : Nat) : List Nat → Res (List Extent)
  | [] => .ok []
  | a :: t => do
    let r ← i.region sp need a n
    let rs ← i.regions sp need n t
    .ok (r :: rs)

/-- The scratchpad barrier that a control word names, as the split sees it: one that an engine owns is waited for (R231, R242,
R284, R349). -/
def Iss.checkBarrier (i : Iss) (bar : Option Nat) : Res Unit :=
  match bar with
  | none => .ok ()
  | some off => do
    i.need (off % 16 == 0) (dnr 2 2) i.p.em
    let r ← i.region .s needAtomic off 16
    let acc : LaneAcc := ⟨highest i.p.em, off, r.parts⟩
    i.hold false [acc]
    i.sound [acc]
    let j ← i.flush r.locs
    i.need ((j.s.blockOf j.k).sbRead off).valid (dnr 2 4) i.p.em

/-- One byte of a command's effect: its destination, and its source location or its value. -/
structure Move where
  dst : Loc
  src : Loc ⊕ Byte

/-- The destination line of a location. -/
def Loc.line (l : Loc) : Loc := { l with addr := l.addr / 64 }

/-- The byte put into a line; a later one replaces an earlier one at the same location (R279). -/
def putByte (l : Loc) (b : SrcByte) : List (Loc × SrcByte) → List (Loc × SrcByte)
  | [] => [(l, b)]
  | (x, c) :: t => if x = l then (l, b) :: t else (x, c) :: putByte l b t

/-- The source byte of a move. -/
def State.moveByte (s : State) (die moment : Nat) (m : Move) : SrcByte :=
  match m.src with
  | .inl l => s.srcByte die moment l
  | .inr b => .val b

/-- An engine that reads a byte at the moment meets an uncorrectable error: its unit has failed, and no earlier command will
write it (R275, R349). -/
def State.srcFails (s : State) (moment : Nat) (l : Loc) : Bool := s.failedAt l && !s.ownedBefore moment l

/-- The errors that a command of a core meets in its sources, counted once for each unit, and the code of the first (R275,
R348, R434). -/
def State.meetErrors (s : State) (core moment : Nat) (srcs : List Loc) : State × Option (BitVec 16) :=
  let bad := srcs.filter (s.srcFails moment)
  let units := (bad.map fun l => { l with addr := l.addr / 32 * 32 }).eraseDups
  (units.foldl (fun t l => t.countError core l.addr (s.failLevel l)) s, (bad.head?).map s.errorCode)

/-- The source of a move. -/
def Move.from? (m : Move) : Option Loc :=
  match m.src with
  | .inl l => some l
  | .inr _ => none

/-- The destination lines of a command, each once: those that it owns or writes, without a byte where a failed source prevents
the line (R275, R284, R305). -/
def State.lines (s : State) (die moment : Nat) (owns : List Loc) (ms : List Move) : List DstLine :=
  let lost := (ms.filter fun m => m.from?.elim false (s.srcFails moment)).map fun m => m.dst.line
  ((owns ++ ms.map (·.dst)).map Loc.line).eraseDups.map fun k =>
    ⟨if lost.contains k then []
     else (ms.filter fun m => m.dst.line == k).foldl (fun l m => putByte m.dst (s.moveByte die moment m) l) [],
     owns.filter fun l => l.line == k⟩

/-- Moves of a region's bytes, one source for each destination. -/
def moves (dst src : List Loc) : List Move := (dst.zip src).map fun x => ⟨x.1, .inl x.2⟩

/-- The command scope, by the spaces of the memory operands (R242, R305): 1 BK, 2 CL, 4 SY. -/
def commandScope (sps : List Space) : Nat := if sps.contains .g then 4 else if sps.contains .c then 2 else 1

/-- The release at an issue moment, at the command scope (R242). -/
def Iss.releaseAt (i : Iss) (scope : Nat) : Res Iss := i.release (decide (1 ≤ scope))

/-- What the issue moment of a Wringer command fixes: the kind, the locations owned and the bytes moved, further sources, the
scratchpad barrier, a fault already known, and the pages held (R242, R274, R305). -/
structure Plan where
  minor : Nat
  sel : Nat
  spaces : List Space
  kind : State → Nat → CmdKind := fun _ _ => .local
  owns : List Loc
  moves : List Move
  srcs : List Loc := []
  /-- What is pinned, where it is more than the source bytes themselves (R305). -/
  pins : List Loc := []
  barrier : Option Nat := none
  fault : Option (BitVec 16) := none
  pages : List Nat
  /-- The destination bytes of a collective in the order of their offsets (R283). -/
  dst : List Loc := []

/-- The issue moment of a Wringer command: the release, ownership and pins, the open batch (R242, R274, R276). A command has one
fault, which R303 does not say where it meets both an index beyond the extent and an uncorrectable source error: the index is
the one reported (log 20). -/
def Iss.command (i : Iss) (c : Plan) : Res State := do
  let j ← i.releaseAt (commandScope c.spaces)
  let n := j.s.nextId
  let srcs := c.moves.filterMap Move.from? ++ c.srcs
  let r := j.s.meetErrors j.k.coreId n srcs
  let fault := c.fault.orElse fun _ => r.2
  let cmd : Cmd := { order := n, batch := j.k.lastW + 1, minor := c.minor, sel := c.sel, kind := c.kind j.s n,
                     lines := j.s.lines j.k.die n c.owns c.moves, barrier := c.barrier,
                     fault := fault, pages := c.pages, pins := srcs ++ c.pins, failed := fault.isSome, dst := c.dst }
  .ok ({ r.1 with nextId := n + 1 }.setSkein { j.k with cmds := j.k.cmds ++ [cmd] })

/-- A line's copies are dropped in every core. -/
def State.dropCopies (s : State) (line : Nat) : State :=
  let drop (c : Core) : Core := { c with l1 := l1Drop c.l1 line }
  { s with cores := s.cores.map drop }

/-- A byte written by an engine: into the die's L2 for PCIe memory, else at its location (R214), where no core's copy
hides it from a later load (R242). -/
def State.engineWrite (s : State) (die : Nat) (l : Loc) (b : Byte) : State :=
  if l.pcie then s.pstore die l.addr b
  else if l.sp == .g then (s.poke l b).dropCopies (l.addr / 64)
  else s.poke l b

/-- A write that covers a whole failed unit makes it sound again (R349). -/
def State.mend (s : State) (ls : List Loc) : State :=
  { s with failedUnits := s.failedUnits.filter fun f =>
      !((List.range 32).all fun j => ls.contains ⟨f.sp, f.own, f.unit * 32 + j⟩) }

/-- Destination bytes written by a command (R303). -/
def State.writeBytes (s : State) (die : Nat) (bs : List (Loc × SrcByte)) : State :=
  (bs.foldl (fun t x => t.engineWrite die x.1 (s.resolveSrc x.2)) s).mend (bs.map (·.1))

/-- The record of a command fault (R275, R344). -/
def Skein.cmdRecord (k : Skein) (code : BitVec 16) (cls : Nat) (batch : BitVec 16) (minor sel : Nat) : Record :=
  { k.record 0 0 0 with
      code := code, cause := 6, cmdclass := cls, batch := batch, imm := BitVec.ofNat 32 (minor * 8 + sel) }

/-- A command fault waits for its delivery to the skein, or goes to the mender if the skein has exited (R275). -/
def State.commandFault (s : State) (sid : Nat) (r : Record) : State :=
  match s.skein? sid with
  | none => s
  | some k =>
    let draining := (s.ctxOf k).onCl.any fun x => x.cl == k.cluster && x.phase == .draining
    let r := if draining then { r with flags := r.flags ||| 2 } else r
    if k.splits.isEmpty then s.receive k.cluster r else s.setSkein { k with faults := k.faults ++ [r] }

/-- An engine decrement (R223, R284). -/
def State.sbDecrement (s : State) (k : Skein) (off n : Nat) : State :=
  let b := s.blockOf k
  s.sbPut b off ((b.sbRead off).update 0 (-(n : Int)))

/-- The line may be written: its sources can be read, and no earlier command owns or still reads its bytes (R243). -/
def State.lineReady (s : State) (c : Cmd) (ln : DstLine) : Bool :=
  s.srcReady c.order (ln.bytes.map (·.2)) &&
    ln.bytes.all fun x => !s.ownedBefore c.order x.1 && !s.pinnedBefore c.order x.1

/-- A command changed in its skein. -/
def State.modCmd (s : State) (sid order : Nat) (f : Cmd → Option Cmd) : State :=
  { s with skeins := s.skeins.map fun k =>
      if k.id == sid then { k with cmds := k.cmds.filterMap fun c => if c.order == order then f c else some c } else k }

/-- No other command owns or pins the barrier object, so that the engine decrement can be made (R242). -/
def State.decrementFree (s : State) (k : Skein) (c : Cmd) : Bool :=
  let others := s.modCmd k.id c.order fun _ => none
  c.barrier.elim true fun off => ((s.blockOf k).sloc off |>.span 16).all fun l => !others.owned l && !others.pinned l

/-- A fault found in a command, of which the skein meets the first (R275). -/
def Cmd.meets (c : Cmd) (code : BitVec 16) : Cmd :=
  if c.failed then c else { c with fault := some code, failed := true }

/-- An uncorrectable error found at a location by a command of a skein: counted, and its fault (R275, R348). -/
def State.cmdError (s : State) (k : Skein) (c : Cmd) (l : Loc) (f : Cmd → Cmd) : State :=
  (s.countError k.coreId l.addr (s.failLevel l)).modCmd k.id c.order fun c => some ((f c).meets (s.errorCode l))

/-- The oldest engine decrement that a command owes is made; of an object in a failed unit the command meets the error, and the
count is not paid (R223, R275, R284, R349). -/
def State.payCount (s : State) (k : Skein) (c : Cmd) (n : Nat) : State :=
  let paid (c : Cmd) : Cmd := { c with owes := c.owes.drop 1 }
  match c.barrier with
  | none => s.modCmd k.id c.order fun c => some (paid c)
  | some off => match ((s.blockOf k).sloc off |>.span 16).find? s.failedAt with
    | some l => s.cmdError k c l paid
    | none => (s.modCmd k.id c.order fun c => some (paid c)).sbDecrement k off n

end Sys2Proof.Machine
end

