-- ==== Sys2Proof/Machine/Service.lean ====
section
/-! DEFINITION. What Finwesin serves, first part: how a call is found, checked and answered, and the calls for time, memory,
baskets, stages, bins, groups and interrupts (R147, R183, R184, R283, R293 to R297, R338, R355 to R360, R401). -/

namespace Sys2Proof.Machine

/-! ## Calls and answers -/

/-- A call being served. -/
structure Req where
  s : State
  k : Skein
  p : Split
  c : Context
  call : Call
  argset : OSet
  /-- The SYSCALL word. -/
  word : Addr

/-- The outcome of a service: the state, the values for v0, v1, ..., and the service set (R357). With no values the call is
still in flight. -/
structure Ans where
  s : State
  vals : List Nat
  set : OSet

/-- A service that stops early: with an answer, or because a line it needs is held (R242). -/
abbrev Serve := Except (Option Ans)

/-- An argument word. -/
def Req.arg (r : Req) (n : Nat) : Nat := (r.call.args.getD n 0).toNat

/-- A pair of argument words, low word first (R357). -/
def Req.pair (r : Req) (n : Nat) : Nat := r.arg n + r.arg (n + 1) * 2 ^ 32

/-- TIME and MEM-ALLOC return 64 bits (R359). -/
def wideCall (num : Nat) : Bool := num ≤ 1

/-- The values of a failed call (R359). -/
def failVals (num : Nat) (code : BitVec 16) : List Nat :=
  (0xFFFF0000 + code.toNat) :: (if wideCall num then [0xFFFFFFFF] else [])

/-- The call fails with a code; what was read so far gives the service set. -/
def Req.fail (r : Req) (code : BitVec 16) (set : OSet) : Serve α := .error (some ⟨r.s, failVals r.call.num code, set⟩)

/-- INVALID-ARGUMENT naming an argument (R347, R358). -/
def invalidArg (n : Nat) : BitVec 16 := dnr 0x18 n

/-- NO-RESOURCE (R347). -/
def noResource : BitVec 16 := 0x1900

/-- The call fails unless a condition on an argument holds. Of several arguments that are wrong the first is named: the argument words in
ascending order, and then what stands in memory where an argument points (R358, log 31). -/
def Req.need (r : Req) (ok : Bool) (n : Nat) : Serve Unit := if ok then .ok () else r.fail (invalidArg n) 0

/-- NOT-FOUND (R347). -/
def notThere : BitVec 16 := 0x9A00

/-- The call fails unless the thing an argument names exists (R347, log 17). -/
def Req.found (r : Req) (ok : Bool) : Serve Unit := if ok then .ok () else r.fail notThere 0

/-- Argument words that must be 0 (R358). -/
def Req.zeros (r : Req) : List Nat → Serve Unit
  | [] => .ok ()
  | n :: t => do
    r.need (r.arg n == 0) n
    r.zeros t

/-- The call numbers that coalesce (R357). -/
def coalesces (num : Nat) : Bool :=
  [0x00, 0x03, 0x10, 0x11, 0x12, 0x13, 0x1B, 0x29, 0x2B, 0x30, 0x39].contains num

/-- The call numbers of R357. -/
def listedCalls : List Nat :=
  [0x00, 0x01, 0x02, 0x03, 0x10, 0x11, 0x12, 0x13, 0x18, 0x19, 0x1A, 0x1B, 0x20, 0x28, 0x29, 0x2A, 0x2B, 0x30, 0x31, 0x38,
   0x39]

/-- Two calls are identical (R355). The checks of FILE-READ and FILE-WRITE also depend on argset. -/
def sameCall (k j : Skein) (a b : Call) (x y : OSet) : Bool :=
  j.ctx == k.ctx && j.cluster == k.cluster && a.num == b.num && a.args == b.args &&
    (a.num != 3 || a.args.headD 0 != 0 || (k.grid == j.grid && k.block == j.block)) &&
    ((a.num != 0x11 && a.num != 0x12) || x == y)

/-- The calls of a parked split that satisfy a test take a result. -/
def Split.answer (p : Split) (f : Call → OSet → Bool) (res : List (BitVec 32) × OSet) : Split :=
  match p.st with
  | .parked (.syscall calls argset resume word) =>
    let done := calls.map fun c => if c.result.isNone && f c argset then { c with result := some res } else c
    { p with st := .parked (.syscall done argset resume word) }
  | _ => p

/-- A call has a storage command of its own in flight, and so is answered by it alone: it may not resume before the command's write is
performed (R356). -/
def State.commanded (s : State) (j : Skein) (c : Call) : Bool := s.nvme.any (·.caller == (j.grid, j.block, j.num, c.lane))

/-- A call is answered; a coalescing call may be answered together with those identical to it (R355, R356). -/
def State.answer (s : State) (k : Skein) (call : Call) (argset : OSet) (vals : List Nat) (set : OSet) : State :=
  let all := coalesces call.num && Config.freeBit s.free
  let res := (vals.map (BitVec.ofNat 32), set)
  let hit (j : Skein) (c : Call) (x : OSet) : Bool :=
    (j.id == k.id && c == call && x == argset) || (all && !s.commanded j c && sameCall k j call c argset x)
  { s with free := s.free + 1, skeins := s.skeins.map fun j =>
      { j with splits := j.splits.map fun p => p.answer (hit j) res } }

/-- The unanswered call of a lane of a parked split of a skein. -/
def State.requestOf (s : State) (k : Skein) (p : Split) (lane : Nat) : Option Req :=
  match s.ctx? k.ctx, p.st with
  | some c, .parked (.syscall calls argset _ word) =>
    match calls.find? (·.lane == lane) with
    | none => none
    | some q =>
      let early := !coalesces q.num && calls.any fun d => decide (d.lane < lane) && d.result.isNone
      if q.result.isSome || early || c.over then none else some ⟨s, k, p, c, q, argset, word⟩
  | _, _ => none

/-- The unanswered call of a lane of a parked split of a resident skein. -/
def State.request (s : State) (sid uid lane : Nat) : Option Req :=
  (s.skein? sid).bind fun k => (k.split? uid).bind fun p => s.requestOf k p lane

/-- The caller of a call: its grid, block, skein number and lane. -/
def Req.caller (r : Req) : Nat × Nat × Nat × Nat := (r.k.grid, r.k.block, r.k.num, r.call.lane)

/-- The unanswered call of a caller, running or saved. -/
def State.waiting (s : State) (caller : Nat × Nat × Nat × Nat) : Option Req :=
  ((s.skeins ++ s.ctxs.flatMap (·.saved)).filter fun k => (k.grid, k.block, k.num) == (caller.1, caller.2.1, caller.2.2.1)).findSome?
    fun k => k.splits.findSome? fun p => s.requestOf k p caller.2.2.2

/-- What a service leaves, with its call answered if it has values; none where a held line keeps it (R242, R355). -/
def finish (r : Req) (x : Serve Ans) : Option State :=
  match x with
  | .ok a | .error (some a) => some (if a.vals.isEmpty then a.s else a.s.answer r.k r.call r.argset a.vals a.set)
  | .error none => none

/-- A service call of one lane: found, served and answered (R355). -/
def serve (num : Nat → Bool) (sid uid lane : Nat) (s : State) (body : Req → Serve Ans) :
    Host.Outcome State Fault Refusal :=
  .next (match s.request sid uid lane with
    | none => s
    | some r =>
      if !num r.call.num then s else (finish r (body r)).getD s)

/-! ## Pages that a service reaches (R359) -/

/-- One piece of a page, mapped first if a held region has it. -/
def State.svcPiece (s : State) (ctx : Nat) (need : Need) (va n : Nat) : Except (BitVec 16) (State × Part) :=
  match s.ctx? ctx with
  | none => .error (dnr 3 1)
  | some c =>
    let t := match s.walk c va, c.region? va with
      | .unmapped, some _ => s.mapPiece ctx va
      | _, _ => s
    match t.walk c va with
    | .unmapped => .error (dnr 3 1)
    | .malformed => .error (dnr 3 2)
    | .leaf l =>
      if !l.permits need then .error (dnr 4 1)
      else if need.mask && !c.mayRead l.set then .error (dnr 4 2)
      else .ok (t, ⟨locG l.pa, n, l.type, [l.set]⟩)

/-- The pieces of a range in address order. -/
def State.svcPieces (s : State) (ctx : Nat) (need : Need) : List (Nat × Nat) → Except (BitVec 16) (State × List Part)
  | [] => .ok (s, [])
  | (va, n) :: t =>
    match s.svcPiece ctx need va n with
    | .error e => .error e
    | .ok (u, p) => match u.svcPieces ctx need t with
      | .error e => .error e
      | .ok (v, ps) => .ok (v, p :: ps)

/-- The locations of some parts. -/
def partLocs (ps : List Part) : List Loc := ps.flatMap fun p => p.loc.span p.n

/-- The join of their sets. -/
def partSet (ps : List Part) : OSet := ps.foldl (fun a p => p.sets.foldl (· ||| ·) a) 0

/-- A range checked as a demand access that never parks; `set` is what the service has read so far. -/
def Req.reach (r : Req) (need : Need) (va n : Nat) (set : OSet) : Serve (Req × List Part) :=
  match r.s.svcPieces r.c.id need (pieces (n / 65536 + 2) (va % 2 ^ 64) n) with
  | .error code => r.fail code set
  | .ok (t, ps) =>
    let ls := partLocs ps
    let held := ls.any fun l => t.owned l || (need.wr && t.pinned l)
    if held then .error none else .ok ({ r with s := t }, ps)

/-- The bytes of a range, with the set of its pages; a failed unit fails the call and is counted (R348, R434, log 31). -/
def Req.read (r : Req) (va n : Nat) (set : OSet) : Serve (Req × List Byte × OSet) := do
  let (r, ps) ← r.reach needLoad va n set
  let all := set ||| partSet ps
  match (partLocs ps).find? r.s.failedAt with
  | some l => Req.fail { r with s := r.s.countError r.k.coreId l.addr (r.s.failLevel l) } (r.s.errorCode l) all
  | none => .ok (r, (partLocs ps).map (r.s.engineByte r.k.die), all)

/-- Bytes written by the mender to parts in order. Such a write that covers a whole failed unit makes it sound, as the other writes of R349 do,
whose list does not name it (log 31). -/
def State.svcWrite (s : State) (die : Nat) (ps : List Part) (bs : List Byte) : State :=
  let ls := (partLocs ps).take bs.length
  ((ls.zip bs).foldl (fun t x => t.engineWrite die x.1 x.2) s).mend ls

/-- A number that no listed one equals, free within a bound (log 7). -/
def State.freshNum (s : State) (used : List Nat) (bound : Nat) : Nat × State :=
  let n := s.takeWord.1 % bound
  (if used.contains n then ((List.range (used.length + 1)).find? fun m => !used.contains m).getD 0 else n, s.takeWord.2)

/-! ## TIME and memory -/

/-- TIME (R357, R359, R342). The host's clock runs on by a free amount (log 7). -/
def execTimeCall (sid uid lane : Nat) (s : State) : Host.Outcome State Fault Refusal :=
  serve (· == 0) sid uid lane s fun r => do
    r.zeros [0, 1, 2, 3]
    let w := r.s.takeWord
    let now := (r.s.hostTime + w.1 % 2 ^ 32) % 2 ^ 63
    let n := (w.2.cluster r.k.cluster).counter
    .ok ⟨{ w.2 with hostTime := now }, [now, now / 2 ^ 32, n, n / 2 ^ 32], 0⟩

/-- The bytes of a page size code (R358). -/
def pageBytes (code : Nat) : Nat := match code with
  | 0 => 2 ^ 16
  | 1 => 2 ^ 21
  | _ => 2 ^ 30

/-- A virtual range meets a region. -/
def Region.meets (r : Region) (va n : Nat) : Bool := decide (va < r.va + r.len) && decide (r.va < va + n)

/-- A range meets memory that the context has mapped already or holds. -/
def Context.taken (c : Context) (va n : Nat) : Bool := c.regions.any (·.meets va n) || c.shared.any (·.meets va n)

/-- A base for a new region: free, aligned, clear of held regions and of the highest 4 GiB (R359, log 7). -/
def State.freeBase (s : State) (c : Context) (size n : Nat) : Option Nat × State :=
  let ok (va : Nat) : Bool := va % size == 0 && decide (va + n ≤ 2 ^ 64 - 2 ^ 32) && !c.taken va n
  let top := (c.regions ++ c.shared).foldl (fun a r => max a (r.va + r.len)) 0
  let high := (top + size - 1) / size * size
  let w := s.takeWord.1 / size * size
  (if ok w then some w else if ok high then some high else none, s.takeWord.2)

/-- Physical frames of a partition's HBM ranges for a region, aligned to its page size, from those that no allocation has taken: the
lowest that lie together in its ranges on working stacks (R347, R386, R398, log 7, log 30). -/
def State.freeFrames (s : State) (part size n : Nat) : Option (Nat × State) :=
  let p := s.part part
  let unit := size / 2 ^ 16
  let count := n / 2 ^ 16
  let up (f : Nat) : Nat := (f + unit - 1) / unit * unit
  let fits (f : Nat) : Bool := decide (p.nextFrame ≤ f) && decide (0 < count) &&
    (List.range ((f + count - 1) / gibFrames + 1 - f / gibFrames)).all (fun i => p.hbm.contains (f / gibFrames + i)) &&
    paExists s.localGiB (f * 2 ^ 16) && paExists s.localGiB ((f + count) * 2 ^ 16 - 1) &&
    (List.range (min count 3)).all fun i => frameUp s.hbmUp (f + i)
  match ((up p.nextFrame :: p.hbm.map fun g => up (g * gibFrames)).flatMap fun f => [f, f + unit, f + 2 * unit]).find? fits with
  | none => none
  | some f => some (f, s.modPart part fun p => { p with nextFrame := f + count })

/-- MEM-ALLOC of G pages: the region is held from now on and mapped at its first access (R358, R442). -/
def Req.allocG (r : Req) (bytes : Nat) : Serve Ans := do
  let size := pageBytes (bitsOf (r.arg 2) 1 2)
  let oidx := bitsOf (r.arg 2) 4 12
  r.need (bytes != 0 && (bitsOf (r.arg 2) 1 2 == 3 || bytes % size == 0)) 0
  r.need (bitsOf (r.arg 2) 1 3 < 3 && bitsOf (r.arg 2) 16 16 == 0 && (r.s.oset r.c.part oidx).subset r.c.readMask) 2
  r.zeros [3]
  let b := r.s.takeBit
  let base := b.2.freeBase r.c size bytes
  match b.1, base.1, base.2.freeFrames r.c.part size bytes with
  | false, some va, some (f, t) =>
    let g : Region := { va := va, len := bytes, frame := f, oidx := oidx, type := 0, perm := 3,
                        size := bitsOf (r.arg 2) 1 2, kind := 0 }
    .ok ⟨t.setCtx { r.c with regions := r.c.regions ++ [g] }, [va, va / 2 ^ 32], 0⟩
  | _, _, _ => Req.fail { r with s := base.2 } noResource 0

/-- MEM-ALLOC of a C window (R183, R358). -/
def Req.allocC (r : Req) (bytes : Nat) : Serve Ans := do
  let ws := (r.s.cluster r.k.cluster).wins
  r.need (bytes != 0 && bytes % 65536 == 0) 0
  r.need (bitsOf (r.arg 2) 1 31 == 0 && !ws.any (·.ctx == r.c.id)) 2
  r.zeros [3]
  if 6 * 2 ^ 20 < ws.foldl (fun n w => n + w.size) 0 + bytes then r.fail noResource 0
  else
    let w : CWin := ⟨r.c.id, bytes, [], List.replicate (bytes / 1024) (tenantBit r.c.tenant)⟩
    .ok ⟨r.s.modCluster r.k.cluster fun c => { c with wins := c.wins ++ [w] }, [bytes, bytes / 2 ^ 32], 0⟩

/-- MEM-ALLOC (R357, R358). -/
def execMemAlloc (sid uid lane : Nat) (s : State) : Host.Outcome State Fault Refusal :=
  serve (· == 1) sid uid lane s fun r => if bitsOf (r.arg 2) 0 1 = 0 then r.allocG (r.pair 0) else r.allocC (r.pair 0)

/-- A region less a range inside it. -/
def Region.less (r : Region) (va n : Nat) : List Region :=
  if !r.meets va n then [r]
  else
    (if r.va < va then [{ r with len := va - r.va }] else []) ++
    (if va + n < r.va + r.len then
      [{ r with va := va + n, len := r.va + r.len - (va + n), frame := r.frame + (va + n - r.va) / 2 ^ 16 }] else [])

/-- The frames of a range of a region. -/
def Region.framesIn (r : Region) (va n : Nat) : List Nat :=
  ((List.range (r.len / 2 ^ 16)).filter fun i => decide (va ≤ r.va + i * 2 ^ 16) && decide (r.va + i * 2 ^ 16 < va + n)).map (r.frame + ·)

/-- A range of regions of some kinds is removed: its entries, its place in the context, its grants, its frames in storage commands, and
the failed units of its pages, which are zeroed before another use (R199, R349, R388, R401, R442, log 30). -/
def State.removeRange (s : State) (ctx va n : Nat) : State :=
  match s.ctx? ctx with
  | none => s
  | some c =>
    let frames := c.regions.flatMap fun r => r.framesIn va n
    let busy := ((s.nvme.filter (·.submitted)).flatMap (·.frames)).filter frames.contains
    let t := s.unmapRange ctx va (n / 2 ^ 16)
    let t : State := { t with
      quarantined := (t.quarantined ++ busy).eraseDups,
      failedUnits := t.failedUnits.filter fun f => !(f.sp == .g && frames.contains (f.unit / 2048)),
      grants := t.grants.filter fun g => !(g.ctx == ctx && decide (va ≤ g.va) && decide (g.va < va + n)) }
    match t.ctx? ctx with
    | none => t
    | some d => t.setCtx { d with regions := d.regions.flatMap fun r => r.less va n }

/-- Every 64 KiB piece of a range lies in a held region of some kinds whose page size divides the range's ends. -/
def Context.holdsRange (c : Context) (kinds : List Nat) (va n : Nat) : Bool :=
  (List.range (n / 2 ^ 16)).all fun i => match c.region? (va + i * 2 ^ 16) with
    | none => false
    | some r => kinds.contains r.kind && va % pageBytes r.size == 0 && n % pageBytes r.size == 0

/-- MEM-UNMAP (R357, R401, R442). -/
def execMemUnmap (sid uid lane : Nat) (s : State) : Host.Outcome State Fault Refusal :=
  serve (· == 2) sid uid lane s fun r => do
    let whole := r.arg 2 != 0 && r.arg 2 % 65536 == 0
    r.need (r.pair 0 % 65536 == 0 && (!whole || r.c.holdsRange [0, 2] (r.pair 0) (r.arg 2))) 0
    r.need whole 2
    r.zeros [3]
    .ok ⟨r.s.removeRange r.c.id (r.pair 0) (r.arg 2), [0], 0⟩

/-- The sets of a range of 1 KiB blocks widened (R184). -/
def widen (sets : List OSet) (off n : Nat) (x : OSet) : List OSet :=
  sets.mapIdx fun i y => if off / 1024 ≤ i ∧ i < (off + n) / 1024 then y ||| x else y

/-- TAG-WIDEN (R184, R358). -/
def execTagWiden (sid uid lane : Nat) (s : State) : Host.Outcome State Fault Refusal :=
  serve (· == 3) sid uid lane s fun r => do
    let sp : Space := if r.arg 0 = 0 then .s else .c
    let x : OSet := BitVec.ofNat 16 (r.arg 3)
    r.need (decide (r.arg 0 ≤ 1)) 0
    r.need (r.arg 1 % 1024 == 0 && decide (r.arg 1 + r.arg 2 ≤ r.s.spaceSize r.k sp)) 1
    r.need (r.arg 2 != 0 && r.arg 2 % 1024 == 0) 2
    r.need (decide (r.arg 3 < 65536) && x.subset r.c.readMask) 3
    let b := r.s.blockOf r.k
    let w (c : Cluster) : Cluster := { c with
      wins := c.wins.map fun w => if w.ctx == r.c.id then { w with sets := widen w.sets (r.arg 1) (r.arg 2) x } else w }
    .ok ⟨if r.arg 0 = 0 then r.s.setBlock { b with spSets := widen b.spSets (r.arg 1) (r.arg 2) x }
         else r.s.modCluster r.k.cluster w, [0], 0⟩

/-! ## Baskets, stages, bins (R147, R293, R296, R338) -/

/-- The bytes of CL and DV basket storage in use on a cluster (R183). -/
def Cluster.basketBytes (c : Cluster) : Nat :=
  (c.baskets.filter fun b => b.st != .free && b.scope != 0).foldl (fun n b => n + b.n * b.e) 0

/-- BASKET-CREATE (R296, R358): a FREE slot that the controller chooses (log 7). -/
def execBasketCreate (sid uid lane : Nat) (s : State) : Host.Outcome State Fault Refusal :=
  serve (· == 0x28) sid uid lane s fun r => do
    let lg := bitsOf (r.arg 0) 0 4
    let es := bitsOf (r.arg 0) 4 3
    let scope := bitsOf (r.arg 0) 8 2
    let n := 2 ^ lg
    let e := 16 * 2 ^ es
    let x : OSet := BitVec.ofNat 16 (r.arg 2)
    r.need (decide (4 ≤ lg) && decide (lg ≤ 12) && decide (es ≤ 4) && decide (scope ≤ 2) && bitsOf (r.arg 0) 7 1 == 0 &&
      decide (r.arg 0 < 1024)) 0
    r.need (if scope = 0 then r.arg 1 % 64 == 0 && decide (r.arg 1 + n * e ≤ r.s.spaceSize r.k .s) &&
      !r.s.hitsBasket r.k .s (r.arg 1) (n * e) else r.arg 1 == 0) 1
    r.need (decide (r.arg 2 < 65536) && (tenantBit r.c.tenant).subset x && x.subset r.c.readMask) 2
    r.zeros [3]
    let c := r.s.cluster r.k.cluster
    let open0 := (List.range 64).filter fun i => (c.baskets.getD i Basket.reset).st == .free
    if open0.isEmpty || (scope != 0 && decide (2 ^ 21 < c.basketBytes + n * e)) then r.fail noResource 0
    else
      let w := r.s.takeWord
      let slot := open0.getD (w.1 % open0.length) 0
      let gen := (c.baskets.getD slot Basket.reset).gen + 1
      let t := w.2.modBasket r.k.cluster slot fun _ =>
        { st := .opened, gen := gen, ctx := r.c.id, scope := scope, owner := (r.k.grid, r.k.block), n := n, e := e,
          off := r.arg 1, set := x, ring := [] }
      let b := t.blockOf r.k
      let t := if scope = 0 then t.setBlock { b with cells := cellsClear b.cells (r.arg 1) (n * e) } else t
      .ok ⟨t, [handleMake r.k.cluster gen.toNat slot], 0⟩

/-- A handle of a basket of the caller's context (R295). -/
def Req.basketOk (r : Req) (v : Nat) : Bool :=
  !r.s.staleHandle v && (r.s.basket (hCluster v) (hSlot v)).inScope (hCluster v) r.k

/-- BASKET-DESTROY (R296). -/
def execBasketDestroy (sid uid lane : Nat) (s : State) : Host.Outcome State Fault Refusal :=
  serve (· == 0x29) sid uid lane s fun r => do
    r.found (r.basketOk (r.arg 0))
    r.zeros [1, 2, 3]
    .ok ⟨r.s.retireBasket (hCluster (r.arg 0)) (hSlot (r.arg 0)), [0], 0⟩

/-- STAGE-REGISTER (R338): an index that is not in use (log 7). -/
def execStageRegister (sid uid lane : Nat) (s : State) : Host.Outcome State Fault Refusal :=
  serve (· == 0x2A) sid uid lane s fun r => do
    r.found (r.basketOk (r.arg 0) && (r.s.basket (hCluster (r.arg 0)) (hSlot (r.arg 0))).st == .opened)
    r.need (decide (1 ≤ r.arg 1) && decide (r.arg 1 ≤ 4096)) 1
    r.need (decide (r.arg 2 < r.arg 1)) 2
    r.zeros [3]
    let c := r.s.cluster r.k.cluster
    let open0 := (List.range 64).filter fun i => !(c.stages.getD i Stage.reset).valid
    if open0.isEmpty then r.fail noResource 0
    else
      let w := r.s.takeWord
      let i := open0.getD (w.1 % open0.length) 0
      let x : Stage := ⟨true, BitVec.ofNat 32 (r.arg 0), r.arg 1, r.arg 2, r.c.id, 0, false⟩
      .ok ⟨w.2.modCluster r.k.cluster fun c => { c with stages := c.stages.set i x }, [i], 0⟩

/-- STAGE-REMOVE (R338, R357). -/
def execStageRemove (sid uid lane : Nat) (s : State) : Host.Outcome State Fault Refusal :=
  serve (· == 0x2B) sid uid lane s fun r => do
    let x := (r.s.cluster r.k.cluster).stages.getD (r.arg 0) Stage.reset
    r.found (x.valid && x.ctx == r.c.id)
    r.zeros [1, 2, 3]
    .ok ⟨r.s.modCluster r.k.cluster fun c => { c with stages := c.stages.set (r.arg 0) Stage.reset }, [0], 0⟩

/-- SPAWN-CONFIG (R147, R357). -/
def execSpawnConfig (sid uid lane : Nat) (s : State) : Host.Outcome State Fault Refusal :=
  serve (· == 0x30) sid uid lane s fun r => do
    r.need ((r.c.kernelAt (r.pair 0)).isSome) 0
    r.need (decide (1 ≤ r.arg 2) && decide (r.arg 2 ≤ 2 ^ 24)) 2
    r.zeros [3]
    let f (c : Cluster) : Cluster := { c with
      periods := (r.pair 0, r.c.id, r.arg 2) :: c.periods.filter fun x => !(x.1 == r.pair 0 && x.2.1 == r.c.id) }
    .ok ⟨r.s.modCluster r.k.cluster f, [0], 0⟩

/-! ## Collective groups and interrupt targets (R283, R358, R360) -/

/-- COLL-GROUP (R283, R358). The handle can be used for WCOLL once the other members have made the call as well, which a message
of theirs says. -/
def execCollGroup (sid uid lane : Nat) (s : State) : Host.Outcome State Fault Refusal :=
  serve (· == 0x31) sid uid lane s fun r => do
    let x : OSet := BitVec.ofNat 16 (r.arg 3)
    let pt := r.s.part r.c.part
    r.need (decide (2 ≤ r.arg 2) && decide (r.arg 2 ≤ 1024)) 2
    r.need (decide (r.arg 3 < 65536) && (tenantBit r.c.tenant).subset x && x.subset r.c.readMask) 3
    let (r, bs, set) ← r.read (r.pair 0) (2 * r.arg 2) 0
    let ms := (List.range (r.arg 2)).map fun m => ofBytesLE ((bs.drop (2 * m)).take 2)
    if !(ms.all (fun m => decide (m < pt.modules.length)) && ms.eraseDups.length == ms.length && ms.contains pt.selfIndex) then
      r.fail (invalidArg 0) set
    else
      let h := r.s.freshNum (r.s.groups.map (·.handle)) 0xFFFF0000
      let g : Group := { handle := h.1, ctx := r.c.id, members := ms, self := ms.findIdx (· == pt.selfIndex), set := x,
                         ready := false }
      .ok ⟨{ h.2 with groups := h.2.groups ++ [g] }, [h.1], set⟩

/-- UINT-REGISTER (R358, R360). The pending record of a target of kind 1 is taken in the address space of the target context, which is the one
that may unregister it: the model's choices (log 29). On which core a thread runs at this moment, if it does, is the chiplet's to say (log 7); its operating
system keeps it in the entry from then on. -/
def execUintRegister (sid uid lane : Nat) (s : State) : Host.Outcome State Fault Refusal :=
  serve (· == 0x38) sid uid lane s fun r => do
    r.need (decide (r.arg 2 ≤ 1)) 2
    r.zeros [3]
    let (r, bs, set) ← r.read (r.pair 0) 16 0
    let va := ofBytesLE (bs.take 8)
    let who := ofBytesLE (bs.drop 8)
    let tgt := if r.arg 2 = 0 then some r.c.id
      else ((r.s.grids.find? fun g => g.id == who && g.part == r.c.part).map (·.ctx))
    match tgt with
    | none => r.fail (invalidArg 0) set
    | some ctx =>
      if va % 8 != 0 then r.fail (invalidArg 0) set
      else
        let h := r.s.freshNum (r.s.uints.map (·.handle)) 0xFFFF0000
        let b := h.2.takeBit
        let w := b.2.takeWord
        let core := if r.arg 2 = 0 ∧ b.1 then some (w.1 % 16) else none
        let t : UTarget := ⟨h.1, r.arg 2, va, who, core, if r.arg 2 = 0 then r.c.id else ctx⟩
        .ok ⟨{ w.2 with uints := w.2.uints ++ [t] }, [h.1], set⟩

/-- UINT-UNREGISTER (R357): by a call of the context in whose memory the record stands (log 29). -/
def execUintUnregister (sid uid lane : Nat) (s : State) : Host.Outcome State Fault Refusal :=
  serve (· == 0x39) sid uid lane s fun r => do
    r.found (r.s.uints.any fun t => t.handle == r.arg 0 && t.kind != 2 && t.ctx == r.c.id)
    r.zeros [1, 2, 3]
    .ok ⟨{ r.s with uints := r.s.uints.filter (·.handle != r.arg 0) }, [0], 0⟩

/-- UNLISTED_CALL (R357). -/
def execUnlistedCall (sid uid lane : Nat) (s : State) : Host.Outcome State Fault Refusal :=
  serve (fun n => !listedCalls.contains n) sid uid lane s fun r => r.fail (invalidArg 0) 0

end Sys2Proof.Machine
end

