-- ==== Sys2Proof/Machine/Files.lean ====
section
/-! DEFINITION. What Finwesin serves, second part: files, storage commands, sockets and the release gate (R355, R357 to R359,
R401 to R408). -/

namespace Sys2Proof.Machine

/-- The longest transfer of a call (R357, R407). -/
def maxTransfer : Nat := 16 * 2 ^ 20

/-- The failure of a transfer by what the outside reports: 1 reset by peer, 2 refused (R347). -/
def connectionCode (ext : Nat) : BitVec 16 := if ext = 2 then 0x1C01 else 0x1C00

/-- IO-ERROR with an NVMe status (R347). -/
def ioError (status : Nat) : BitVec 16 := BitVec.ofNat 16 (0xDB00 + status % 256)

/-! ## Files (R357, R358) -/

/-- A path string: its bytes before the terminating 0, none when it is not of the form of R358. -/
def pathOf (bs : List Byte) : Option (List Byte) :=
  let p := bs.takeWhile (· != 0)
  if decide (1 ≤ p.length) && decide (p.length ≤ 255) && p.all fun b => decide (0x21 ≤ b.toNat) && decide (b.toNat ≤ 0x7E) then
    some p else none

/-- The bytes of a string up to its terminator, each page as it is reached. -/
def Req.string (r : Req) (va : Nat) : Nat → OSet → Serve (Req × List Byte × OSet)
  | 0, set => .ok (r, [], set)
  | f + 1, set => do
    let (r, b, set) ← r.read va 1 set
    if b == [0#8] then .ok (r, b, set)
    else do
      let (r, t, set) ← r.string (va + 1) f set
      .ok (r, b ++ t, set)

/-- A file of a partition's namespace. -/
def State.file? (s : State) (part ns : Nat) (path : List Byte) : Option FileRec :=
  s.files.find? fun f => f.part == part && f.ns == ns && f.path == path

/-- A file's bytes replaced, or the file made. -/
def State.putFile (s : State) (part ns : Nat) (path data : List Byte) : State :=
  if (s.file? part ns path).isSome then
    let f (x : FileRec) : FileRec := if x.part == part && x.ns == ns && x.path == path then { x with data := data } else x
    { s with files := s.files.map f }
  else { s with files := s.files ++ [⟨part, ns, path, data⟩] }

/-- A descriptor number is taken for a new descriptor (log 7). -/
def Req.opened (r : Req) (s : State) (d : Desc) (set : OSet) : Ans :=
  let n := s.freshNum (r.c.descs.map (·.num)) 0xFFFF0000
  ⟨n.2.setCtx { r.c with descs := r.c.descs ++ [{ d with num := n.1 }] }, [n.1], set⟩

/-- FILE-OPEN (R358). `ext` is the status of the storage: 0 success. No command reaches a namespace whose NVMe port did not come up
(R430): IO-ERROR with what the outside reports (log 37). -/
def execFileOpen (sid uid lane ext : Nat) (s : State) : Host.Outcome State Fault Refusal :=
  serve (· == 0x10) sid uid lane s fun r => do
    r.need (decide (r.arg 2 < 16) && r.arg 2 % 4 != 0) 2
    r.need (decide (r.arg 3 < (r.s.part r.c.part).namespaces.length) && decide (r.arg 3 ≤ 255)) 3
    let (r, bs, set) ← r.string (r.pair 0) 256 0
    match pathOf bs with
    | none => r.fail (invalidArg 0) set
    | some path =>
      let old := r.s.file? r.c.part (r.arg 3) path
      if ext != 0 || (r.s.part r.c.part).deadNs.contains (r.arg 3) then r.fail (ioError ext) set
      else if old.isNone && bitsOf (r.arg 2) 2 1 == 0 then r.fail (dnr 0x1A 0) set
      else
        let s1 := if old.isNone || bitsOf (r.arg 2) 3 1 == 1 then r.s.putFile r.c.part (r.arg 3) path [] else r.s
        .ok (r.opened s1 ⟨0, r.arg 3, path, r.arg 2, true⟩ set)

/-- The open file or socket that an argument names. -/
def Req.desc (r : Req) (file : Bool) : Serve Desc :=
  match r.c.descs.find? fun d => d.num == r.arg 0 && d.isFile == file with
  | some d => .ok d
  | none => r.fail notThere 0

/-- The frames of some parts (R401). -/
def framesOf (ps : List Part) : List Nat :=
  (ps.flatMap fun p => (List.range ((p.loc.addr + p.n - 1) / 65536 + 1 - p.loc.addr / 65536)).map (p.loc.addr / 65536 + ·)).eraseDups

/-- A storage command of this call is in flight. -/
def Req.inFlight (r : Req) : Bool := r.s.nvme.any (·.caller == r.caller)

/-- A storage command starts for this call, which stays in flight. Whether a write is still buffered is not known
(R399, log 7). -/
def Req.submit (r : Req) (d : Desc) (read : Bool) (data : List Byte) (ps : List Part) (off : Nat) (set : OSet) (ext : Nat) :
    Ans :=
  let b := r.s.takeBit
  let c : Nvme := { id := b.2.nextId, part := r.c.part, ctx := r.c.id, frames := framesOf ps, read := read,
                    submitted := read || b.1, data := data, buf := ps.map fun p => (p.loc.addr, p.n), ns := d.ns,
                    path := d.path, off := off, caller := r.caller, set := set,
                    status := ext, resetting := false, sent := b.2.linkTime }
  ⟨{ b.2 with nextId := b.2.nextId + 1, nvme := b.2.nvme ++ [c] }, [], set⟩

/-- The I/O record of FILE-READ, FILE-WRITE and EGRESS: buffer address and the second field (R357, R407). -/
def Req.ioRecord (r : Req) : Serve (Req × Nat × List Byte × OSet) := do
  let (r, bs, set) ← r.read (r.pair 2) 16 0
  .ok (r, ofBytesLE (bs.take 8), bs.drop 8, set)

/-- The set of a namespace (R357). -/
def Req.nsSet (r : Req) (d : Desc) : OSet := (r.s.part r.c.part).namespaces.getD d.ns 0

/-- FILE-READ (R357, R359): the command carries the file's bytes at the offset, and the namespace's set joins the service
set. A descriptor that was not opened for reading is an invalid argument 0, the model's choice (log 31). -/
def execFileRead (sid uid lane ext : Nat) (s : State) : Host.Outcome State Fault Refusal :=
  serve (· == 0x11) sid uid lane s fun r => do
    if r.inFlight then .error none
    let d ← r.desc true
    r.need (d.flags % 2 == 1) 0
    r.need (decide (r.arg 1 ≤ maxTransfer)) 1
    let (r, buf, off, set) ← r.ioRecord
    let (r, ps) ← r.reach needStore buf (r.arg 1) set
    if !(ps.all fun p => p.sets.all fun x => (r.nsSet d ||| r.argset).subset x) then r.fail (dnr 5 0) set
    else
      let data := ((((r.s.file? r.c.part d.ns d.path).elim [] (·.data)).drop (ofBytesLE off)).take (r.arg 1))
      .ok (r.submit d true data ps (ofBytesLE off) (set ||| r.nsSet d) ext)

/-- RELEASE-REFUSED, counted in the partition (R403, R407). -/
def Req.refuse (r : Req) (detail : Nat) (set : OSet) : Serve α :=
  Req.fail { r with s := r.s.modPart r.c.part fun p => { p with refusedEgress := satInc p.refusedEgress } } (dnr 0x10 detail) set

/-- FILE-WRITE through the release gate (R357, R403, R407). A descriptor that was not opened for writing is an invalid argument 0, the
model's choice (log 31). -/
def execFileWrite (sid uid lane ext : Nat) (s : State) : Host.Outcome State Fault Refusal :=
  serve (· == 0x12) sid uid lane s fun r => do
    if r.inFlight then .error none
    let d ← r.desc true
    r.need (d.flags / 2 % 2 == 1) 0
    r.need (decide (r.arg 1 ≤ maxTransfer)) 1
    let (r, buf, off, set) ← r.ioRecord
    let (r, bs, set) ← r.read buf (r.arg 1) set
    let (r, ps) ← r.reach needLoad buf (r.arg 1) set
    if !(set ||| r.argset).subset (r.nsSet d) then r.refuse 7 set
    else .ok (r.submit d false bs ps (ofBytesLE off) set ext)

/-- A descriptor is closed. -/
def Req.close (r : Req) (d : Desc) : Ans :=
  ⟨r.s.setCtx { r.c with descs := r.c.descs.filter (·.num != d.num) }, [0], 0⟩

/-- FILE-CLOSE (R357). -/
def execFileClose (sid uid lane : Nat) (s : State) : Host.Outcome State Fault Refusal :=
  serve (· == 0x13) sid uid lane s fun r => do
    let d ← r.desc true
    r.zeros [1, 2, 3]
    .ok (r.close d)

/-! ## Storage commands (R401, R402) -/

/-- A frame reads 0 again, with its units sound (R349). -/
def State.zeroFrame (s : State) (f : Nat) : State :=
  { s with mem := cellsClear s.mem (f * 2 ^ 16) (2 ^ 16),
           failedUnits := s.failedUnits.filter fun u => !(u.sp == .g && u.unit / 2048 == f) }

/-- The quarantined frames on which a command is the last, once it has left (R402). -/
def State.lastOn (s : State) (c : Nvme) : List Nat :=
  c.frames.filter fun f => s.quarantined.contains f && !s.nvme.any fun x => x.submitted && x.frames.contains f

/-- Quarantined frames of a command that no other command uses are zeroed and freed; their completion is counted (R402). -/
def State.releaseFrames (s : State) (c : Nvme) : State :=
  let last := s.lastOn c
  if last.isEmpty then s
  else
    let t := (last.foldl State.zeroFrame s).modPart c.part fun p => { p with quarantines := satInc p.quarantines }
    { t with quarantined := t.quarantined.filter fun f => !last.contains f }

/-- A file's bytes after a write at an offset; what a gap before it reads is not said (log 7). -/
def spliceFile (free : Nat) (old : List Byte) (off : Nat) (data : List Byte) : List Byte :=
  let gap := (List.range (off - old.length)).map fun i => BitVec.ofNat 8 (Config.freeWord (free + i)).toNat
  old.take off ++ gap ++ data ++ old.drop (off + data.length)

/-- What a command moves: a read into its pinned frames, a write into the file (R401). A read that covers a whole failed unit makes it sound
(log 31). -/
def State.transfer (s : State) (c : Nvme) : State :=
  if c.status != 0 then s
  else if c.read then
    let locs := (c.buf.flatMap fun b => (locG b.1).span b.2).take c.data.length
    ((locs.zip c.data).foldl (fun t x => t.poke x.1 x.2) s).mend locs
  else
    let old := (s.file? c.part c.ns c.path).elim [] (·.data)
    { s with free := s.free + (c.off - old.length) }.putFile c.part c.ns c.path (spliceFile s.free old c.off c.data)

/-- The call of a caller, by grid, block, skein number and lane, takes its result, running or saved (R355, R359). -/
def State.answerAt (s : State) (caller : Nat × Nat × Nat × Nat) (num : Nat) (vals : List Nat) (set : OSet) : State :=
  let mine (k : Skein) : Bool := (k.grid, k.block, k.num) == (caller.1, caller.2.1, caller.2.2.1)
  let call (x : Call) : Bool := x.lane == caller.2.2.2 && x.num == num && x.result.isNone
  let give (k : Skein) : Skein := if mine k then
      { k with splits := k.splits.map fun p => p.answer (fun x _ => call x) (vals.map (BitVec.ofNat 32), set) } else k
  let found := (s.skeins.filter mine).findSome? fun k => k.splits.findSome? fun p => match p.st with
    | .parked (.syscall calls argset _ _) => (calls.find? call).map fun x => (k, x, argset)
    | _ => none
  match found with
  | some (k, x, argset) => s.answer k x argset vals set
  | none => { s with ctxs := s.ctxs.map fun y => { y with saved := y.saved.map give } }

/-- The caller of a command takes its result (R355, R359). -/
def State.answerCaller (s : State) (c : Nvme) : State :=
  let num := if c.read then 0x11 else 0x12
  s.answerAt c.caller num (if c.status = 0 then [c.data.length] else failVals num (ioError c.status)) c.set

/-- A read's data cannot be written while an engine owns or pins a byte of the buffer (R242). -/
def State.transferHeld (s : State) (c : Nvme) : Bool :=
  c.read && c.status == 0 && (c.buf.flatMap fun b => (locG b.1).span b.2).any fun l => s.owned l || s.pinned l

/-- A command ends: its transfer, its frames, its caller. The completion of the last command on a quarantined frame is discarded (R402,
log 32). -/
def State.endNvme (s : State) (c : Nvme) : State :=
  if s.transferHeld c then s
  else
    let t : State := { s with nvme := s.nvme.filter (·.id != c.id) }
    let u := (t.transfer c).releaseFrames c
    if (t.lastOn c).isEmpty then u.answerCaller c else u

/-- NVME_COMPLETION (R401, R402). -/
def execNvmeCompletion (cmd : Nat) (s : State) : Host.Outcome State Fault Refusal :=
  .next (match s.nvme.find? (·.id == cmd) with
    | none => s
    | some c => if c.resetting then s else s.endNvme c)

/-- The status of a command that was aborted or lost; the specification gives none (log 7). -/
def State.lostStatus (s : State) : Nat × State := (s.takeWord.1 % 255 + 1, s.takeWord.2)

/-- A storage command has been incomplete for 30 s (R402). -/
def Nvme.late (c : Nvme) (now : Nat) : Bool := decide (c.sent + 52500000000 ≤ now)

/-- The drive of a command's namespace, whose controller has the command (R2, R402). -/
def State.ctrlOf (s : State) (c : Nvme) : Nat := (s.part c.part).drives.getD c.ns 0

/-- A command incomplete after 30 s is aborted, or the controller of its drive is reset, with every command that it has (R402, log 32). -/
def State.abortLate (s : State) (cmd : Nat) (abortFails : Bool) : State :=
  match s.nvme.find? (·.id == cmd) with
  | none => s
  | some c =>
    if c.resetting || !c.late s.linkTime then s
    else if abortFails then
      { s with nvme := s.nvme.map fun x => if x.submitted && s.ctrlOf x == s.ctrlOf c then { x with resetting := true } else x }
    else s.lostStatus.2.endNvme { c with status := s.lostStatus.1 }

/-- NVME_ABORT_TIMEOUT (R402). -/
def execNvmeAbortTimeout (cmd : Nat) (abortFails : Bool) (s : State) : Host.Outcome State Fault Refusal :=
  .next (s.abortLate cmd abortFails)

/-- The reset of a controller completes, and with it the commands it held (R402). -/
def State.endReset (s : State) (ctrl : Nat) : State :=
  (s.nvme.filter fun c => c.resetting && s.ctrlOf c == ctrl).foldl
    (fun t c => t.lostStatus.2.endNvme { c with status := t.lostStatus.1 }) s

/-- CONTROLLER_RESET_COMPLETE (R402). -/
def execControllerResetComplete (ctrl : Nat) (s : State) : Host.Outcome State Fault Refusal := .next (s.endReset ctrl)

/-! ## Sockets and egress (R357, R403 to R408) -/

/-- A partition has an Ethernet port, or a VLAN on it (R398). -/
def Partition.hasPort (p : Partition) (port : Nat) : Bool := p.ethPorts.contains port || p.vlans.any (·.1 == port)

/-- Data of a partition can leave by an Ethernet port: it has the port, and the port has come up (R398, R430). -/
def Partition.sends (p : Partition) (port : Nat) : Bool := p.hasPort port && !p.ethDown.contains port

/-- Data of a partition can reach a destination: its Ethernet port or its namespace's drive has come up (R398, R404, R430). -/
def Partition.linkUp (p : Partition) (d : Dest) : Bool :=
  if d.kind = 1 then p.sends d.port else if d.kind = 2 then !p.deadNs.contains d.target else true

/-- SOCK-CREATE (R358). `ext`: 0 success, 1 reset, 2 refused. A port that the partition neither owns nor has a VLAN on is an invalid argument
0 (R398, log 31); by one that did not come up no connection is made (R430, log 37). -/
def execSockCreate (sid uid lane ext : Nat) (s : State) : Host.Outcome State Fault Refusal :=
  serve (· == 0x18) sid uid lane s fun r => do
    r.need (decide (r.arg 0 ≤ 7) && (r.s.part r.c.part).hasPort (r.arg 0)) 0
    r.need (decide (r.arg 1 ≤ 1)) 1
    r.need (r.pair 2 % 8 == 0) 2
    let (r, bs, set) ← r.read (r.pair 2) 24 0
    let f (a n : Nat) : Nat := ofBytesLE ((bs.drop a).take n)
    if !((f 0 2 == 6 || (f 0 2 == 4 && f 12 12 == 0)) && f 4 4 == 0) then r.fail (invalidArg 2) set
    else if ext != 0 || !(r.s.part r.c.part).sends (r.arg 0) then r.fail (connectionCode ext) set
    else .ok (r.opened r.s ⟨0, r.arg 0, bs, r.arg 1, false⟩ set)

/-- What left the part (R403). -/
def State.leave (s : State) (part dest off : Nat) (data : List Byte) : State :=
  { s with egressed := s.egressed ++ [⟨part, dest, off, data⟩] }

/-- The one tenant of a set, if it holds one bit. -/
def oneTenant (x : OSet) : Option Nat := (List.range 16).find? fun t => x == tenantBit t

/-- SOCK-SEND through the release gate (R403, R405). `ext`: 0 every byte is accepted, 1 reset, 2 refused, otherwise at most
ext − 3 bytes are accepted. None leaves by a port that the partition does not have or that did not come up (R398, R430). -/
def execSockSend (sid uid lane ext : Nat) (s : State) : Host.Outcome State Fault Refusal :=
  serve (· == 0x19) sid uid lane s fun r => do
    let d ← r.desc false
    r.need (decide (r.arg 1 ≤ maxTransfer)) 1
    let (r, bs, set) ← r.read (r.pair 2) (r.arg 1) 0
    let dests := (r.s.part r.c.part).dests
    let at0 := (oneTenant (set ||| r.argset)).bind fun t =>
      dests.findIdx? fun x => x.kind == 1 && x.owner == t && x.port == d.ns && x.target == ofBytesLE d.path
    match at0 with
    | none => r.refuse 3 set
    | some n =>
      if ext == 1 || ext == 2 || !(r.s.part r.c.part).sends d.ns then r.fail (connectionCode ext) set
      else
        let sent := if ext = 0 then bs else bs.take (ext - 3)
        .ok ⟨r.s.leave r.c.part n 0 sent, [sent.length], set⟩

/-- SOCK-RECV (R357): what the peer sent. The buffer is checked as a demand store of argset would be (R27, R359). -/
def Req.receive (r : Req) (data : List Byte) : Serve Ans := do
  let _ ← r.desc false
  r.need (decide (r.arg 1 ≤ maxTransfer)) 1
  let (r, ps) ← r.reach needStore (r.pair 2) (r.arg 1) 0
  if !(ps.all fun p => p.sets.all fun x => r.argset.subset x) then r.fail (dnr 5 0) 0
  else
    let bs := data.take (r.arg 1)
    .ok ⟨r.s.svcWrite r.k.die ps bs, [bs.length], 0⟩

/-- What a peer sent for a call waits until engines let it into the buffer (R242). -/
def Req.receiving (r : Req) : Bool := r.s.heldOutside.any fun a => match a with
  | .received g b n l _ => r.caller == (g, b, n, l)
  | .app _ _ _ | .device _ _ _ _ | .window _ _ _ => false

/-- SOCK_RECV: bytes come for the call of a lane, and are written and reported, or held while an engine owns or pins a byte of the buffer
(R242, R248, R357). -/
def execSockRecv (sid uid lane : Nat) (data : List (BitVec 8)) (s : State) : Host.Outcome State Fault Refusal :=
  .next (match s.request sid uid lane with
    | none => s
    | some r =>
      if r.call.num != 0x1A || r.receiving then s
      else (finish r (r.receive data)).getD { s with
        heldOutside := s.heldOutside ++ [.received r.k.grid r.k.block r.k.num lane data] })

/-- Held bytes of a peer are offered again to their call, running or saved; they go with a call that no longer waits (R242, R248, R363). -/
def State.receiveHeld (s : State) (caller : Nat × Nat × Nat × Nat) (data : List Byte) : Option State :=
  match s.waiting caller with
  | none => some s
  | some r => match r.receive data with
    | .ok a | .error (some a) => some (a.s.answerAt caller 0x1A a.vals a.set)
    | .error none => none

/-- SOCK-CLOSE (R357). -/
def execSockClose (sid uid lane : Nat) (s : State) : Host.Outcome State Fault Refusal :=
  serve (· == 0x1B) sid uid lane s fun r => do
    let d ← r.desc false
    r.zeros [1, 2, 3]
    .ok (r.close d)

/-- Fields of a policy's body (R406). -/
def bodyField (b : List Byte) (a n : Nat) : Nat := ofBytesLE ((b.drop a).take n)
def PolicyRec.id (p : PolicyRec) : Nat := bodyField p.body 4 4
def PolicyRec.set (p : PolicyRec) : OSet := BitVec.ofNat 16 (bodyField p.body 2 2)
def PolicyRec.dest (p : PolicyRec) : Nat := bodyField p.body 40 2

/-- The gate's decision: the destination and the offset, or the detail of the refusal (R407). -/
def Req.gate (r : Req) (e : OSet) (rest : List Byte) : Except Nat (Nat × Nat) :=
  let pt := r.s.part r.c.part
  if r.arg 0 = 0 then
    match oneTenant e with
    | none => .error 0
    | some t =>
      let n := ofBytesLE (rest.take 2)
      if (pt.dests[n]?).elim false (·.owner == t) then .ok (n, ofBytesLE (rest.drop 2)) else .error 6
  else match pt.policies.find? (·.id == r.arg 0) with
    | none => .error 0
    | some p =>
      if !e.subset p.set then .error 1
      else if !(r.c.objAt r.word.toNat).elim false (fun o => bytesLE 32 o.digest.toNat == (p.body.drop 8).take 32) then .error 2
      else if p.budget < r.arg 1 then .error 4
      else if p.uses = 0 then .error 5
      else .ok (p.dest, ofBytesLE rest)

/-- A pass takes its length and one use from the policy in one step (R407, R408). -/
def State.spend (s : State) (part id n : Nat) : State :=
  s.modPart part fun p => { p with
    policies := p.policies.map fun x => if x.id == id then { x with budget := x.budget - n, uses := x.uses - 1 } else x }

/-- The bytes of a host function's window to which a destination delivers (R390, R404). -/
def State.windowAt (s : State) (part dest off n : Nat) : List Loc :=
  match (s.part part).dests[dest]? with
  | none => []
  | some d => if d.kind != 3 then [] else match s.vf? d.target with
      | some v => if v.window (v.winBase + off) n && s.hbmAt (v.winBase + off) n then (locG (v.winBase + off)).span n else []
      | none => []

/-- The data moves to a destination; a host function's window is device memory (R390, R404). -/
def State.deliver (s : State) (part dest off : Nat) (data : List Byte) : State :=
  ((s.windowAt part dest off data.length).zip data).foldl (fun t x => t.poke x.1 x.2) (s.leave part dest off data)

/-- EGRESS (R403, R407, R408). `ext`: 0 success, 1 and 2 a connection that fails after the pass, otherwise a storage status; a destination
whose port or drive did not come up fails so as well (R430, log 37). -/
def execEgress (sid uid lane ext : Nat) (s : State) : Host.Outcome State Fault Refusal :=
  serve (· == 0x20) sid uid lane s fun r => do
    r.need (decide (r.arg 1 ≤ maxTransfer)) 1
    let (r, buf, rest, set) ← r.ioRecord
    let (r, bs, set) ← r.read buf (r.arg 1) set
    match r.gate (set ||| r.argset) rest with
    | .error detail => r.refuse detail set
    | .ok (dest, off) =>
      if (r.s.windowAt r.c.part dest off bs.length).any fun l => r.s.owned l || r.s.pinned l then .error none
      let t := if r.arg 0 = 0 then r.s else r.s.spend r.c.part (r.arg 0) (r.arg 1)
      let d := (r.s.part r.c.part).dests.getD dest default
      let up := (r.s.part r.c.part).linkUp d
      if ext = 0 && up then .ok ⟨t.deliver r.c.part dest off bs, [bs.length], set⟩
      else Req.fail { r with s := t } (if ext ≤ 2 && (up || d.kind == 1) then connectionCode ext else ioError ext) set

end Sys2Proof.Machine
end

