-- ==== Sys2Proof/Machine/Batch.lean ====
section
/-! DEFINITION. Batches and the format register (R263, R276, R277, R314 to R317, R324 to R326). -/

namespace Sys2Proof.Machine

/-- The orders of the outstanding commands of a class (R274). -/
def Skein.outstanding (k : Skein) (cls : Nat) : List (Nat × BitVec 16) :=
  if cls = 0 then k.cmds.map fun c => (c.order, c.batch) else k.mq.map fun c => (c.order, c.batch)

/-- The commands that WAITB and TESTB of batch n ask for (R277). -/
def Skein.asked (k : Skein) (cls : Nat) (n : BitVec 16) : List Nat :=
  let a := (n - k.last cls).toNat
  let cs := k.outstanding cls
  (if 1 ≤ a ∧ a ≤ 32767 then cs else cs.filter fun c => decide ((n - c.2).toNat < 32768)).map (·.1)

/-- CLOSE (R276, R277, R315). -/
def execClose (x : BitVec 8) (cls : BitVec 3) (la : BitVec 4) (s : State) : Host.Outcome State Fault Refusal :=
  issue (.close x cls la) s fun i => do
    let i ← i.operands [opdOut x.toNat 4]
    if i.p.em == 0 then .ok i.s
    else if i.k.closeBlocked cls.toNat then .error (.stall (.close cls.toNat))
    else
      let n := i.k.last cls.toNat + 1
      let k := i.wrLate (i.h.look la) x.toNat 4 (fun _ => n.toNat) i.p.co []
      .ok (i.put (if cls = 0 then { k with lastW := n } else { k with lastM := n }))

/-- The batch number of the highest active lane, none with no active lane; 32,768 off L raises BATCH-RANGE (R277, R314). -/
def Iss.batch (i : Iss) (y cls : Nat) : Res (Option (List Nat)) :=
  if i.p.em == 0 then .ok none
  else
    let n := BitVec.ofNat 16 (i.raw (highest i.p.em) y 4)
    if n - i.k.last cls = 0x8000#16 then i.trap (dnr 8 cls) i.p.em else .ok (some (i.k.asked cls n))

/-- WAITB (R316). -/
def execWaitb (y : BitVec 8) (cls : BitVec 3) (s : State) : Host.Outcome State Fault Refusal :=
  issue (.waitb y cls) s fun i => do
    let i ← i.operands [opdIn y.toNat 4 (topLane i.p.em id)]
    match ← i.batch y.toNat cls.toNat with
    | none => .ok i.s
    | some [] => .ok (i.s.acquire i.k.id 4)
    | some cs => .ok (i.put (i.k.modSplit i.p.uid fun p => { p with
        st := .held (.waitb cls.toNat (i.raw (highest i.p.em) y.toNat 4) cs) }))

/-- TESTB (R317). -/
def execTestb (x y : BitVec 8) (cls : BitVec 3) (la : BitVec 4) (s : State) : Host.Outcome State Fault Refusal :=
  issue (.testb x y cls la) s fun i => do
    let i ← i.operands [opdIn y.toNat 4 (topLane i.p.em id), opdOut x.toNat 1]
    match ← i.batch y.toNat cls.toNat with
    | none => .ok i.s
    | some cs =>
      let t := i.put (i.wrLate (i.h.look la) x.toNat 1 (fun _ => if cs.isEmpty then 15 else 0) i.rset [])
      .ok (if cs.isEmpty then t.acquire i.k.id 4 else t)

/-- The condition of a HELD WAITB holds: every command it asked for is complete (R277). -/
def Skein.waitOver (k : Skein) (cls : Nat) (cs : List Nat) : Bool :=
  !((k.outstanding cls).any fun c => cs.contains c.1)

/-- WAITB_RETURN (R316). -/
def execWaitbReturn (sid uid : Nat) (s : State) : Host.Outcome State Fault Refusal :=
  .next (match s.skein? sid with
    | none => s
    | some k => match (k.split? uid).map Split.st with
      | some (.held (.waitb cls _ cs)) =>
        if k.stop.isNone && k.waitOver cls cs then
          (s.setSkein (k.modSplit uid fun p => { p with st := .ready })).acquire sid 4
        else s
      | _ => s)

/-! ## The format register -/

/-- Fields of `fr` (R263). -/
def frWfmt (v : BitVec 32) : Nat := (v.extractLsb' 0 2).toNat
def frGrp (v : BitVec 32) : Nat := (v.extractLsb' 2 2).toNat
def frAfmt (v : BitVec 32) : Nat := (v.extractLsb' 4 2).toNat
def frRnd (v : BitVec 32) : Nat := (v.extractLsb' 6 2).toNat
def frOfmt (v : BitVec 32) : Nat := (v.extractLsb' 8 3).toNat
def frSat (v : BitVec 32) : Nat := (v.extractLsb' 11 1).toNat
def frPhase (v : BitVec 32) : Nat := (v.extractLsb' 12 6).toNat

/-- The value has no reserved bit or code (R325). -/
def frOk (v : BitVec 32) : Bool :=
  v.extractLsb' 18 14 == 0 && decide (frOfmt v < 5) && frRnd v != 3 && frAfmt v != 3 && frGrp v != 3 && frWfmt v != 3

/-- SETFR (R325). -/
def execSetfr (y : BitVec 8) (s : State) : Host.Outcome State Fault Refusal :=
  issue (.setfr y) s fun i => do
    let i ← i.operands [opdIn y.toNat 8 (topLane i.p.em id)]
    if i.p.em == 0 then .ok i.s
    else do
      let v := BitVec.ofNat 32 (i.raw (highest i.p.em) y.toNat 8)
      i.need (frOk v) (dnr 2 4) i.p.em
      .ok (i.put (i.k.modSplit i.p.uid fun p => { p with fr := v, co := p.co ||| i.rd }))

/-- GETFR (R326). -/
def execGetfr (x : BitVec 8) (la : BitVec 4) (s : State) : Host.Outcome State Fault Refusal :=
  issue (.getfr x la) s fun i => do
    let i ← i.operands [opdOut x.toNat 8]
    .ok (if i.p.em == 0 then i.s else i.put (i.wrLate (i.h.look la) x.toNat 8 (fun _ => i.p.fr.toNat) i.p.co []))

end Sys2Proof.Machine
end

