-- ==== Sys2Proof/Machine/Mangle.lean ====
section
/-! DEFINITION. The Mangle: weights, the exact tile operation, its instructions and how its commands start and complete
(R259 to R272, R285 to R292, R305 to R313). -/

namespace Sys2Proof.Machine

/-! ## Weights (R259 to R262, R286) -/

/-- Bytes of a unit of 32 elements (R259). -/
def unitBytes (fmt : Nat) : Nat := match fmt with | 0 => 16 | 1 => 12 | _ => 7

/-- Element i of a unit (R260, R261). -/
def unitElement (fmt : Nat) (unit : List Byte) (i : Nat) : Int :=
  match fmt with
  | 0 => signed 4 (bitsOf ((unit.getD (i / 2) 0).toNat) (4 * (i % 2)) 4)
  | 1 => signed 3 (ofBytesLE unit / 2 ^ (3 * i))
  | _ =>
    let code := (unit.getD (i / 5) 0).toNat
    if 243 ≤ code then 0 else ((code / 3 ^ (i % 5) % 3 : Nat) : Int) - 1

/-- Reserved codes among the bytes of a ternary source (R261). -/
def reservedCodes (fmt : Nat) (bs : List Byte) : Nat := if fmt = 2 then (bs.filter fun b => decide (243 ≤ b.toNat)).length else 0

/-- A number of equal fields laid end to end, the first lowest. -/
def packFields (n : Nat) (vs : List Nat) : Nat := vs.foldr (fun v acc => v % 2 ^ n + 2 ^ n * acc) 0

/-- The cells of a bay from a weight source: column n holds units 4n to 4n + 3 (R286). -/
def expandCells (fmt : Nat) (bs : List Byte) : BitVec 16384 :=
  let u := unitBytes fmt
  BitVec.ofNat 16384 (packFields 4 ((List.range 128).flatMap fun q =>
    (List.range 32).map fun i => wrap 4 (unitElement fmt ((bs.drop (q * u)).take u) i)))

/-- A cell as an integer. -/
def Bay.cell (b : Bay) (n kk : Nat) : Int := ((b.cells.extractLsb' ((n * 128 + kk) * 4) 4).toInt)

/-- The scale of a column for a block of 32 (R262). -/
def Bay.scale (b : Bay) (n blk : Nat) : Nat :=
  (b.scales.extractLsb' ((n * (128 / b.grp) + 32 * blk / b.grp) * 16) 16).toNat

/-! ## The tile operation (R265 to R269) -/

/-- The format of activations, and the bytes of one. -/
def actFmt (afmt : Nat) : Fmt := match afmt with | 0 => fmtE4M3 | 1 => fmtE5M2 | _ => fmtB16
def actBytes (afmt : Nat) : Nat := if afmt = 2 then 2 else 1
/-- F of R266. -/
def actF (afmt : Nat) : Int := if afmt = 2 then 15 else 7

/-- The values of a block's elements, infinities replaced (R265). -/
def actValue (f : Fmt) (bits : Nat) : Fl :=
  match f.value bits with
  | .inf n => f.value (f.withSign n f.maxBits)
  | v => v

/-- An element is an infinity (R265). -/
def isInf (f : Fmt) (bits : Nat) : Bool := match f.value bits with | .inf _ => true | .nan | .fin _ _ _ => false

/-- The block exponent (R265). -/
def blockExp (f : Fmt) (xs : List Fl) : Int :=
  let es := xs.filterMap fun x => match x with
    | .fin _ m e => if m = 0 then none else some (e + f.mb)
    | .nan | .inf _ => none
  match es with
  | [] => 1 - (f.bias : Int)
  | e :: t => t.foldl max e

/-- A block as integers with their exponent, none when an element is NaN (R265, R266). -/
def blockInts (afmt : Nat) (bits : List Nat) : Option (List Int × Int) :=
  let f := actFmt afmt
  let xs := bits.map (actValue f)
  if xs.any (· == .nan) then none
  else
    let e0 := blockExp f xs
    some (xs.map fun x => match x with
      | .fin n m e => let v : Int := roundInt .rne n m (e + actF afmt - e0); if n then -v else v
      | .nan | .inf _ => 0, e0 - actF afmt)

/-- The product of one block, rounded once to F32 (R267, R268). -/
def blockProduct (blk : Option (List Int × Int)) (ws : List Int) (scale : Nat) : Nat :=
  match blk with
  | none => fmtF32.nan
  | some (xs, e) =>
    let d := (xs.zip ws).foldl (fun a q => a + q.1 * q.2) 0
    match fmtF16.value scale with
    | .nan => fmtF32.nan
    | .inf n => if d = 0 then fmtF32.nan else fmtF32.withSign (n != decide (d < 0)) fmtF32.inf
    | .fin n m g =>
      if m = 0 ∨ d = 0 then 0 else fmtF32.round .rne (.fin (n != decide (d < 0)) (d.natAbs * m) (g + e))

/-- One accumulator element takes the four products in ascending K order (R269). -/
def accumulate (c : Nat) (ps : List Nat) : Nat :=
  ps.foldl (fun c p => fmtF32.round .rne ((fmtF32.value c).add (fmtF32.value p))) c

/-- The elements of a block of a row of A. -/
def rowBlock (afmt : Nat) (row : List Byte) (b : Nat) : List Nat :=
  let n := actBytes afmt
  (List.range 32).map fun i => ofBytesLE ((row.drop ((32 * b + i) * n)).take n)

/-- One tile operation on the rows of A (R267 to R269, R287). -/
def tileOp (bay : Bay) (tile : Tile) (afmt : Nat) (rows : List (List Byte)) : BitVec 32768 :=
  BitVec.ofNat 32768 (packFields 32 ((rows.zip (List.range 32)).flatMap fun q =>
    let blks := (List.range 4).map fun b => blockInts afmt (rowBlock afmt q.1 b)
    (List.range 32).map fun n =>
      accumulate (tile.vals.extractLsb' ((q.2 * 32 + n) * 32) 32).toNat ((blks.zip (List.range 4)).map fun x =>
        blockProduct x.1 ((List.range 32).map fun kk => bay.cell n (32 * x.2 + kk)) (bay.scale n x.2))))

/-- Infinities replaced in the rows (R265). -/
def infinities (afmt : Nat) (rows : List (List Byte)) : Nat :=
  (rows.flatMap fun r => (List.range 4).flatMap (rowBlock afmt r)).foldl
    (fun n b => if isInf (actFmt afmt) b then n + 1 else n) 0

/-! ## Claims (R285, R307, R308) -/

/-- The claims of a class: 0 bays, 1 tiles. -/
def Block.claims (b : Block) (acc : Bool) : List (Option Nat) := if acc then b.tiles.map (·.claim) else b.bays.map (·.claim)

/-- The lowest run of c free numbers (R307). -/
def freeRun (cl : List (Option Nat)) (c : Nat) : Option Nat :=
  (List.range (cl.length + 1 - c)).find? fun f => (List.range c).all fun j => (cl.getD (f + j) (some 0)).isNone

/-- Numbers claimed or freed, each reset (R285, R308). -/
def Block.claim (b : Block) (acc : Bool) (f c : Nat) (who : Option Nat) (set : OSet) : Block :=
  let hit (j : Nat) : Bool := decide (f ≤ j) && decide (j < f + c)
  if acc then { b with tiles := b.tiles.mapIdx fun j t => if hit j then { Tile.fresh with claim := who, set := set } else t }
  else { b with bays := b.bays.mapIdx fun j t => if hit j then { Bay.fresh with claim := who, set := set } else t }
/-- The largest count (R307). -/
def claimMax (acc : Bool) : Nat := if acc then 256 else 2048

/-- MBAY (R307). -/
def mbay (z : Instr) (x y : BitVec 8) (la : BitVec 4) (acc : Bool) (s : State) : Host.Outcome State Fault Refusal :=
  issue z s fun i =>
    if i.p.em == 0 then .ok i.s
    else do
      let i ← i.operands [opdIn y.toNat 8 (topLane i.p.em id), opdOut x.toNat 8]
      let c := i.raw (highest i.p.em) y.toNat 8
      i.need (decide (1 ≤ c) && decide (c ≤ claimMax acc)) (dnr 2 4) i.p.em
      let b := i.s.blockOf i.k
      match freeRun (b.claims acc) c with
      | some f => .ok ((i.put (i.wrLate (i.h.look la) x.toNat 8 (fun _ => f) i.rset [])).setBlock
          (b.claim acc f c (some i.k.num) i.p.co))
      | none => .ok (i.put (i.wrLate (i.h.look la) x.toNat 8 (fun _ => stNoRoom) i.rset []))

/-- MBAY.BAY (R307). -/
def execMbayBay (x y : BitVec 8) (la : BitVec 4) (s : State) : Host.Outcome State Fault Refusal :=
  mbay (.mbayBay x y la) x y la false s
/-- MBAY.ACC (R307). -/
def execMbayAcc (x y : BitVec 8) (la : BitVec 4) (s : State) : Host.Outcome State Fault Refusal :=
  mbay (.mbayAcc x y la) x y la true s

/-- The bays and tiles that a command names (R285). -/
def MKind.names (acc : Bool) : MKind → List Nat
  | .mwload bay _ _ _ _ _ => if acc then [] else [bay]
  | .mma bay tile _ _ => if acc then [tile] else [bay]
  | .mdrain tile _ _ _ _ _ _ => if acc then [tile] else []
  | .mzero tile => if acc then [tile] else []

/-- MFREE (R308). -/
def mfree (z : Instr) (x y : BitVec 8) (acc : Bool) (s : State) : Host.Outcome State Fault Refusal :=
  issue z s fun i =>
    if i.p.em == 0 then .ok i.s
    else do
      let top := topLane i.p.em id
      let i ← i.operands [opdIn x.toNat 8 top, opdIn y.toNat 8 top]
      let f := i.raw (highest i.p.em) x.toNat 8
      let c := i.raw (highest i.p.em) y.toNat 8
      let b := i.s.blockOf i.k
      let cl := b.claims acc
      i.need (decide (1 ≤ c) && decide (c ≤ claimMax acc) && decide (f + c ≤ cl.length) &&
        ((cl.drop f).take c).all (· == some i.k.num) &&
        !(i.k.mq.any fun q => (q.kind.names acc).any fun n => decide (f ≤ n) && decide (n < f + c))) (dnr 2 4) i.p.em
      .ok (i.s.setBlock (b.claim acc f c none 0))

/-- MFREE.BAY (R308). -/
def execMfreeBay (x y : BitVec 8) (s : State) : Host.Outcome State Fault Refusal := mfree (.mfreeBay x y) x y false s
/-- MFREE.ACC (R308). -/
def execMfreeAcc (x y : BitVec 8) (s : State) : Host.Outcome State Fault Refusal := mfree (.mfreeAcc x y) x y true s

/-- A skein that has exited and has no command outstanding returns its claims (R285). -/
def State.returnClaims (s : State) (k : Skein) : State :=
  if !k.splits.isEmpty || !k.idleEngines then s
  else { s with blocks := s.blocks.map fun b =>
    if b.grid == k.grid && b.num == k.block then
      { b with bays := b.bays.map fun x => if x.claim == some k.num then { x with claim := none } else x,
               tiles := b.tiles.map fun x => if x.claim == some k.num then { x with claim := none } else x }
    else b }

/-! ## Commands (R274, R290, R298, R299, R306, R309 to R313) -/

/-- A Mangle command: nothing with no active lane; STALLED while the queue is full; then its argument block. -/
def mangleOp (z : Instr) (x : Nat) (regs : List (Nat × Nat)) (s : State) (body : Iss → Res State) :
    Host.Outcome State Fault Refusal :=
  issue z s fun i =>
    if i.p.em == 0 then .ok i.s
    else if 64 ≤ i.k.mq.length then .error (.stall .mangle)
    else do
      let top := topLane i.p.em id
      body (← i.operands (⟨x, 0, 32, 0, false, false⟩ :: regs.map fun r => ⟨x + 8 * r.1, r.2, 1, top, true, false⟩))

/-- A register of the argument block, or a pair, in the highest active lane. -/
def Iss.marg (i : Iss) (x r n : Nat) : Nat := i.raw (highest i.p.em) (x + 8 * r) n

/-- The skein has claimed a bay or tile (R285). -/
def Iss.claimed (i : Iss) (acc : Bool) (n : Nat) : Bool := ((i.s.blockOf i.k).claims acc).getD n none == some i.k.num

/-- A command with the bytes of its sources as they stand at an issue moment (R242, R243, R310, R311). -/
def MKind.withBytes (kind : MKind) (bytes : List SrcByte) : MKind :=
  match kind with
  | .mwload bay w _ fmt grp src => .mwload bay (bytes.take w.length) (bytes.drop w.length) fmt grp src
  | .mma bay tile _ afmt => .mma bay tile bytes afmt
  | .mdrain tile base stride fmt rnd sat phase => .mdrain tile base stride fmt rnd sat phase
  | .mzero tile => .mzero tile

/-- A command takes its issue moment: its sources, the errors that it meets in them, its place in the queue (R242, R275,
R290). -/
def State.queueM (s : State) (k : Skein) (c : MCmd) : State :=
  let n := s.nextId
  let r := s.meetErrors k.coreId n c.srcs
  let cmd := { c with order := n, kind := c.kind.withBytes (c.srcs.map (s.srcByte k.die n)), fault := r.2 }
  ({ r.1 with nextId := n + 1 } : State).setSkein { k with mq := k.mq ++ [cmd] }

/-- The issue moment of a Mangle command: the release at its scope, pins, the open batch, the queue (R242, R274, R290,
R305). -/
def Iss.enqueue (i : Iss) (kind : MKind) (set : OSet) (spaces : List Space) (srcs : List Loc) (pages : List Nat) : Res Iss := do
  let j ← i.releaseAt (commandScope spaces)
  let t := j.s.queueM j.k { order := 0, batch := j.k.lastM + 1, kind := kind, set := set, started := none, fault := none,
                            pages := pages, srcs := srcs }
  .ok { j with k := (t.skein? j.k.id).getD j.k, s := t }

/-- One bay or tile of the issuing skein's block changed. -/
def Iss.setBay (i : Iss) (n : Nat) (set : OSet) : State :=
  let b := i.s.blockOf i.k
  i.s.setBlock { b with bays := b.bays.modify n fun x => { x with set := set } }
def Iss.setTile (i : Iss) (n : Nat) (set : OSet) : State :=
  let b := i.s.blockOf i.k
  i.s.setBlock { b with tiles := b.tiles.modify n fun x => { x with set := set } }

/-- Bytes of the weights and of the scales (R310). -/
def weightBytes (fmt : Nat) : Nat := 128 * unitBytes fmt
def scaleBytes (grp : Nat) : Nat := 64 * (128 / grp)
/-- The group size of a field of `fr` (R263). -/
def groupOf (v : Nat) : Nat := 32 * 2 ^ v

/-- MWLOAD (R286, R309, R310). -/
def execMwload (x : BitVec 8) (s : State) : Host.Outcome State Fault Refusal :=
  mangleOp (.mwload x) x.toNat [(0, 16), (2, 16), (5, 8)] s fun i => do
    let w := i.marg x.toNat 0 16
    let sc := i.marg x.toNat 2 16
    let c := i.marg x.toNat 5 8
    let bay := bitsOf c 0 11
    let fmt := frWfmt i.p.fr
    let grp := groupOf (frGrp i.p.fr)
    let wc := bitsOf c 24 1 == 1
    let scc := bitsOf c 25 1 == 1
    i.need (w % 16 == 0 && sc % 16 == 0 && bitsOf c 11 13 == 0 && bitsOf c 26 6 == 0 && i.claimed false bay)
      (dnr 2 4) i.p.em
    let a ← i.region (if wc then .c else .g) needLoad w (weightBytes fmt)
    let b ← i.region (if scc then .c else .g) needLoad sc (scaleBytes grp)
    let set := a.set ||| b.set ||| i.rset
    let zeros (e : Extent) : List SrcByte := e.locs.map fun _ => .val 0
    let j ← i.enqueue (.mwload bay (zeros a) (zeros b) fmt grp (w, sc, wc, scc)) set [if wc then .c else .g, if scc then .c else .g]
      (a.locs ++ b.locs) (a.pages ++ b.pages)
    .ok (j.setBay bay set)

/-- The stride's limits (R287, R288). -/
def strideOk (stride least : Nat) : Bool := stride % 16 == 0 && decide (least ≤ stride)

/-- MMA (R287, R309, R311). -/
def execMma (x : BitVec 8) (s : State) : Host.Outcome State Fault Refusal :=
  mangleOp (.mma x) x.toNat [(0, 16), (4, 8), (5, 8)] s fun i => do
    let base := i.marg x.toNat 0 16
    let stride := i.marg x.toNat 4 8
    let c := i.marg x.toNat 5 8
    let bay := bitsOf c 0 11
    let tile := bitsOf c 16 8
    let afmt := frAfmt i.p.fr
    let n := 128 * actBytes afmt
    i.need (base % 16 == 0 && strideOk stride n && bitsOf c 11 5 == 0 && bitsOf c 24 8 == 0 && i.claimed false bay &&
      i.claimed true tile) (dnr 2 4) i.p.em
    let rows ← i.regions .s needLoad n ((List.range 32).map fun r => base + r * stride)
    let b := i.s.blockOf i.k
    let set := rows.foldl (fun a r => a ||| r.set)
      ((b.tiles.getD tile default).set ||| (b.bays.getD bay default).set ||| i.rset)
    let locs := rows.flatMap (·.locs)
    let j ← i.enqueue (.mma bay tile [] afmt) set [.s] locs []
    .ok (j.setTile tile set)

/-- Bytes of an output element (R312). -/
def outBytes (ofmt : Nat) : Nat := match ofmt with | 0 => 4 | 1 => 2 | 2 => 2 | _ => 1

/-- MDRAIN (R272, R288, R309, R312). -/
def execMdrain (x : BitVec 8) (s : State) : Host.Outcome State Fault Refusal :=
  mangleOp (.mdrain x) x.toNat [(0, 16), (4, 8), (5, 8)] s fun i => do
    let base := i.marg x.toNat 0 16
    let stride := i.marg x.toNat 4 8
    let c := i.marg x.toNat 5 8
    let tile := bitsOf c 16 8
    let fr := i.p.fr
    let n := 32 * outBytes (frOfmt fr)
    i.need (base % 16 == 0 && strideOk stride n && bitsOf c 0 16 == 0 && bitsOf c 24 8 == 0 && i.claimed true tile)
      (dnr 2 4) i.p.em
    let rows ← i.regions .s needStore n ((List.range 32).map fun r => base + r * stride)
    let d := ((i.s.blockOf i.k).tiles.getD tile default).set ||| i.rset
    i.need (rows.all (·.takes d)) (dnr 5 0) i.p.em
    let j ← i.enqueue (.mdrain tile base stride (frOfmt fr) (frRnd fr) (frSat fr) (frPhase fr))
      ((i.s.blockOf i.k).tiles.getD tile default).set [.s] [] []
    let next := (fr &&& ~~~(63#32 <<< 12)) ||| (BitVec.ofNat 32 ((frPhase fr + 1) % 64) <<< 12)
    .ok (if frRnd fr = 2 then j.put (j.k.modSplit i.p.uid fun p => { p with fr := next }) else j.s)

/-- MZERO (R288, R309, R313). -/
def execMzero (x : BitVec 8) (s : State) : Host.Outcome State Fault Refusal :=
  mangleOp (.mzero x) x.toNat [(5, 8)] s fun i => do
    let c := i.marg x.toNat 5 8
    let tile := bitsOf c 16 8
    i.need (bitsOf c 0 16 == 0 && bitsOf c 24 8 == 0 && i.claimed true tile) (dnr 2 4) i.p.em
    let j ← i.enqueue (.mzero tile) i.rset [.s] [] []
    .ok (j.setTile tile i.rset)

/-! ## Starting and completing (R290 to R292) -/

/-- Least cycles from start to completion (R292). -/
def MKind.cycles : MKind → Nat
  | .mwload _ _ _ _ _ _ => 8
  | .mma _ _ _ afmt => if afmt = 2 then 28 else 20
  | .mdrain _ _ _ _ _ _ _ => 14
  | .mzero _ => 2

/-- Cycles for which an MMA keeps another from starting (R292). -/
def MKind.occupies : MKind → Nat
  | .mma _ _ _ afmt => if afmt = 2 then 16 else 8
  | .mwload _ _ _ _ _ _ | .mdrain _ _ _ _ _ _ _ | .mzero _ => 0

/-- The rows that an MDRAIN writes. -/
def MCmd.dests (k : Skein) (c : MCmd) : List Loc :=
  match c.kind with
  | .mdrain _ base stride fmt _ _ _ =>
    (List.range 32).flatMap fun r => Loc.span ⟨.s, (k.grid, k.block), base + r * stride⟩ (32 * outBytes fmt)
  | _ => []

/-- The bay that a command names, with whether it loads it, and its tile. -/
def MKind.uses : MKind → Option (Nat × Bool) × Option Nat
  | .mwload bay _ _ _ _ _ => (some (bay, true), none)
  | .mma bay tile _ _ => (some (bay, false), some tile)
  | .mdrain tile _ _ _ _ _ _ => (none, some tile)
  | .mzero tile => (none, some tile)

/-- Two commands of a skein that touch one tile, or of which one loads the bay of the other, are performed one after the other
(R290). -/
def MKind.clashes (a b : MKind) : Bool :=
  (match a.uses.2, b.uses.2 with
    | some x, some y => x == y
    | _, _ => false) ||
  match a.uses.1, b.uses.1 with
    | some x, some y => x.1 == y.1 && (x.2 || y.2)
    | _, _ => false

/-- The head of a skein's queue: its first command that has not started (R290, R291). -/
def Skein.mhead (k : Skein) : Option MCmd := k.mq.find? (·.started.isNone)

/-- The head of the queue can start (R243, R290, R292). -/
def State.canStart (s : State) (k : Skein) (c : MCmd) : Bool :=
  !(k.mq.any fun d => d.started.isSome && d.kind.clashes c.kind) &&
  s.srcReady c.order (c.laters) &&
  (c.dests k).all (fun l => !s.ownedBefore c.order l && !s.pinnedBefore c.order l) &&
  (c.kind.occupies == 0 || (s.cluster k.cluster).lastMma.elim true fun x => decide (x.1 + x.2 ≤ s.issueTicks))

/-- The share weight of a tenant on a cluster (R291). -/
def State.weight (s : State) (part cl tenant : Nat) : Nat :=
  ((s.part part).shares.find? fun x => x.1 == cl && x.2.1 == tenant).elim 1 (·.2.2)

/-- The skeins of a cluster whose head can start, in ascending order of core and slot. -/
def State.starters (s : State) (cl : Nat) : List Skein :=
  sortBy (fun a b => decide (a.id ≤ b.id))
    (s.skeins.filter fun k => k.cluster == cl && k.mhead.elim false (s.canStart k))

/-- The skein that starts a command next, with the commands it has started in its turns of this round: the one whose turns
they are while it has some left, else the next in ascending order that can start, and after the last the first again, which
begins a round (R291). -/
def State.nextStarter (s : State) (cl : Nat) : Option (Skein × Nat) :=
  let cands := s.starters cl
  let w (k : Skein) : Nat := s.weight (s.ctxOf k).part cl (s.ctxOf k).tenant
  match (s.cluster cl).turns with
  | none => (cands.head?).map fun k => (k, 0)
  | some (id, n) =>
    match cands.find? fun k => k.id == id && decide (n < w k) with
    | some k => some (k, n)
    | none => ((cands.find? fun k => decide (id < k.id)).orElse fun _ => cands.head?).map fun k => (k, 0)

/-- MANGLE_COMMAND_START: the next command by weighted rounds (R291). -/
def execMangleCommandStart (cl : Nat) (s : State) : Host.Outcome State Fault Refusal :=
  .next (match s.nextStarter cl with
    | none => s
    | some (k, n) => match k.mhead with
      | none => s
      | some c =>
        let t := s.setSkein { k with mq := k.mq.map fun d =>
          if d.order == c.order then { d with started := some s.issueTicks } else d }
        t.modCluster cl fun x => { x with
          turns := some (k.id, n + 1),
          lastMma := if c.kind.occupies == 0 then x.lastMma else some (s.issueTicks, c.kind.occupies) })

/-- The rows of an MMA's source. -/
def rowsOf (afmt : Nat) (bs : List Byte) : List (List Byte) :=
  let n := 128 * actBytes afmt
  (List.range 32).map fun r => (bs.drop (r * n)).take n

/-- A command's effect (R290, R310 to R313). -/
def State.performM (s : State) (k : Skein) (c : MCmd) : State :=
  let b := s.blockOf k
  match c.kind with
  | .mwload bay w sc fmt grp src =>
    let ws := w.map s.resolveSrc
    let cells := expandCells fmt ws
    let scales := BitVec.ofNat 2048 (ofBytesLE (sc.map s.resolveSrc))
    let t := s.setBlock { b with bays := b.bays.modify bay fun x => { x with
      cells := cells, scales := scales, fmt := fmt, grp := grp,
      source := some (src.1, src.2.1, src.2.2.1, src.2.2.2, fmt, grp) } }
    t.modCluster k.cluster fun x => { x with weightErrs := min (x.weightErrs + reservedCodes fmt ws) 0xFFFFFFFF }
  | .mma bay tile rows afmt =>
    let rs := rowsOf afmt (rows.map s.resolveSrc)
    let v := tileOp (b.bays.getD bay default) (b.tiles.getD tile default) afmt rs
    let t := s.setBlock { b with tiles := b.tiles.modify tile fun x => { x with vals := v } }
    t.modCluster k.cluster fun x => { x with saturations := min (x.saturations + infinities afmt rs) 0xFFFFFFFF }
  | .mdrain tile base stride fmt rnd sat phase =>
    let v := (b.tiles.getD tile default).vals
    let row (r : Nat) : List Byte := (List.range 32).flatMap fun n =>
      bytesLE (outBytes fmt) (drainElement fmt rnd sat r n phase (v.extractLsb' ((r * 32 + n) * 32) 32).toNat)
    (List.range 32).foldl (fun t r => t.pokes ⟨.s, (k.grid, k.block), base + r * stride⟩ (row r)) s
      |>.mend (c.dests k)
  | .mzero tile => s.setBlock { b with tiles := b.tiles.modify tile fun x => { x with vals := 0 } }

/-- The minor of a command, for its record (R306, R344). -/
def MKind.minor : MKind → Nat
  | .mwload _ _ _ _ _ _ => 1
  | .mma _ _ _ _ => 2
  | .mdrain _ _ _ _ _ _ _ => 3
  | .mzero _ => 4

/-- The fault of a command: the one met at its issue, else that of a source unit which an earlier command was to write and which
has failed, counted (R275, R349). -/
def State.faultM (s : State) (k : Skein) (c : MCmd) : State × Option (BitVec 16) :=
  match c.fault, s.failedLater c.laters with
  | none, some l => (s.countError k.coreId l.addr (s.failLevel l), some (s.errorCode l))
  | f, _ => (s, f)

/-- The oldest command of a skein's queue completes once its time has come, performed or with its fault: the commands of a skein
take effect in queue order (R275, R290, R292). -/
def State.completeM (s : State) (k : Skein) : State :=
  match k.mq with
  | [] => s
  | c :: rest =>
    if c.started.elim false fun t => decide (t + c.kind.cycles ≤ s.issueTicks) then
      let r := s.faultM k c
      match r.2 with
      | none => (r.1.performM k c).setSkein { k with mq := rest }
      | some code => (r.1.setSkein { k with mq := rest }).commandFault k.id (k.cmdRecord code 2 c.batch c.kind.minor 0)
    else s

/-- MANGLE_COMMAND_COMPLETE (R292). -/
def execMangleCommandComplete (sid : Nat) (s : State) : Host.Outcome State Fault Refusal :=
  .next (match s.skein? sid with
    | none => s
    | some k => s.completeM k)

end Sys2Proof.Machine
end

