-- ==== Sys2Proof/Machine/Placement.lean ====
section
/-! DEFINITION. The dispatcher's choice and placement of blocks, dependencies, bin timers and the sorter (R147, R148, R150,
R181, R332 to R339). -/

namespace Sys2Proof.Machine

/-! ## Dependencies (R150, R336) -/

/-- A dependency bit as the dispatcher reads it, checked; while an engine owns the word the read waits, and of a failed unit it meets
the error, which is counted (R242, R336, R348, R441, log 20). -/
def State.depBit (s : State) (g : Grid) (j : Nat) : Except (BitVec 16 × State) Bool :=
  match s.ctx? g.ctx with
  | none => .ok false
  | some c => match s.readPage c (g.producer + 4 * (j / 32)) with
    | .error e => .error (e, s)
    | .ok pa =>
      if !(s.heldForLoad ((locG pa).span 4)).isEmpty then .ok false
      else match ((locG pa).span 4).find? s.failedAt with
        | some l => .error (s.outsideCode l, s.outsideError l)
        | none => .ok (bitsOf (cellsNat s.mem pa 4) (j % 32) 1 == 1)

/-- A re-read of the producer word would end the wait of a held block: its line has been invalidated by the write (R336). -/
def State.depDue (s : State) (g : Grid) (blk : Nat) : Bool :=
  match g.dependsOn blk with
  | none => false
  | some j => match s.depBit g j with
    | .ok b => b
    | .error _ => true

/-- DEPENDENCY_POLL (R336). -/
def execDependencyPoll (grid blk : Nat) (s : State) : Host.Outcome State Fault Refusal :=
  .next (match s.grid? grid with
    | none => s
    | some g =>
      if !g.held.contains blk || (s.ctx? g.ctx).elim true Context.over then s
      else match g.dependsOn blk with
        | none => s
        | some j => match s.depBit g j with
          | .error (code, t) => t.endContext g.ctx code
          | .ok false => s
          | .ok true => s.setGrid { g with held := g.held.filter (· != blk), avail := g.avail ++ [(blk, s.ticks)] })

/-! ## Ranking (R333 to R335) -/

/-- A placeable block of a grid on a cluster with the keys of R334. -/
structure Placeable where
  gid : Nat
  blk : Nat
  threads : Option Spawned
  tenant : Nat
  eff : Nat
  /-- Wait of the tenant's oldest placeable block when it is aged, else 0. -/
  aged : Nat
  slots : Nat
  weight : Nat
  waited : Nat
  deriving DecidableEq, Repr, Inhabited

/-- The placeable blocks of a grid on a cluster, each with the moment it became so (R333, R334, R371). Of those that have been placeable
since the acceptance the lowest stands for all, which rank alike behind it. -/
def Grid.placeable (g : Grid) (cl : Nat) : List (Nat × Nat × Option Spawned) :=
  match g.origin with
  | .spawnOf _ => (g.spawned.filter (·.cl == cl)).map fun x => (x.num, x.since, some x)
  | .finwesin | .queue _ _ | .child _ _ _ _ =>
    (g.avail.map fun x => (x.1, x.2, none)) ++ (if g.next < g.g then [(g.next, g.accepted, none)] else [])

/-- The context's blocks may be placed on the cluster now (R333, R363). -/
def Context.placesOn (c : Context) (cl : Nat) : Bool :=
  !c.over && c.clusters.contains cl && !(c.onCl.any fun x => x.cl == cl && x.phase != .running)

/-- The skein slots a tenant holds on a cluster (R334). -/
def State.slotsHeld (s : State) (cl tenant : Nat) : Nat :=
  (s.skeins.filter fun k => k.cluster == cl && (s.gridOf k).tenant == tenant).length

/-- The grids that may place blocks on a cluster. -/
def State.gridsOn (s : State) (cl : Nat) : List Grid := s.grids.filter fun g => (s.ctx? g.ctx).elim false (·.placesOn cl)

/-- The placeable blocks of a cluster (R334). -/
def State.placeables (s : State) (cl : Nat) (weight : Nat → Nat → Nat) : List Placeable :=
  let gs := s.gridsOn cl
  let wait (m : Nat) : Nat := s.ticks - m
  let age (t : Nat) : Nat :=
    ((gs.filter (·.tenant == t)).flatMap (·.placeable cl)).foldl (fun a x => max a (wait x.2.1)) 0
  gs.flatMap fun g => (g.placeable cl).map fun x =>
    { gid := g.id, blk := x.1, threads := x.2.2, tenant := g.tenant, eff := min 3 (g.prio + wait x.2.1 / 2 ^ 20),
      aged := if 2 ^ 16 ≤ age g.tenant then age g.tenant else 0, slots := s.slotsHeld cl g.tenant,
      weight := weight g.part g.tenant, waited := wait x.2.1 }

/-- The order of R334; blocks of one grid that rank alike come in ascending index order (R333). Where the wait has raised a block's
effective priority above that of a lower one of its grid, R333's order and R334's disagree, and the ranking decides (log 43). -/
def Placeable.before (a b : Placeable) : Bool :=
  if a.eff != b.eff then decide (b.eff < a.eff)
  else if a.aged != b.aged then decide (b.aged < a.aged)
  else if a.slots * b.weight != b.slots * a.weight then decide (a.slots * b.weight < b.slots * a.weight)
  else if a.tenant != b.tenant then decide (a.tenant < b.tenant)
  else if a.gid != b.gid then decide (a.gid < b.gid)
  else decide (a.blk ≤ b.blk)

/-! ## Fitting and placing (R181, R332, R335) -/

/-- The shape of a block: a spawned skein's is its kernel's record (R148). -/
def State.shape (s : State) (g : Grid) (threads : Option Spawned) : Grid :=
  match threads with
  | none => g
  | some t => match (s.ctx? g.ctx).bind (·.kernelAt t.entry) with
    | none => g
    | some (_, k) => { g with slices := k.slices, skeins := 1, spad := k.spad, acc := k.acc, bays := k.bays }

/-- The free slots of a core, ascending. -/
def State.freeSlots (s : State) (core : Nat) : List Nat :=
  (List.range 128).filter fun n => !s.skeins.any (·.id == core * 128 + n)

/-- Frames of Finwesin's own for the backing regions of some skeins, if it has as many (R131, log 30). -/
def State.backings (s : State) (n : Nat) : Option (List Nat) := freeFrameList s.localGiB s.hbmUp s.own s.ownUsed n

/-- The block fits the core (R335). -/
def State.fits (s : State) (g : Grid) (core : Nat) : Bool :=
  let here := s.blocks.filter (·.core == core)
  let there := s.blocks.filter (·.cluster == core / 8)
  decide (here.foldl (fun n b => n + b.n * 32 * b.slices) 0 + g.skeins * 32 * g.slices ≤ 1048576) &&
  decide (g.skeins ≤ (s.freeSlots core).length) &&
  decide (spadPart (here.foldl (fun n b => n + b.spad) 0 + g.spad) ≤ 327680) &&
  decide (there.foldl (fun n b => n + b.bays.length) 0 + g.bays ≤ 2048) &&
  decide (there.foldl (fun n b => n + b.tiles.length) 0 + g.acc ≤ 256)

/-- The first skein of a spawned block: its threads' lanes and arguments (R148). -/
def Skein.spawned (k : Skein) (t : Spawned) (tenant : Nat) : Skein :=
  let m := maskOf fun l => decide (l < t.args.length)
  let set := tenantBit tenant ||| t.coset
  { k with
    lanes := (List.range 32).map fun l =>
      if l < t.args.length then (BitVec.ofNat 1024 (t.args.getD l 0).toNat) &&& sliceMask 0 k.window else 0,
    sets := (List.range 32).map fun r => if r < 2 then t.vset else tenantBit tenant,
    splits := k.splits.map fun p => { p with members := m, em := m, co := set } }

/-- The block is placed on a core at the lowest free slots, each skein with a backing region of its own; its skeins begin with an
acquire, and the core's scratchpad part covers them (R131, R148, R150, R176, R181, R335). -/
def State.place (s : State) (g : Grid) (blk : Nat) (threads : Option Spawned) (core : Nat) : State :=
  let shape := s.shape g threads
  let slots := (s.freeSlots core).take shape.skeins
  let b : Block := { Block.fresh shape blk core slots with threads := threads }
  let frames := (s.backings shape.skeins).getD []
  let mk (n : Nat) : Skein :=
    let k := Skein.fresh (core * 128 + slots.getD n 0) g.ctx g.id blk n shape.slices g.tenant
      (BitVec.ofNat 64 (threads.elim g.entry Spawned.entry)) 0xFFFFFFFF g.kset s.issueTicks
    let k := { k with backing := frames[n]?, acquired := s.past.length }
    threads.elim k fun t => k.spawned t g.tenant
  let g1 := match threads with
    | some t => { g with spawned := g.spawned.filter (·.num != t.num) }
    | none => if (g.avail.any fun a => a.1 == blk) then { g with avail := g.avail.filter (·.1 != blk) }
      else { g with next := g.skip g.g (g.next + 1) }
  let t := s.setGrid g1
  let t : State := { t with blocks := t.blocks ++ [b], skeins := t.skeins ++ (List.range shape.skeins).map mk }
  t.modCore core fun c => c.acquire.resize (t.spadUsed core) (Config.freeWay s.free)

/-- The block can be placed on the core: it fits, and its skeins' stacks can be backed (R131, R335, log 30). -/
def State.takes (s : State) (g : Grid) (core : Nat) : Bool := s.fits g core && (s.backings g.skeins).isSome

/-- The highest-ranked block that fits is placed on the lowest core that fits; a block that has waited 2^18 cycles and does
not fit holds back those below it (R335). -/
def State.placeFirst (s : State) (cl : Nat) : List Placeable → State
  | [] => s
  | p :: t =>
    match s.grid? p.gid with
    | none => s.placeFirst cl t
    | some g =>
      match ((List.range 8).map (cl * 8 + ·)).find? (s.takes (s.shape g p.threads)) with
      | some core => s.place g p.blk p.threads core
      | none => if 2 ^ 18 ≤ p.waited then s else s.placeFirst cl t

/-- BLOCK_PLACEMENT (R333 to R335). -/
def execBlockPlacement (cl : Nat) (s : State) : Host.Outcome State Fault Refusal :=
  let weight (part tenant : Nat) : Nat := s.weight part cl tenant
  .next (if (s.cluster cl).online then s.placeFirst cl (sortBy Placeable.before (s.placeables cl weight)) else s)

/-! ## Bin timers (R147) -/

/-- The period of a bin: 4,096 cycles until a call changes it (R147, R357). -/
def State.binPeriod (s : State) (cl : Nat) (b : Bin) : Nat :=
  let ctx := (s.grid? b.grid).elim 0 (·.ctx)
  ((s.cluster cl).periods.find? fun x => x.1 == b.entry && x.2.1 == ctx).elim 4096 (·.2.2)

/-- A bin whose timer has run out starts its skein (R147). -/
def State.binTimer (s : State) (cl bin : Nat) : State :=
  match (s.cluster cl).bins[bin]? with
  | none => s
  | some b => if b.started + s.binPeriod cl b ≤ s.ticks then s.launchBin cl b else s

/-- SPAWN_BIN_TIMER (R147). -/
def execSpawnBinTimer (cl bin : Nat) (s : State) : Host.Outcome State Fault Refusal := .next (s.binTimer cl bin)

/-! ## The sorter (R338, R339) -/

/-- The basket of a stage. -/
def State.stageBasket (s : State) (x : Stage) : Basket := s.basket (hCluster x.handle.toNat) (hSlot x.handle.toNat)

/-- A stage after a sample (R339). -/
def Stage.sample (x : Stage) (n : Nat) : Stage :=
  let run := if x.high ≤ n then x.run + 1 else 0
  { x with run := run, pressed := decide (4 ≤ run) || (x.pressed && decide (x.low < n)) }

/-- The donors for a pressed stage: splits HELD on the empty basket of another stage of its context, within its scope. -/
def State.donors (s : State) (cl n : Nat) (x : Stage) : List (Nat × Nat × Nat) :=
  let bx := s.stageBasket x
  (List.range 64).flatMap fun m =>
    let y := (s.cluster cl).stages.getD m Stage.reset
    if m == n || !y.valid || y.ctx != x.ctx || !(s.stageBasket y).ring.isEmpty then []
    else (s.waiters (hCluster y.handle.toNat) (hSlot y.handle.toNat)).filter fun w =>
      (s.skein? w.1).elim false (bx.inScope (hCluster x.handle.toNat))

/-- One pressed stage gains at most one worker (R339). -/
def State.reassign (s : State) (cl n : Nat) : State :=
  let x := (s.cluster cl).stages.getD n Stage.reset
  if !x.valid || !x.pressed then s
  else match longest (s.donors cl n x) with
    | none => s
    | some w => s.popEnds w.1 w.2.1 (stReassign + n * 65536) none

/-- SORTER_SAMPLE (R339). -/
def execSorterSample (cl : Nat) (s : State) : Host.Outcome State Fault Refusal :=
  let t := s.modCluster cl fun c => { c with
    stages := c.stages.map fun x => if x.valid then x.sample (s.stageBasket x).ring.length else x }
  .next ((List.range 64).foldl (fun t n => t.reassign cl n) t)

end Sys2Proof.Machine
end

