-- ==== Sys2Proof/Machine/Preempt.lean ====
section
/-! DEFINITION. Pre-emption: requests, stops, the drain, the save, the deadline, the resumption, and dropped blocks (R202,
R362 to R372). -/

namespace Sys2Proof.Machine

/-- The time slice of a partition in cycles (R362). -/
def State.sliceOf (s : State) (part : Nat) : Nat := (s.part part).sliceUnits * 2 ^ 16

/-- The overrun cycles that a tenant owes on a cluster (R372). -/
def Cluster.debt (c : Cluster) (tenant : Nat) : Nat := (c.owed.find? (·.1 == tenant)).elim 0 (·.2)

/-- The overrun cycles that a tenant owes on a cluster from now on. -/
def Cluster.setDebt (c : Cluster) (tenant n : Nat) : Cluster :=
  { c with owed := (tenant, n) :: c.owed.filter (·.1 != tenant) }

/-- The time slice of a context has ended on a cluster; the overrun that its tenant owes there is taken from it (R362, R372). -/
def State.sliceOver (s : State) (c : Context) (x : CtxOn) : Bool :=
  x.phase == .running && decide (x.since + (s.sliceOf c.part - (s.cluster x.cl).debt c.tenant) ≤ s.ticks)

/-- The skein belongs to a context on a cluster. -/
def Skein.isOn (k : Skein) (ctx cl : Nat) : Bool := k.ctx == ctx && k.cluster == cl

/-! ## Request and stops (R202, R362, R364) -/

/-- A split that may still reach a TACK (R364). -/
def Split.mobile (p : Split) : Bool :=
  match p.st with
  | .ready | .stalled _ => true
  | .held _ | .joinWait _ | .parked _ => false

/-- A skein stops for the pre-emption where it stands, without a TACK (R364, R371). Its record names the split with the lowest member, the
model's choice, of which R364 gives only the cause and the immediate (log 35). -/
def State.stopHere (s : State) (k : Skein) : State :=
  match k.splits.foldl Split.lower none with
  | none => s
  | some p =>
    let pc := p.hints.gpc.getD p.pc
    s.takeStop k p.uid { k.record pc pc p.em with cause := 5, imm := 0xFFFFFFFF } p.co none

/-- A skein that cannot reach a TACK stops where it stands (R364). -/
def State.stopStuck (s : State) (sid : Nat) : State :=
  match s.skein? sid with
  | none => s
  | some k =>
    if k.stop.isSome || k.splits.isEmpty || k.splits.any Split.mobile then s else s.stopHere k

/-- Every skein of a context on a cluster that cannot reach a TACK. -/
def State.stopAllStuck (s : State) (ctx cl : Nat) : State :=
  ((s.skeins.filter (·.isOn ctx cl)).map (·.id)).foldl State.stopStuck s

/-- TIME_SLICE_END: a pre-emption request on every cluster where the context runs, once its slice has ended on one (R362 to R364). -/
def execTimeSliceEnd (ctx : Nat) (s : State) : Host.Outcome State Fault Refusal :=
  .next (match s.ctx? ctx with
    | none => s
    | some c =>
      if c.over || !c.onCl.any (s.sliceOver c) then s
      else
        let go := (c.onCl.filter (·.phase == .running)).map (·.cl)
        let ask (x : CtxOn) : CtxOn :=
          if x.phase == .running then { x with phase := .stopping, since := s.ticks, late := false } else x
        let pay (x : Cluster) : Cluster := x.setDebt c.tenant (x.debt c.tenant - s.sliceOf c.part)
        go.foldl (fun t cl => (t.modCluster cl pay).stopAllStuck ctx cl)
          (s.setCtx { c with onCl := c.onCl.map ask, graceOk := true }))

/-! ## Drain and save (R366 to R368, R372) -/

/-- Commands not yet started leave the queue and are recorded (R367). -/
def Skein.unqueue (k : Skein) : Skein :=
  { k with mq := k.mq.filter (·.started.isSome), removed := k.removed ++ k.mq.filter (·.started.isNone) }

/-- The locations of a range of a context's memory as the mender reads it. -/
def State.virtLocs (s : State) (c : Context) (va n : Nat) : List Loc :=
  (List.range n).filterMap fun i => match s.walk c (va + i) with
    | .leaf l => some (locG l.pa)
    | .unmapped | .malformed => none

/-- Bytes of a context's memory as the mender reads them. -/
def State.readVirt (s : State) (c : Context) (va n : Nat) : List Byte :=
  (List.range n).map fun i => match s.walk c (va + i) with
    | .leaf l => cellGet s.mem l.pa
    | .unmapped | .malformed => 0#8

/-- The live slices of a recipe as a lane mask (R365). -/
def State.recipeLive (s : State) (c : Context) (o : CodeObj) (idx : Nat) : LaneFile :=
  sliceSpread (BitVec.ofNat 256 (ofBytesLE (s.readVirt c (o.recipes + 8 + 40 * idx) 32)))

/-- The recipe that saves a skein: stopped at a TACK, with one split, no fault-buffer entry and no debugger (R366). -/
def State.recipeOf (s : State) (c : Context) (k : Skein) : Option (CodeObj × Nat) :=
  match k.stop with
  | none => none
  | some st =>
    let parked := (s.cluster k.cluster).fbuf.any (·.sid == k.id)
    if st.record.cause == 5 && st.record.imm != 0xFFFFFFFF#32 && k.splits.length == 1 && !parked && c.dbg.isNone then
      (c.objAt st.record.word.toNat).map fun o => (o, st.record.imm.toNat)
    else none

/-- A failed unit in the live mask that a save in recipe form reads, or in what a restart reads of the recipe to run its stub (R349, R365). -/
def State.recipeFlaw (s : State) (c : Context) (k : Skein) (stub : Bool) : Option Loc :=
  let n := if stub then k.recipe.bind fun n => k.stop.bind fun st => (c.objAt st.record.word.toNat).map fun o => (o, n) else s.recipeOf c k
  n.bind fun x =>
    let at0 := x.1.recipes + 8 + 40 * x.2
    (if stub then s.virtLocs c (at0 + 32) 6 ++ s.virtLocs c x.1.recipes 4 else s.virtLocs c at0 32).find? s.failedAt

/-- The mender meets an error in its own read for a context, which ends as its own skein's read would end it (R348, R349, log 20). -/
def State.menderError (s : State) (ctx : Nat) (l : Loc) : State := (s.outsideError l).endContext ctx (s.outsideCode l)

/-- A skein as it is saved: in recipe form only the live slices, with no stream and no fault-buffer entry (R193, R202, R366). -/
def State.saveForm (s : State) (c : Context) (k : Skein) : Skein :=
  let j := k.preempted
  match s.recipeOf c k with
  | none => { j with recipe := none }
  | some (o, n) =>
    let live := s.recipeLive c o n
    { j with recipe := some n, lanes := j.lanes.map fun l => l &&& live }

/-- The overrun of a cluster that has just been saved (R372). -/
def CtxOn.overrun (x : CtxOn) (now q : Nat) : Nat := if x.late then now - (x.since + q / 8) else 0

/-- The context is SAVED on a cluster: its blocks and skeins leave it (R368), and the overrun is settled (R372). An error in a recipe that the
save reads ends it (R348, R349). -/
def State.save (s : State) (c : Context) (cl : Nat) : State :=
  let q := s.sliceOf c.part
  let mine := s.skeins.filter (·.isOn c.id cl)
  match mine.findSome? fun k => s.recipeFlaw c k false with
  | some l => s.menderError c.id l
  | none =>
    let bs := s.blocks.filter fun b => b.ctx == c.id && b.cluster == cl
    let late := ((c.onCl.find? (·.cl == cl)).elim 0 fun x => x.overrun s.ticks q)
    let c1 := c.modOn cl fun x => { x with phase := .saved }
    let all := c1.onCl.all (·.phase == .saved)
    let a := c1.overrun + late
    let c2 : Context := { c1 with
      overrun := if all && c1.graceOk then a - q / 8 else a,
      saved := c1.saved ++ mine.map (s.saveForm c),
      savedBlocks := c1.savedBlocks ++ bs }
    let t : State := { s with
      skeins := s.skeins.filter fun k => !k.isOn c.id cl,
      blocks := s.blocks.filter fun b => !(b.ctx == c.id && b.cluster == cl) }
    let t := mine.foldl State.freeParks t
    (t.setCtx c2).modCluster cl fun x => x.setDebt c.tenant (x.debt c.tenant + late)

/-- A skein counts as stopped for a pre-emption: it has exited, it has stopped for it, or it waits for a debugger. A stop from which the
mender is to resume it does not count (R363, R364). -/
def State.settledStop (s : State) (k : Skein) : Bool :=
  match k.stop with
  | none => k.splits.isEmpty
  | some st =>
    st.record.cause == 5 ||
      (!st.go && (s.ctxOf k).dbg.isSome && (st.record.cause == 2 || st.record.cause == 3 || st.record.cause == 4))

/-- ENGINE_DRAIN: skeins that cannot reach a TACK stop; once all have stopped, unstarted Mangle commands leave their queues;
once every other command is complete and every store performed, the context is saved (R364, R367, R368). -/
def execEngineDrain (ctx cl : Nat) (s : State) : Host.Outcome State Fault Refusal :=
  .next (match s.ctx? ctx with
    | none => s
    | some c =>
      if c.over then s
      else match c.phase cl with
        | .stopping =>
          let t := s.stopAllStuck ctx cl
          let mine (k : Skein) : Bool := k.isOn ctx cl
          if t.skeins.any fun k => mine k && !t.settledStop k then t
          else
            let u : State := { t with skeins := t.skeins.map fun k => if mine k then k.unqueue else k }
            u.modCtx ctx fun c => c.modOn cl fun x => { x with phase := .draining }
        | .draining =>
          let busy := (s.blocks.any fun b => b.ctx == ctx && b.cluster == cl && b.dropping) || s.skeins.any fun k => k.isOn ctx cl && (!k.cmds.isEmpty || !k.mq.isEmpty || !k.stores.isEmpty ||
            k.preqs.any PReq.waits)
          if busy then s else s.save c cl
        | .running | .saved | .restoring | .ended => s)

/-- GRACE_DEADLINE (R372). -/
def execGraceDeadline (ctx cl : Nat) (s : State) : Host.Outcome State Fault Refusal :=
  .next (match s.ctx? ctx with
    | none => s
    | some c =>
      let due (x : CtxOn) : Bool := (x.phase == .stopping || x.phase == .draining) && decide (x.since + s.sliceOf c.part / 8 ≤ s.ticks)
      if c.onCl.any fun x => x.cl == cl && due x then
        s.setCtx { c.modOn cl (fun x => { x with late := true }) with graceOk := false }
      else s)

/-- The overruns of a context that are still running, over its clusters (R372). -/
def State.runningOverrun (s : State) (c : Context) : Nat :=
  ((c.onCl.filter fun x => x.phase == .stopping || x.phase == .draining).map (·.overrun s.ticks (s.sliceOf c.part))).sum

/-- WATCHDOG: the accumulated overrun, with those that run, has reached 4Q (R372). -/
def execWatchdog (ctx cl : Nat) (s : State) : Host.Outcome State Fault Refusal :=
  .next (match s.ctx? ctx with
    | none => s
    | some c =>
      let q := s.sliceOf c.part
      let x := (c.onCl.find? (·.cl == cl)).getD default
      if (x.phase == .stopping || x.phase == .draining) && decide (4 * q ≤ c.overrun + s.runningOverrun c) then
        s.endContext ctx 0x8D00
      else s)

/-! ## Resumption (R369, R370) -/

/-- Elements of `n` bits, each the old or the new one (R369, log 7). -/
def mixElements (n count free : Nat) (old new : Nat) : Nat :=
  (List.range count).foldl (fun a i => a + bitsOf (if Config.freeBit (free + i) then old else new) (n * i) n * 2 ^ (n * i)) 0

/-- The locations of a source of a bay at its reload with the join of their sets, or the code of the failure (R369). -/
def State.reloadPlace (s : State) (ctx cl : Nat) (inC : Bool) (va n : Nat) : Except (BitVec 16) (State × List Loc × OSet) :=
  if inC then
    let l : Loc := ⟨.c, (cl, ctx), va⟩
    .ok (s, l.span n, s.rangeSet l n)
  else match s.svcPieces ctx needLoad (pieces (n / 65536 + 2) va n) with
    | .error e => .error e
    | .ok (t, ps) => .ok (t, partLocs ps, partSet ps)

/-- An engine owns a byte that the reload of a block's bays would read, which waits for it (R242, R369). -/
def State.reloadHeld (s : State) (ctx cl : Nat) (b : Block) : Bool :=
  let held (inC : Bool) (va n : Nat) : Bool := match s.reloadPlace ctx cl inC va n with
    | .error _ => false
    | .ok (t, ls, _) => ls.any t.owned
  b.bays.any fun x => x.source.elim false fun r =>
    held r.2.2.1 r.1 (weightBytes r.2.2.2.2.1) || held r.2.2.2.1 r.2.1 (scaleBytes r.2.2.2.2.2)

/-- The bytes of a source of a bay at its reload, or the code of the failure with the state once an error is counted (R348,
R369). -/
def State.reloadSource (s : State) (ctx cl : Nat) (inC : Bool) (va n : Nat) :
    Except (BitVec 16 × State) (State × List Byte × OSet) :=
  match s.reloadPlace ctx cl inC va n with
  | .error e => .error (e, s)
  | .ok (t, ls, set) => match ls.find? t.failedAt with
    | some l => .error (t.errorCode l, t.countError (cl * 8) l.addr (t.failLevel l))
    | none => .ok (t, ls.map (t.engineByte (cl / 8)), set)

/-- A bay that had been loaded is loaded again, and reserved codes are counted; one that had not is as after its claim (R261, R369). -/
def State.reloadBay (s : State) (ctx cl : Nat) (b : Bay) : Except (BitVec 16 × State) (State × Bay) :=
  match b.source with
  | none => .ok (s, b)
  | some (w, sc, wc, scc, fmt, grp) =>
    match s.reloadSource ctx cl wc w (weightBytes fmt) with
    | .error e => .error e
    | .ok (t, ws, x) => match t.reloadSource ctx cl scc sc (scaleBytes grp) with
      | .error e => .error e
      | .ok (u, ss, y) =>
        let cells := mixElements 4 4096 u.free b.cells.toNat (expandCells fmt ws).toNat
        let scales := mixElements 16 128 (u.free + 4096) b.scales.toNat (ofBytesLE ss)
        let u := u.modCluster cl fun x => { x with weightErrs := min (x.weightErrs + reservedCodes fmt ws) 0xFFFFFFFF }
        .ok ({ u with free := u.free + 4224 },
          { b with cells := BitVec.ofNat 16384 cells, scales := BitVec.ofNat 2048 scales, fmt := fmt, grp := grp, set := b.set ||| x ||| y })

/-- The bays of a block in order. -/
def State.reloadBays (s : State) (ctx cl : Nat) : List Bay → Except (BitVec 16 × State) (State × List Bay)
  | [] => .ok (s, [])
  | b :: t => match s.reloadBay ctx cl b with
    | .error e => .error e
    | .ok (u, x) => match u.reloadBays ctx cl t with
      | .error e => .error e
      | .ok (v, xs) => .ok (v, x :: xs)

/-- A wait for a command waits for it under its new order. -/
def HoldOn.reorder (old new : Nat) : HoldOn → HoldOn
  | .waitb cls n upto => .waitb cls n (upto.map fun x => if x == old then new else x)
  | h => h

/-- A removed command is queued again at a new issue moment; a WAITB that waits for it goes on waiting (R277, R370). -/
def State.requeue (s : State) (sid : Nat) (c : MCmd) : State :=
  match s.skein? sid with
  | none => s
  | some k =>
    let wait (p : Split) : Split := match p.st with
      | .held h => { p with st := .held (h.reorder c.order s.nextId) }
      | _ => p
    s.queueM { k with splits := k.splits.map wait } c

/-- A restored skein's stop: one of the pre-emption ends; in recipe form the stub runs first (R370). An error in the recipe ends the context
(R348, R349). -/
def State.restart (s : State) (sid : Nat) : State :=
  match s.skein? sid with
  | none => s
  | some k => match k.stop with
    | none => s
    | some st =>
      if st.record.cause != 5 then s
      else if let some l := s.recipeFlaw (s.ctxOf k) k true then s.menderError k.ctx l
      else
        let c := s.ctxOf k
        let t := s.resumeSkein sid
        let stub (p : Split) : Split := match k.recipe, c.objAt st.record.word.toNat with
          | some i, some o =>
            let e := s.readVirt c (o.recipes + 8 + 40 * i + 32) 6
            let n := ofBytesLE (s.readVirt c o.recipes 4)
            let at0 := o.recipes + 8 + 40 * n + 4 * ofBytesLE (e.take 4)
            let len := ofBytesLE (e.drop 4)
            if len = 0 then p
            else { p with pc := BitVec.ofNat 64 at0, stub := some (BitVec.ofNat 64 (at0 + 4 * len), p.pc) }
          | _, _ => p
        match t.skein? sid with
        | none => t
        | some j => (t.setSkein { j with splits := j.splits.map stub, recipe := none }).recheckPops sid

/-- A saved block is placed on a core again with its skeins in free slots, and runs on. The core's older copies, of PCIe lines too, go: the
skeins' own stores came before them (R247, R369, R370). -/
def State.restoreBlock (s : State) (c : Context) (b : Block) (core : Nat) : State :=
  match s.reloadBays c.id b.cluster b.bays with
  | .error (code, t) => t.endContext c.id code
  | .ok (t, bays) =>
    let slots := (t.freeSlots core).take b.n
    let b1 := { b with core := core, slots := slots, bays := bays }
    let mine := c.saved.filter fun k => k.grid == b.grid && k.block == b.num
    let id (k : Skein) : Nat := core * 128 + slots.getD k.num 0
    let move (k : Skein) : Skein :=
      { k with id := id k, removed := [], faults := k.faults.map fun r => { r with core := core, slot := slots.getD k.num 0 },
               stop := k.stop.map fun st => { st with record := { st.record with core := core, slot := slots.getD k.num 0 } } }
    let rename (r : Record) : Record :=
      match mine.find? fun k => k.grid == r.grid && k.num == r.skein && k.block == r.block with
      | some k => { r with core := core, slot := slots.getD k.num 0 }
      | none => r
    let t : State := { t with blocks := t.blocks ++ [b1], skeins := t.skeins ++ mine.map move }
    let t : State := { t with dbgQueue := t.dbgQueue.map fun r => if r.ctx == c.id then rename r else r }
    let t := t.modCluster b.cluster fun x => { x with records := x.records.map rename }
    let t := t.modCore core fun x => { x with l1 := [] }
    let t := mine.foldl (fun t k => k.removed.foldl (fun t m => t.requeue (id k) m) t) t
    mine.foldl (fun t k => t.restart (id k)) t

/-- The saved blocks of a cluster one after another: each on the lowest core where it fits, once its bays can be read. -/
def State.restoreBlocks (s : State) (id cl : Nat) : List Block → State × List Block
  | [] => (s, [])
  | b :: rest => match s.ctx? id, s.grid? b.grid with
    | some c, some g =>
      let shape : Grid := { g with slices := b.slices, skeins := b.n, spad := b.spad, acc := b.tiles.length, bays := b.bays.length }
      match if s.reloadHeld id cl b then none else ((List.range 8).map (cl * 8 + ·)).find? (s.fits shape) with
      | some core => (s.restoreBlock c b core).restoreBlocks id cl rest
      | none => let r := s.restoreBlocks id cl rest; (r.1, b :: r.2)
    | _, _ => s.restoreBlocks id cl rest

/-- Dropped blocks are placeable again from now on (R371). -/
def Grid.undrop (g : Grid) (now : Nat) : Grid := { g with avail := g.avail ++ g.dropped.map fun b => (b, now), dropped := [] }

/-- CONTEXT_RESUME: Finwesin's resume order on a cluster; the context runs again there once every saved block has a place
(R333, R363, R370). -/
def execContextResume (ctx cl : Nat) (s : State) : Host.Outcome State Fault Refusal :=
  .next (match s.ctx? ctx with
    | none => s
    | some c =>
      if c.over || !(c.phase cl == .saved || c.phase cl == .restoring) then s
      else
        let bs := c.savedBlocks.filter (·.cluster == cl)
        let r := s.restoreBlocks ctx cl bs
        let back (b : Block) : Bool := bs.any (fun x => x.grid == b.grid && x.num == b.num) &&
          !r.2.any fun x => x.grid == b.grid && x.num == b.num
        let phase : CtxPhase := if r.2.isEmpty then .running else .restoring
        let done (c : Context) : Context :=
          if c.over then c
          else (({ c with savedBlocks := c.savedBlocks.filter fun b => !back b,
                          saved := c.saved.filter fun k => !c.savedBlocks.any fun b => back b && b.grid == k.grid && b.num == k.block } : Context)).modOn cl
            fun x => { x with phase := phase, since := s.ticks }
        let t := r.1.modCtx ctx done
        if r.2.isEmpty then { t with grids := t.grids.map fun g => if g.ctx == ctx then g.undrop s.ticks else g } else t)

/-! ## Dropped blocks (R371) -/

/-- A block of an idempotent grid with no child and none of its threads in a bin may be dropped in a pre-emption (R371). -/
def State.mayDrop (s : State) (b : Block) (g : Grid) : Bool :=
  let ph := (s.ctx? b.ctx).elim .ended (·.phase b.cluster)
  g.idem && (ph == .stopping || ph == .draining) && !s.hasChildren b && !(s.clusters.any fun c => c.bins.any (·.givers.contains (b.grid, b.num))) &&
    !(s.ctx? b.ctx).elim true Context.over

/-- A skein stops at once for a drop. -/
def State.stopNow (s : State) (sid : Nat) : State :=
  match s.skein? sid with
  | none => s
  | some k => if k.stop.isSome || k.splits.isEmpty then s else s.stopHere k

/-- A service call of a skein is in flight (R354, R371). -/
def Skein.calling (k : Skein) : Bool :=
  k.splits.any fun p => match p.st with
    | .parked (.syscall calls _ _ _) => calls.any (·.result.isNone)
    | _ => false

/-- BLOCK_DROP: the skeins stop, their Mangle commands are discarded, and the block is being dropped: once the Wringer commands and the
calls are complete it is gone and placeable again at the resumption (R363, R371). -/
def execBlockDrop (grid blk : Nat) (s : State) : Host.Outcome State Fault Refusal :=
  .next (match s.block? grid blk, s.grid? grid with
    | some b, some g =>
      if !s.mayDrop b g then s
      else
        let mine (k : Skein) : Bool := k.grid == grid && k.block == blk
        let t := ((s.skeinsOf b).map (·.id)).foldl State.stopNow s
        let t : State := { t with skeins := t.skeins.map fun k => if mine k then { k with mq := [], removed := [] } else k,
                                  blocks := t.blocks.map fun x => if x.grid == grid && x.num == blk then { x with dropping := true } else x }
        if t.skeins.any fun k => mine k && (!k.cmds.isEmpty || !k.stores.isEmpty || k.calling) then t
        else
          let t := (t.freeBlock b).setGrid { g with dropped := g.dropped ++ [blk] }
          if t.blocks.any fun x => x.ctx == b.ctx && x.cluster == b.cluster then t
          else match t.ctx? b.ctx with
            | none => t
            | some c => if c.phase b.cluster == .stopping then t.save c b.cluster else t
    | _, _ => s)

end Sys2Proof.Machine
end

