-- ==== Sys2Proof/Machine/Shake.lean ====
section
/-! DEFINITION. SHAKE256 of FIPS 202, which the specification names for the code digest, the digests of signed bodies and
images, and that of the identity key (R55, R406, R409, R410, log 44). -/

namespace Sys2Proof.Machine

/-- The state of KECCAK-f[1600]: 25 lanes, the lane (x, y) at x + 5y (log 44). -/
abbrev Keccak := List (BitVec 64)

/-- The lane at x and y, both taken modulo 5. -/
def Keccak.at (a : Keccak) (x y : Nat) : BitVec 64 := a.getD (x % 5 + 5 * (y % 5)) 0

/-- A state lane by lane. -/
def Keccak.build (f : Nat → Nat → BitVec 64) : Keccak := (List.range 25).map fun n => f (n % 5) (n / 5)

/-- The parity of a column of lanes. -/
def Keccak.parity (a : Keccak) (x : Nat) : BitVec 64 := (List.range 5).foldl (fun c y => c ^^^ a.at x y) 0

/-- The step θ. -/
def Keccak.theta (a : Keccak) : Keccak :=
  Keccak.build fun x y => a.at x y ^^^ a.parity (x + 4) ^^^ (a.parity (x + 1)).rotateLeft 1

/-- The offsets of ρ, lane by lane. -/
def keccakOffsets : List Nat :=
  [0, 1, 62, 28, 27, 36, 44, 6, 55, 20, 3, 10, 43, 25, 39, 41, 45, 15, 21, 8, 18, 2, 61, 56, 14]

/-- The steps ρ and π: the lane (x, y) comes from (x + 3y, x). -/
def Keccak.rhoPi (a : Keccak) : Keccak :=
  Keccak.build fun x y => (a.at (x + 3 * y) x).rotateLeft (keccakOffsets.getD ((x + 3 * y) % 5 + 5 * x) 0)

/-- The step χ. -/
def Keccak.chi (a : Keccak) : Keccak :=
  Keccak.build fun x y => a.at x y ^^^ (~~~(a.at (x + 1) y) &&& a.at (x + 2) y)

/-- The constants of ι, round by round. -/
def keccakRounds : List (BitVec 64) :=
  [0x0000000000000001, 0x0000000000008082, 0x800000000000808A, 0x8000000080008000, 0x000000000000808B, 0x0000000080000001,
   0x8000000080008081, 0x8000000000008009, 0x000000000000008A, 0x0000000000000088, 0x0000000080008009, 0x000000008000000A] ++
  [0x000000008000808B, 0x800000000000008B, 0x8000000000008089, 0x8000000000008003, 0x8000000000008002, 0x8000000000000080,
   0x000000000000800A, 0x800000008000000A, 0x8000000080008081, 0x8000000000008080, 0x0000000080000001, 0x8000000080008008]

/-- One round. -/
def Keccak.round (a : Keccak) (c : BitVec 64) : Keccak :=
  match a.theta.rhoPi.chi with
  | [] => []
  | x :: t => (x ^^^ c) :: t

/-- KECCAK-f[1600]. -/
def Keccak.permute (a : Keccak) : Keccak := keccakRounds.foldl Keccak.round a

/-- A block of 136 bytes joins the state, which is then permuted. -/
def Keccak.absorb (a : Keccak) (block : List Byte) : Keccak :=
  (Keccak.build fun x y => a.at x y ^^^ BitVec.ofNat 64 (ofBytesLE ((block.drop (8 * (x + 5 * y))).take 8))).permute

/-- The blocks of a message, the last one padded for SHAKE. -/
def shakeBlocks : Nat → List Byte → List (List Byte)
  | 0, _ => []
  | n + 1, bs =>
    if 136 ≤ bs.length then bs.take 136 :: shakeBlocks n (bs.drop 136)
    else
      let padded := bs ++ [0x1F#8] ++ List.replicate (135 - bs.length) 0#8
      [padded.modify 135 (· ||| 0x80#8)]

/-- The first 512 bits of SHAKE256 of some bytes, the first byte of the output lowest (log 44). -/
def shake256 (bs : List Byte) : BitVec 512 :=
  let a := (shakeBlocks (bs.length / 136 + 1) bs).foldl Keccak.absorb (List.replicate 25 0)
  BitVec.ofNat 512 ((List.range 8).foldl (fun n i => n + (a.getD i 0).toNat * 2 ^ (64 * i)) 0)

end Sys2Proof.Machine
end

