-- ==== Sys2Proof/Machine/Boot.lean ====
section
/-! DEFINITION. Module reset and the boot sequence: partitions, contexts and virtual functions (R187, R197, R333, R340, R342, R362,
R386, R389 to R391, R398, R404, R409, R410, R422, R430). -/

namespace Sys2Proof.Machine

/-! ## Routes between dies (R386) -/

/-- The dies that a seam joins (R5, R435). -/
def seamEnds (n : Nat) : Nat × Nat := if n < 20 then (n / 5 * 6 + n % 5, n / 5 * 6 + n % 5 + 1) else (n - 20, n - 20 + 6)

/-- Dies joined to a list of dies by live seams, after some rounds. -/
def joined (seams : BitVec 38) : Nat → List Nat → List Nat
  | 0, ds => ds
  | f + 1, ds =>
    joined seams f ((ds ++ (List.range 38).flatMap fun n =>
      let e := seamEnds n
      if !seams.getLsbD n then [] else if ds.contains e.1 then [e.2] else if ds.contains e.2 then [e.1] else []).eraseDups)

/-- The dies that a route reaches: the largest joined group, that of the lowest die among equals (log 16). -/
def reached (seams : BitVec 38) : List Nat :=
  (List.range 24).foldl (fun best d => let g := joined seams 24 [d]; if best.length < g.length then g else best) []

/-! ## Functions and contexts -/

/-- A virtual function with its memory window, before its driver, its MSI-X vectors masked (R390, R391, log 14). -/
def VF.fresh (id port part tenant ctx winBase winUnits : Nat) : VF :=
  { id := id, port := port, part := part, tenant := tenant, ctx := ctx, winBase := winBase, winUnits := winUnits, status := 0, devSel := 0,
    drvSel := 0, drvFeatures := 0, msixConfig := 0xFFFF, queueSel := 0, qsize := [4096, 4096], qvector := [0xFFFF, 0xFFFF],
    qenable := [false, false], qdesc := [0, 0], qdriver := [0, 0], qdevice := [0, 0], cfgGen := 0, flags := 0, isr := 0,
    stopped := false, chains := [], open0 := [], posted := 0, nextChain := 0, used := [], events := [], vectors := [],
    msix := (List.range 48).map fun i => if i % 16 = 12 then 1#8 else 0#8, pba := 0 }

/-- A context with no grid, running on every cluster of its set (R333, R363). Its read mask holds its tenant bit (R197). -/
def Context.fresh (id part tenant : Nat) (mask : OSet) (clusters : List Nat) (root : Nat) (vf domain : Option Nat) (shared : List Region)
    (now : Nat) : Context :=
  { id := id, part := part, tenant := tenant, readMask := mask ||| tenantBit tenant, clusters := clusters, root := root, vf := vf,
    objs := [], regions := [], shared := shared, descs := [], nextDesc := 0, dbg := none, code := none, gids := [], ending := none,
    finished := false, onCl := clusters.map fun cl => ⟨cl, .running, now, false⟩, overrun := 0, graceOk := true,
    stale := [], domain := domain, saved := [], savedBlocks := [] }

/-- Every piece of a region that Finwesin maps of itself (R195, R390, R422). -/
def State.mapShared (s : State) (ctx : Nat) (r : Region) : State :=
  (List.range (r.len / 2 ^ 16)).foldl (fun t i => t.mapEntry ctx r (r.va + i * 2 ^ 16)) s

/-- A new context with a root table in a frame of Finwesin's own, zeroed, and what Finwesin maps for it; none for want of a frame (R194,
log 30). -/
def State.newContext (s : State) (part tenant : Nat) (mask : OSet) (clusters : List Nat) (vf domain : Option Nat)
    (shared : List Region) : Option (Nat × State) :=
  (s.ownFrame []).map fun f =>
    let c := Context.fresh s.nextId part tenant mask clusters (f * 2 ^ 16) vf domain shared s.ticks
    let t : State := { s with
      mem := cellsClear s.mem (f * 2 ^ 16) (2 ^ 16), tables := s.tables ++ [(f, s.nextId)], nextId := s.nextId + 1, ctxs := s.ctxs ++ [c] }
    (s.nextId, shared.foldl (fun t r => t.mapShared s.nextId r) t)

/-- Frames that Finwesin maps for a context with a set; none where the partition's table has no such set (R198). -/
def State.share (s : State) (part va len frame type perm kind : Nat) (set : OSet) : List Region :=
  match (s.part part).otable.findIdx? (· == set) with
  | none => []
  | some oidx => [{ va := va, len := len, frame := frame, oidx := oidx, type := type, perm := perm, size := 0, kind := kind }]

/-- A context of the boot configuration, with its function's window and the host coherent frames it shares; at most 64 functions, each
once, on the two host ports as they came up (R2, R389, R390, R398, R422, R430). -/
def State.bootContext (ports : List Nat) (s : State) (c : CtxConfig) : State :=
  let cls := (List.range 192).filter fun n => c.clusters.contains n && (s.cluster n).online && (s.cluster n).part == some c.part
  let host := c.shared.flatMap fun x => s.share c.part x.va x.len x.frame 1 x.perm 4 x.set
  let bind := c.vf.bind fun v =>
    if ports.contains v.port || 1 < v.port || 64 ≤ s.vfs.length || s.vfs.any (·.id == v.id) then none else (s.freeFrames c.part 65536 (v.units * 2 ^ 16)).map fun x => (v, x)
  match bind with
  | none => (s.newContext c.part c.tenant c.readMask cls none c.domain host).elim s (·.2)
  | some (v, f, t) =>
    let win := t.share c.part v.va (v.units * 2 ^ 16) f 0 3 3 (tenantBit c.tenant)
    (t.newContext c.part c.tenant c.readMask cls (some v.id) c.domain (win ++ host)).elim s fun r =>
      { r.2 with vfs := r.2.vfs ++ [VF.fresh v.id v.port c.part c.tenant r.1 (f * 2 ^ 16) v.units] }

/-! ## The boot sequence (R430) -/

/-- A 1 GiB range of HBM that there is, by the local size (R2, R186). -/
def hbmGiB (l g : Nat) : Bool := paExists l (g * 2 ^ 30) && paType (g * 2 ^ 30) == 0

/-- The fields of a partition's configuration lie in their ranges, and its memory, ports, drives and clusters among those that there are
(R2, R186, R198, R281, R291, R357, R362, R404). -/
def partConfigOk (l : Nat) (p : PartConfig) : Bool :=
  decide (1 ≤ p.sliceUnits) && decide (p.sliceUnits ≤ 16384) && decide (p.dests.length ≤ 256) && decide (p.namespaces.length ≤ 256) &&
    decide (p.modules.length ≤ 1024) && p.shares.all (fun x => decide (1 ≤ x.2.2) && decide (x.2.2 ≤ 8)) &&
    p.hbm.all (hbmGiB l) && p.clusters.all (· < 192) && p.hemPorts.all (· < 18) && p.ethPorts.all (· < 8) &&
    p.vlans.all (·.1 < 8) && p.drives.all (· < 8) && p.drives.length == p.namespaces.length

/-- No two lists hold one thing, and none holds one twice (R398). -/
def apart [BEq α] (xs : List (List α)) : Bool := xs.flatten.eraseDups.length == xs.flatten.length

/-- No partition has a VLAN on a port that another owns (R398). -/
def vlansApart (ps : List PartConfig) : Bool :=
  ps.zipIdx.all fun x => ps.zipIdx.all fun y => x.2 == y.2 || x.1.vlans.all fun v => !y.1.ethPorts.contains v.1

/-- Finwesin can create the partitions of a configuration: each is in order, Finwesin's own ranges are HBM, and none owns what another
or Finwesin has (R131, R186, R194, R398, R430). -/
def bootPartitionsOk (cfg : BootConfig) : Bool :=
  let l := min cfg.localGiB 64
  cfg.partitionsOk && decide (cfg.partitions.length ≤ 16) && cfg.partitions.all (partConfigOk l) && cfg.own.all (hbmGiB l) &&
    apart (cfg.partitions.map (·.clusters)) && apart (cfg.own :: cfg.partitions.map (·.hbm)) && apart (cfg.partitions.map (·.hemPorts)) &&
    apart (cfg.partitions.map (·.routes)) && apart (cfg.partitions.map (·.ethPorts)) && apart (cfg.partitions.map (·.vlans)) &&
    vlansApart cfg.partitions

/-- The indices of the namespaces that lie on some drives. -/
def nsOn (p : PartConfig) (drives : List Nat) : List Nat :=
  (List.range p.namespaces.length).filter fun n => drives.contains (p.drives.getD n 0)

/-- A partition of the boot configuration, with the Ethernet ports and the namespaces whose links did not come up (R397, R398, R404,
R430). -/
def bootPartition (cfg : BootConfig) (p : PartConfig) : Partition :=
  { Partition.reset with
    used := true, identity := p.identity, otable := p.otable, dests := p.dests, namespaces := p.namespaces,
    modules := p.modules, selfIndex := p.selfIndex, shares := p.shares, sliceUnits := p.sliceUnits, keys := p.keys,
    hbm := p.hbm, hemPorts := p.hemPorts, routes := p.routes, ethPorts := p.ethPorts, vlans := p.vlans, ethDown := cfg.ethFailed,
    drives := p.drives, deadNs := nsOn p cfg.nvmeFailed }

/-- Clusters that came up, each in its partition, on dies that a route reaches (R386, R398, R430). Their counters start at different
moments (R342, log 7). -/
def bootClusters (cfg : BootConfig) (free : Nat) : List Cluster :=
  (List.range 192).map fun n =>
    let up := !cfg.offlineClusters.contains n && (reached cfg.seamsUp).contains (n / 8)
    { Cluster.reset with
      online := up, part := if up then cfg.partitions.findIdx? fun p => p.clusters.contains n else none,
      counter := (Config.freeWord (free + n)).toNat }

/-- Something came up short of its whole (R430). -/
def bootDegraded (cfg : BootConfig) : Bool :=
  cfg.seamsUp != BitVec.allOnes 38 || !cfg.offlineClusters.isEmpty || !cfg.portsFailed.isEmpty ||
    !cfg.ethFailed.isEmpty || !cfg.nvmeFailed.isEmpty

/-- Bytes whose ML-DSA-65 signature, over their SHAKE256 digest, verifies against the Worsyn public key in the fuses (R409, log 15). -/
def signedOk (x : Signed) : Bool :=
  x.signature.length == 3309 && Config.verifies Config.fuseKey (shake256 x.bytes) x.signature

/-- The first image that does not verify (R409). -/
def firstUnverified (cfg : BootConfig) : Option Nat := cfg.images.findIdx? fun x => !signedOk x

/-- The state after a boot sequence, step by step (R409, R410, R430). Storage and the outside world keep what they hold. The window shows
BOOTING until the controller's next refresh. -/
def State.boot (s : State) (cfg : BootConfig) : State :=
  let base : State := { State.reset with
    files := s.files, hostTime := s.hostTime, free := s.free, failedImage := firstUnverified cfg,
    debugMode := (firstUnverified cfg).isNone && cfg.debugToken.elim false signedOk,
    images := cfg.images.map fun x => (shake256 x.bytes).extractLsb' 0 256 }
  if (firstUnverified cfg).isSome then { base with modSt := .failed }
  else
    let dies := (reached cfg.seamsUp).foldl (fun m d => m ||| (1#24 <<< d)) 0#24
    let hbm : State := { base with bootImagesOk := true, stacksUp := cfg.stacksUp, diesUp := cfg.diesUp }
    if cfg.stacksUp != BitVec.allOnes 24 || cfg.diesUp != BitVec.allOnes 24 then { hbm with modSt := .failed }
    else if !bootPartitionsOk cfg then
      { hbm with modSt := .failed, seamsUp := cfg.seamsUp, diesUp := dies, free := s.free + 192,
                 clusters := bootClusters { cfg with partitions := [] } s.free }
    else
      let parts := cfg.partitions.map (bootPartition cfg)
      let t : State := { hbm with
        seamsUp := cfg.seamsUp, diesUp := dies, localGiB := min cfg.localGiB 64, clusters := bootClusters cfg s.free, free := s.free + 192,
        own := cfg.own, parts := parts ++ List.replicate (16 - parts.length) Partition.reset }
      let t := cfg.contexts.foldl (State.bootContext cfg.portsFailed) t
      { t with modSt := if bootDegraded cfg then .degraded else .up }.refreshFlags

/-- MODULE_RESET (R409, R430). -/
def execModuleReset (cfg : BootConfig) (s : State) : Host.Outcome State Fault Refusal := .next (s.boot cfg)

end Sys2Proof.Machine
end

