-- ==== Sys2Proof/Machine/Host.lean ====
section
/-! DEFINITION. Hosts and the processor chiplet: virtqueues and their requests, virtual function resets, the memory window,
grants, application cores, and what Finwesin submits and loads (R50, R55, R328, R331, R365, R387 to R393, R399, R400, R423). -/

namespace Sys2Proof.Machine

/-! ## The common configuration and the queues (R390, R391) -/

/-- The features that the device offers (R390). -/
def offered : BitVec 64 := (1#64 <<< 32) ||| (1#64 <<< 33) ||| (1#64 <<< 29)

/-- The driver's features are acceptable. -/
def featuresOk (f : BitVec 64) : Bool := (f &&& ~~~offered) == 0 && f.getLsbD 32

/-- A field of the selected queue (log 14). -/
def VF.q (v : VF) : Nat := v.queueSel.toNat

/-- Bytes 32·(sel) of the driver's features. -/
def VF.setFeatures (v : VF) (d : BitVec 64) : VF :=
  if v.drvSel = 0 then { v with drvFeatures := (v.drvFeatures &&& ~~~0xFFFFFFFF#64) ||| (d &&& 0xFFFFFFFF#64) }
  else if v.drvSel = 1 then { v with drvFeatures := (v.drvFeatures &&& 0xFFFFFFFF#64) ||| (d <<< 32) }
  else v

/-- A queue size is one of the powers of two of R390. -/
def queueSizeOk (n : Nat) : Bool := (List.range 12).any fun i => n == 2 ^ (i + 1)

/-- Some bytes of a ring's address replaced (R391). -/
def spliceAddr (old : BitVec 64) (off : Nat) (bs : List Byte) : BitVec 64 :=
  BitVec.ofNat 64 (ofBytesLE ((bytesLE 8 old.toNat).mapIdx fun i b => if off ≤ i ∧ i < off + bs.length then bs.getD (i - off) 0 else b))

/-- A driver's write of some bytes into the ring addresses of the selected queue, whole or by halves (R390, log 14). -/
def VF.writeRing (v : VF) (off : Nat) (bs : List Byte) : VF :=
  let put (l : List (BitVec 64)) : List (BitVec 64) := l.set v.q (spliceAddr (l.getD v.q 0) (off % 8) bs)
  if off < 0x28 then { v with qdesc := put v.qdesc }
  else if off < 0x30 then { v with qdriver := put v.qdriver }
  else { v with qdevice := put v.qdevice }

/-- A driver's write into the common configuration structure at one of its other fields (log 14). A write that is no reset. The device's own
bit DEVICE_NEEDS_RESET stays until a reset (R432). -/
def VF.write (v : VF) (off : Nat) (d : BitVec 64) : VF :=
  match off with
  | 0x00 => { v with devSel := d.setWidth 32 }
  | 0x08 => { v with drvSel := d.setWidth 32 }
  | 0x0C => v.setFeatures d
  | 0x10 => { v with msixConfig := d.setWidth 16 }
  | 0x14 =>
    let st : BitVec 8 := d.setWidth 8 ||| (v.status &&& 64#8)
    { v with status := if st.getLsbD 3 && !featuresOk v.drvFeatures then st &&& ~~~8#8 else st }
  | 0x16 => { v with queueSel := d.setWidth 16 }
  | 0x18 => if queueSizeOk (d.toNat % 65536) then { v with qsize := v.qsize.set v.q (d.setWidth 16) } else v
  | 0x1A => { v with qvector := v.qvector.set v.q (d.setWidth 16) }
  | 0x1C => if d.getLsbD 0 then { v with qenable := v.qenable.set v.q true } else v
  | _ => v

/-- The vectors that are pending and no longer masked are sent (R391, log 14). -/
def VF.unmask (v : VF) : VF :=
  (List.range 3).foldl (fun v n => if v.pba.getLsbD n then { v with pba := v.pba &&& ~~~(1#64 <<< n) }.raise n else v) v

/-- A driver's write into BAR0: the common configuration, or four or eight bytes of the MSI-X table; every other byte discards it (R391). -/
def VF.writeBar0 (v : VF) (pos : RegAt) (d : BitVec 64) : VF :=
  let bs := bytesLE pos.len d.toNat
  let words : Bool := (pos.len == 4 || pos.len == 8) && pos.off % pos.len == 0
  if words && decide (0x3800 ≤ pos.off) && decide (pos.off + pos.len ≤ 0x3830) then
    { v with msix := v.msix.take (pos.off - 0x3800) ++ bs ++ v.msix.drop (pos.off - 0x3800 + pos.len) }.unmask
  else if words && decide (0x20 ≤ pos.off) && decide (pos.off < 0x38) then v.writeRing pos.off bs
  else v.write pos.off d

/-- The 64 bytes of the common configuration (R391, log 14). -/
def VF.common (v : VF) : List Byte :=
  let feat (sel f : Nat) : Nat := if sel = 0 then f % 2 ^ 32 else if sel = 1 then f / 2 ^ 32 else 0
  let q (l : List (BitVec 64)) : Nat := (l.getD v.q 0).toNat
  bytesLE 4 v.devSel.toNat ++ bytesLE 4 (feat v.devSel.toNat offered.toNat) ++ bytesLE 4 v.drvSel.toNat ++
  bytesLE 4 (feat v.drvSel.toNat v.drvFeatures.toNat) ++ bytesLE 2 v.msixConfig.toNat ++ bytesLE 2 2 ++ bytesLE 1 v.status.toNat ++
  bytesLE 1 v.cfgGen.toNat ++ bytesLE 2 v.queueSel.toNat ++ bytesLE 2 (v.qsize.getD v.q 0).toNat ++
  bytesLE 2 (v.qvector.getD v.q 0xFFFF).toNat ++ bytesLE 2 (if v.qenable.getD v.q false then 1 else 0) ++ bytesLE 2 (v.q % 2) ++
  bytesLE 8 (q v.qdesc) ++ bytesLE 8 (q v.qdriver) ++ bytesLE 8 (q v.qdevice) ++ bytesLE 8 0

/-- The 32 bytes of the device-specific configuration (R391). -/
def VF.specific (v : VF) : List Byte :=
  bytesLE 2 v.tenant ++ bytesLE 2 v.part ++ bytesLE 4 v.winUnits ++ bytesLE 2 4096 ++ bytesLE 2 v.flags.toNat ++ List.replicate 20 0#8

/-- A byte of BAR0: outside the structures it reads 0 (R391). -/
def VF.bar0 (v : VF) (off : Nat) : Byte :=
  if off < 64 then v.common.getD off 0
  else if off = 0x2000 then v.isr
  else if 0x3000 ≤ off ∧ off < 0x3020 then v.specific.getD (off - 0x3000) 0
  else if 0x3800 ≤ off ∧ off < 0x3830 then v.msix.getD (off - 0x3800) 0
  else if 0x3C00 ≤ off ∧ off < 0x3C08 then (bytesLE 8 v.pba.toNat).getD (off - 0x3C00) 0
  else 0

/-- A virtio capability: its place in the list, its length, its cfg_type, and its structure of BAR0 (R391, log 14). -/
def virtioCap (next len kind off n : Nat) : List Byte :=
  [0x09#8, BitVec.ofNat 8 next, BitVec.ofNat 8 len, BitVec.ofNat 8 kind] ++ List.replicate 4 0#8 ++ bytesLE 4 off ++ bytesLE 4 n

/-- The virtio capabilities that name the structures of BAR0, from offset 0x40 of the configuration space on (R390, R391, log 14). -/
def virtioCaps : List Byte :=
  virtioCap 0x50 16 1 0 64 ++ (virtioCap 0x64 20 2 0x1000 8 ++ bytesLE 4 4) ++ virtioCap 0x74 16 3 0x2000 4 ++ virtioCap 0 16 4 0x3000 32

/-- A byte of a function's PCI configuration space, at the standard's offsets: what identifies it and its virtio capabilities, or what
identifies the physical function (R391, log 14). -/
def pciId (physical : Bool) (off : Nat) : Byte :=
  let ids := if physical then bytesLE 2 0x1E9D ++ bytesLE 2 0x1536
    else bytesLE 2 0x1AF4 ++ bytesLE 2 0x107C ++ bytesLE 2 0 ++ bytesLE 2 0x10 ++ bytesLE 1 0x01 ++ bytesLE 3 0x120000 ++
      List.replicate 32 0#8 ++ bytesLE 2 0x1E9D ++ bytesLE 2 0x1537 ++ List.replicate 4 0#8 ++ bytesLE 1 0x40 ++ List.replicate 11 0#8 ++
      virtioCaps
  ids.getD off 0

/-- The device processes queues of the function: the driver is ready and no reset has begun (R400). -/
def VF.live (v : VF) (q : Nat) : Bool := !v.stopped && v.status.getLsbD 2 && v.qenable.getD q false

/-- QUEUE_NOTIFY: chains that the driver has made available reach the device (R390, R391, R400). -/
def execQueueNotify (vf q : Nat) (chains : List Chain) (s : State) : Host.Outcome State Fault Refusal :=
  .next (match s.vf? vf with
    | none => s
    | some v =>
      if !v.live q then s
      else if q = 0 then s.setVf { v with
        chains := v.chains ++ chains.mapIdx fun i c => (v.nextChain + i, c), nextChain := v.nextChain + chains.length }
      else if q = 1 then s.setVf { v with posted := v.posted + (chains.filter fun c => c.request.isEmpty && c.writable == 16).length }
      else s)

/-! ## Requests (R392, R393) -/

/-- A field of a request. -/
def chainField (c : Chain) (a n : Nat) : Nat := ofBytesLE ((c.request.drop a).take n)

/-- The type of a well-formed request, none for one that completes with 0x9800 (R392). -/
def chainType (c : Chain) : Option Nat :=
  let t := chainField c 0 2
  if c.request.length == 32 && c.writable == 16 && chainField c 2 6 == 0 && decide (1 ≤ t) && decide (t ≤ 5) then some t else none

/-- The oldest chain of queue 0, if it is of a type, is read and served; the request of a function whose context has ended
completes with that context's code (R393). A service that must wait leaves the chain unread, as does an ending whose code
may still change (R350). -/
def request (want : Option Nat) (vf : Nat) (s : State)
    (body : State → VF → Context → Nat → Chain → Option State) : Host.Outcome State Fault Refusal :=
  .next (match s.vf? vf with
    | none => s
    | some v => match v.chains, s.ctx? v.ctx with
      | (n, c) :: rest, some x =>
        if !v.live 0 || chainType c != want then s
        else
          let v1 := { v with chains := rest, open0 := v.open0 ++ [n] }
          let t := s.setVf v1
          match x.code with
          | some code => if x.finished then t.respond vf n code 0 else s
          | none => (body t v1 x n c).getD s
      | _, _ => s)

/-- The first argument that breaks its layout: its code (R347, R392). -/
def badField : List (Bool × Nat) → Option (BitVec 16)
  | [] => none
  | (ok, n) :: t => if ok then badField t else some (invalidArg n)

/-- The sets of the pages of a function's window that hold some bytes, as its context's tables name them (R331, R390). -/
def State.windowSet (s : State) (c : Context) (pa n : Nat) : OSet :=
  (c.shared.filter fun r => r.kind == 3 && decide (r.frame * 2 ^ 16 < pa + n) && decide (pa < r.frame * 2 ^ 16 + r.len)).foldl
    (fun a r => a ||| s.oset c.part r.oidx) 0

/-- A host's write that has not been performed covers some bytes (R242). -/
def State.postedOver (s : State) (pa n : Nat) : Bool :=
  s.posted.any fun w => decide (w.1 < pa + n) && decide (pa < w.1 + w.2.length)

/-- The first byte of some in G that stands in a failed unit (R349). -/
def State.failedIn (s : State) (pa n : Nat) : Option Loc := ((locG pa).span n).find? s.failedAt

/-- The descriptor of a SUBMIT is read and checked. A failed unit in it, or its lying in memory that is lost, is an error of the function's
context (R331, R348, R386, R393, log 20). -/
def State.submitDesc (s : State) (v : VF) (x : Context) (n pa : Nat) : State :=
  if !s.hbmAt pa 128 then (s.respond v.id n 0x5301 0).endContext x.id 0x5301 else
  match s.failedIn pa 128 with
  | some l => ((s.outsideError l).respond v.id n (s.outsideCode l) 0).endContext x.id (s.outsideCode l)
  | none => match s.parseDesc x (.queue v.tenant (s.windowSet x pa 128)) (.queue v.id n) (cellsRead s.mem pa 128) with
    | none => (s.modPart v.part fun p => { p with refusedSubs := satInc p.refusedSubs }).respond v.id n 0x9800 0
    | some g => (s.accept g).2.refreshFlags

/-- SUBMIT (R328, R331, R340, R341, R393). -/
def execSubmit (vf : Nat) (s : State) : Host.Outcome State Fault Refusal :=
  request (some 1) vf s fun t v x n c =>
    let off := chainField c 8 8
    let pa := v.winBase + off
    match badField [(off % 64 == 0 && decide (off + 128 ≤ v.winUnits * 2 ^ 16), 1), (chainField c 16 8 == 0, 2),
        (chainField c 24 4 == 0, 3), (chainField c 28 4 == 0, 4)] with
    | some code => some (t.respond v.id n code 0)
    | none =>
      if t.drains v.part then some (t.respond v.id n 0x1400 0)
      else if ((locG pa).span 128).any t.owned || t.postedOver pa 128 then none
      else some (t.submitDesc v x n pa)

/-- The length of a MAP or an UNMAP (R392). -/
def mapLenOk (n : Nat) : Bool := n % 65536 == 0 && decide (n ≤ 2 ^ 30)

/-- The first frame of the PCIe range (R186). -/
def pcieFrame : Nat := 0x300000000000 / 2 ^ 16

/-- The I/O pages of a function that a range holds. -/
def ioRange (vf io n : Nat) : List (Nat × Nat) := (List.range n).map fun i => (vf, (io / 2 ^ 16 + i) % 2 ^ 48)

/-- Each I/O page of each function has a frame of the PCIe range of its own: the host's IOMMU translates by the requester ID (R393,
log 14). -/
def State.ioGrow (s : State) (ps : List (Nat × Nat)) : State :=
  { s with ioPages := s.ioPages ++ ps.filter (!s.ioPages.contains ·) }

/-- The frame that stands for an I/O page. -/
def State.ioFrame? (s : State) (p : Nat × Nat) : Option Nat := (s.ioPages.findIdx? (· == p)).map (pcieFrame + ·)

/-- Frames at successive pieces as runs: the first address, the first frame and the number of pieces. -/
def frameRuns (va : Nat) : List Nat → List (Nat × Nat × Nat)
  | [] => []
  | f :: t => match frameRuns (va + 2 ^ 16) t with
    | (_, g, n) :: rest => if f + 1 = g then (va, f, n + 1) :: rest else (va, f, 1) :: (va + 2 ^ 16, g, n) :: rest
    | [] => [(va, f, 1)]

/-- MAP: the range is held from now on and mapped as PCIe pages; one of whose frames is quarantined waits (R186, R392, R393, R401,
log 14). -/
def execMapReq (vf : Nat) (s : State) : Host.Outcome State Fault Refusal :=
  request (some 2) vf s fun t v x n c =>
    let io := chainField c 8 8
    let va := chainField c 16 8
    let len := chainField c 24 4
    let attr := chainField c 28 4
    match badField [(io % 65536 == 0, 1),
        (va % 65536 == 0 && decide (va + len ≤ 2 ^ 64) && (len == 0 || !x.taken va len), 2), (mapLenOk len, 3),
        (decide (attr < 2 ^ 14) && (t.oset v.part (bitsOf attr 0 12)).subset (tenantBit v.tenant), 4)] with
    | some code => some (t.respond v.id n code 0)
    | none =>
      let ps := ioRange v.id io (len / 2 ^ 16)
      let u := t.ioGrow ps
      let frames := ps.filterMap u.ioFrame?
      let rs : List Region := (frameRuns va frames).map fun r =>
        { va := r.1, len := r.2.2 * 2 ^ 16, frame := r.2.1, oidx := bitsOf attr 0 12, type := 2, perm := bitsOf attr 12 2, size := 0, kind := 1 }
      if frames.any t.quarantined.contains then none
      else if 2 ^ 28 < u.ioPages.length then some (t.respond v.id n noResource 0)
      else some (((u.setCtx { x with regions := x.regions ++ rs }).mapRange x.id va len).respond v.id n 0 0)

/-- UNMAP: it completes with the invalidation, and so waits while a command holds a translation (R199, R274, R393, R401). -/
def execUnmapReq (vf : Nat) (s : State) : Host.Outcome State Fault Refusal :=
  request (some 3) vf s fun t v x n c =>
    let io := chainField c 8 8
    let va := chainField c 16 8
    let len := chainField c 24 4
    let mapped := (ioRange v.id io (len / 2 ^ 16)).zipIdx.all fun q => match x.region? (va + q.2 * 2 ^ 16) with
      | none => false
      | some r => r.kind == 1 && t.ioFrame? q.1 == some (r.frame + (va + q.2 * 2 ^ 16 - r.va) / 2 ^ 16)
    match badField [(io % 65536 == 0, 1), (va % 65536 == 0 && mapped, 2), (mapLenOk len, 3), (chainField c 28 4 == 0, 4)] with
    | some code => some (t.respond v.id n code 0)
    | none =>
      let ps := (List.range (len / 2 ^ 16)).map (va / 2 ^ 16 + ·)
      if ps.any (t.commandHolds x.id) then none
      else
        let u := t.removeRange x.id va len
        some ((u.modCtx x.id fun d => { d with stale := d.stale.filter fun y => !ps.contains y.1 }).respond v.id n 0 0)

/-- UIREG (R393). -/
def execUireg (vf : Nat) (s : State) : Host.Outcome State Fault Refusal :=
  request (some 4) vf s fun t v x n c =>
    match badField [(chainField c 8 8 % 8 == 0, 1), (chainField c 16 8 == 0, 2), (chainField c 24 4 == 0, 3), (chainField c 28 4 == 0, 4)] with
    | some code => some (t.respond vf n code 0)
    | none =>
      let h := t.freshNum (t.uints.map (·.handle)) (2 ^ 32)
      let g : UTarget := ⟨h.1, 2, chainField c 8 8, v.id, none, x.id⟩
      some (State.respond { h.2 with uints := h.2.uints ++ [g] } vf n 0 h.1)

/-- UIUNREG (R392). -/
def execUiunreg (vf : Nat) (s : State) : Host.Outcome State Fault Refusal :=
  request (some 5) vf s fun t v _ n c =>
    let h := chainField c 8 8
    match badField [(t.uints.any fun g => g.handle == h && g.kind == 2 && g.who == v.id, 1), (chainField c 16 8 == 0, 2),
        (chainField c 24 4 == 0, 3), (chainField c 28 4 == 0, 4)] with
    | some code => some (t.respond vf n code 0)
    | none => some (State.respond { t with uints := t.uints.filter (·.handle != h) } vf n 0 0)

/-- INVALID_REQUEST (R392). -/
def execInvalidRequest (vf : Nat) (s : State) : Host.Outcome State Fault Refusal :=
  request none vf s fun t _ _ n _ => some (t.respond vf n 0x9800 0)

/-! ## Resets (R399) -/

/-- Calls in flight complete with VF-RESET, and no lane resumes (R399). -/
def Skein.failCalls (k : Skein) : Skein :=
  { k with splits := k.splits.map fun p => p.answer (fun _ _ => true) ([0xFFFF0E00#32], 0) }

/-- The pieces of what Finwesin maps of itself that no quarantined frame underlies: no mapping reuses one (R401). -/
def State.usable (s : State) (r : Region) : List Region :=
  let ok (i : Nat) : Bool := !s.quarantined.contains (r.frame + i) && frameUp s.hbmUp (r.frame + i)
  let n := r.len / 2 ^ 16
  if (List.range n).all ok then [r]
  else ((List.range n).filter ok).map fun i => { r with va := r.va + i * 2 ^ 16, frame := r.frame + i, len := 2 ^ 16 }

/-- A function whose window has a frame that is quarantined, or on a stack or die that is lost, is granted a range afresh for its window
while its partition has one; the regions that its new context shares follow (R347, R386, R390, R401, log 32). -/
def State.freshWindow (s : State) (v : VF) (rs : List Region) : State × Nat × List Region :=
  let win (r : Region) : Bool := r.kind == 3
  let base := v.winBase / 2 ^ 16
  let hit := (List.range v.winUnits).any fun i => s.quarantined.contains (base + i) || !frameUp s.hbmUp (base + i)
  match if hit then s.freeFrames v.part 65536 (v.winUnits * 2 ^ 16) else none with
  | some (f, t) => (t, f * 2 ^ 16, (rs.map fun r => if win r then { r with frame := f } else r).flatMap t.usable)
  | none => (s, v.winBase, rs.flatMap s.usable)

/-- The reset of a virtual function, step by step; it then has a new context and waits for its driver; for want of a frame for its root
table it stays with its ended one (R194, log 30). The partners of its collectives are
told to abort them, and its writes that are still buffered are discarded (R399 to R401). -/
def State.resetVf (s : State) (vf : Nat) : State :=
  match s.vf? vf with
  | none => s
  | some v => match s.ctx? v.ctx with
    | none => s
    | some c =>
      let t := s.setVf { v with stopped := true, chains := [], open0 := [], posted := 0 }
      let t : State := { t with nvme := t.nvme.filter fun x => x.ctx != c.id || x.submitted }
      let t := t.endContext c.id 0x0E00
      let t := t.retireBaskets (·.ctx == c.id)
      let t := t.modCtx c.id fun x => { x with descs := [] }
      let t := t.quarantine (·.ctx == c.id)
      let fail (k : Skein) : Skein := if k.ctx == c.id then k.failCalls else k
      let mine := t.groups.filter (·.ctx == c.id)
      let t : State := { t with
        groups := t.groups.filter (·.ctx != c.id),
        uints := t.uints.filter fun g => !(g.kind == 2 && g.who == v.id),
        skeins := t.skeins.map fail }
      let t := mine.foldl (fun t g => t.leaveHem c.part (.aborted g.handle 0x0F01)) t
      let w := t.freshWindow v c.shared
      let r := (w.1.newContext c.part c.tenant c.readMask c.clusters c.vf c.domain w.2.2).getD (c.id, w.1)
      let u := { VF.fresh v.id v.port v.part v.tenant r.1 w.2.1 v.winUnits with
        nextChain := v.nextChain, used := v.used, events := v.events, vectors := v.vectors }
      (r.2.setVf u).refreshFlags

/-- A reset that the host asks for; after a thermal shutdown Finwesin does not run, and the function reports DEVICE_NEEDS_RESET until module
reset (R399, R432). -/
def State.askReset (s : State) (vf : Nat) : State := if s.stopped then s else s.resetVf vf

/-- FUNCTION_LEVEL_RESET (R399). -/
def execFunctionLevelReset (vf : Nat) (s : State) : Host.Outcome State Fault Refusal := .next (s.askReset vf)

/-- VIRTIO_STATUS_RESET (R399). -/
def execVirtioStatusReset (vf : Nat) (s : State) : Host.Outcome State Fault Refusal := .next (s.askReset vf)

/-- COMMON_CONFIGURATION_WRITE: a driver's write into BAR0; a status of 0 resets the function (R391, R399). -/
def execCommonConfigurationWrite (vf : Nat) (pos : RegAt) (data : BitVec 64) (s : State) : Host.Outcome State Fault Refusal :=
  .next (match s.vf? vf with
    | none => s
    | some v => if pos.off == 0x14 && data.extractLsb' 0 8 == 0 then s.askReset vf else s.setVf (v.writeBar0 pos data))

/-! ## The processor chiplet (R387, R388, R423) -/

/-- The tenants of a chiplet domain: those of the contexts of the domain (R388). -/
def State.domainTenants (s : State) (dom : Nat) : OSet :=
  s.ctxs.foldl (fun a c => if c.domain == some dom then a ||| tenantBit c.tenant else a) 0

/-- The partition that owns a physical piece (R398). -/
def State.partOfPiece (s : State) (piece : Nat) : Option Nat :=
  (List.range 16).find? fun n => (s.part n).hbm.contains (piece / gibFrames)

/-- A refused chiplet read returns nothing and is counted as a refused egress of the partition whose memory it names (R388, R403). -/
def State.refuseRead (s : State) (core piece : Nat) : State :=
  let t : State := { s with coreRead := s.coreRead ++ [(core, none)] }
  match s.partOfPiece piece with
  | none => t
  | some n => t.modPart n fun p => { p with refusedEgress := satInc p.refusedEgress }

/-- The set of a grant: that of the granting context's entry for the piece, to which Finwesin keeps it equal (R388). -/
def State.grantSet (s : State) (g : Grant) : OSet :=
  match (s.ctx? g.ctx).map fun c => s.pageOf c g.va with
  | some (.leaf l) => if l.pa / 2 ^ 16 == g.piece then l.set else g.set
  | some .unmapped | some .malformed | none => g.set

/-- The new value of an atomic memory operation of an application core (R245). -/
def amoNew (op : AmoOp) (w m x : Nat) : Nat :=
  match op with
  | .swap => x
  | .add => (m + x) % 2 ^ w
  | .xor => m ^^^ x
  | .and => m &&& x
  | .or => m ||| x
  | .min => if signed w x < signed w m then x else m
  | .max => if signed w m < signed w x then x else m
  | .minu => if x < m then x else m
  | .maxu => if m < x then x else m

/-- The bytes of an access, and whether it returns memory's data and whether it writes (R245, R387). -/
def appSpan (op : AppOp) : Nat × Bool × Bool :=
  match op with
  | .load n => (n, true, false)
  | .store bs => (bs.length, false, true)
  | .fence _ _ | .schedule _ _ => (0, false, false)
  | .amo _ n _ _ _ | .amocas n _ _ _ _ => (n, true, true)
  | .lr n _ _ => (n, true, false)
  | .sc bs _ _ => (bs.length, false, true)

/-- The size and alignment of an atomic access: 4 or 8 bytes, or 16 for a compare and swap (R245, R387). -/
def appShaped (op : AppOp) (pa : Nat) : Bool :=
  match op with
  | .load n => n != 0
  | .store bs => !bs.isEmpty
  | .fence _ _ | .schedule _ _ => false
  | .amo _ n _ _ _ | .lr n _ _ => (n == 4 || n == 8) && pa % n == 0
  | .amocas n _ _ _ _ => (n == 4 || n == 8 || n == 16) && pa % n == 0
  | .sc bs _ _ => (bs.length == 4 || bs.length == 8) && pa % bs.length == 0

/-- A reservation still stands: no byte of it has been written since (R245). -/
def State.stands (s : State) (r : Reserve) : Bool :=
  !(s.past.take (s.past.length - r.moment)).any fun w => decide (r.pa ≤ w.1) && decide (w.1 < r.pa + r.n)

/-- A core's own write, which leaves its own reservation as it was (R245). -/
def State.appWrite (s : State) (core pa : Nat) (bs : List Byte) : State :=
  let t := s.pokes (locG pa) bs
  let own (r : Reserve) : Reserve := if r.core == core && s.stands r then { r with moment := t.past.length } else r
  { t with reserves := t.reserves.map own }

/-- An access of an application core is performed at its home in program order, so that its fences, aq and rl order nothing more. A read
that meets a failed unit returns nothing and has no other effect. A store conditional succeeds only where the core's reservation of the
bytes stands; whether it then does is open (R245, R348, R349, R387, R423, log 7, log 33). -/
def State.appPerform (s : State) (core pa : Nat) (op : AppOp) : State :=
  let old (n : Nat) : List Byte := cellsRead s.mem pa n
  let seen (t : State) (bs : List Byte) : State := { t with coreRead := t.coreRead ++ [(core, some bs)] }
  let put (t : State) (bs : List Byte) : State := t.appWrite core pa bs
  let others := s.reserves.filter (·.core != core)
  match if (appSpan op).2.1 then s.failedIn pa (appSpan op).1 else none with
  | some l => { s.outsideError l with coreRead := s.coreRead ++ [(core, none)] }
  | none => match op with
    | .load n => seen s (old n)
    | .store bs => put s bs
    | .fence _ _ | .schedule _ _ => s
    | .amo op n x _ _ => seen (put s (bytesLE n (amoNew op (8 * n) (ofBytesLE (old n)) (x.toNat % 2 ^ (8 * n))))) (old n)
    | .amocas n e x _ _ => seen (if ofBytesLE (old n) = e.toNat % 2 ^ (8 * n) then put s (bytesLE n x.toNat) else s) (old n)
    | .lr n _ _ => seen { s with reserves := ⟨core, pa, n, s.past.length⟩ :: others } (old n)
    | .sc bs _ _ =>
      let mine (r : Reserve) : Bool := r.core == core && r.pa == pa && r.n == bs.length && s.stands r
      let ok := s.reserves.any mine && Config.freeBit s.free
      let t : State := { s with reserves := others, free := s.free + 1 }
      seen (if ok then t.pokes (locG pa) bs else t) [if ok then 0#8 else 1#8]

/-- A thread starts or stops running on a core, as the chiplet's operating system keeps in the entry of its target (R360). -/
def State.schedule (s : State) (core token : Nat) (on : Bool) : State :=
  let move (t : UTarget) : UTarget :=
    if t.kind != 0 || t.who != token then t
    else if on then { t with core := some core }
    else if t.core == some core then { t with core := none } else t
  { s with uints := s.uints.map move }

/-- Engines hold back an access to bytes that they own, or pin against a write (R242). -/
def State.appHeld (s : State) (pa : Nat) (op : AppOp) : Bool :=
  (Loc.span (locG pa) (appSpan op).1).any fun l => s.owned l || ((appSpan op).2.2 && s.pinned l)

/-- An application core's access to device memory at the directory: checked against the grant entry of each piece; none while an engine
holds it back (R242, R387, R388, R403). -/
def State.deviceAccess (s : State) (dom core pa : Nat) (op : AppOp) : Option State :=
  let n := (appSpan op).1
  let reads := (appSpan op).2.1
  let grant (p : Nat) : Option Grant := s.grants.find? fun g => g.domain == dom && g.piece == p
  let ps := [pa / 2 ^ 16, (pa + n - 1) / 2 ^ 16].eraseDups
  let ok (p : Nat) : Bool := (grant p).elim false fun g => !reads || (s.grantSet g).subset (s.domainTenants dom)
  match ps.find? fun p => !ok p with
  | some p => some (if reads then s.refuseRead core p else s)
  | none => if s.appHeld pa op then none else some (s.appPerform core pa op)

/-- What a host reads of a function leaves for it. -/
def State.readOut (s : State) (vf bar : Nat) (bs : Option (List Byte)) : State := { s with windowReads := s.windowReads ++ [(vf, bar, bs)] }

/-- A host's read of a function: of BAR2, bytes of its window once no engine owns them and no write of the host itself waits for them; of
BAR0, a read of the ISR status clears it; 6 stands for the configuration space, and 7 for that of the physical function of a port (R242,
R348, R390, R391, log 14); memory on a lost stack or die gives none (R386, log 37). -/
def State.windowRead (s : State) (vf : Nat) (pos : BarAt) (len : Nat) : Option State :=
  let bytes (f : Nat → Byte) : Option (List Byte) := some ((List.range len).map fun i => f (pos.off + i))
  match if pos.bar = 7 then none else s.vf? vf with
  | none => some (if pos.bar = 7 && vf < 2 then s.readOut vf 7 (bytes (pciId true)) else s)
  | some v =>
    let pa := v.winBase + pos.off
    match pos.bar with
    | 0 => some ((if pos.off ≤ 0x2000 ∧ 0x2000 < pos.off + len then s.setVf { v with isr := 0 } else s).readOut vf 0 (bytes v.bar0))
    | 2 =>
      if v.winUnits * 2 ^ 16 < pos.off + len then some s
      else if ((locG pa).span len).any s.owned || s.postedOver pa len then none
      else if !s.hbmAt pa len then some (s.readOut vf 2 none)
      else some (match s.failedIn pa len with
        | some l => (s.outsideError l).readOut vf 2 none
        | none => s.readOut vf 2 (some (cellsRead s.mem pa len)))
    | 6 => some (s.readOut vf 6 (bytes (pciId false)))
    | _ => some s

/-- An access of an outside agent is performed; none while an engine holds it back (R242). -/
def State.outside (s : State) : Outside → Option State
  | .app core pa op => if s.appHeld pa op then none else some (s.appPerform core pa op)
  | .device dom core pa op => s.deviceAccess dom core pa op
  | .window vf pos len => s.windowRead vf pos len
  | .received g b n l data => s.receiveHeld (g, b, n, l) data

/-- The agent of an access: an application core, or the host of a function. What a peer has sent has none, and comes after no other. -/
def Outside.agent : Outside → Option (Nat × Bool)
  | .app core _ _ | .device _ core _ _ => some (core, true)
  | .window vf _ _ => some (vf, false)
  | .received _ _ _ _ _ => none

/-- An access of an outside agent comes: it is performed, or held, as is one behind a held one of its agent (R242, R245, R248). -/
def State.offerOutside (s : State) (a : Outside) : State :=
  if a.agent.isSome && s.heldOutside.any (·.agent == a.agent) then { s with heldOutside := s.heldOutside ++ [a] }
  else (s.outside a).getD { s with heldOutside := s.heldOutside ++ [a] }

/-- The held accesses proceed, each agent's in its order, once nothing holds them back (R248). -/
def State.settleOutside (s : State) : State := s.heldOutside.foldl State.offerOutside { s with heldOutside := [] }

/-- MEMORY_WINDOW_READ: a host's read of a function (R242, R390, R391). -/
def execMemoryWindowRead (vf : Nat) (pos : BarAt) (len : Nat) (s : State) : Host.Outcome State Fault Refusal :=
  .next (s.offerOutside (.window vf pos len))

/-- CHIPLET_DEVICE_ACCESS: an application core's access to device memory (R245, R387, R388, R403). -/
def execChipletDeviceAccess (dom core pa : Nat) (op : AppOp) (s : State) : Host.Outcome State Fault Refusal :=
  let n := (appSpan op).1
  .next (if !s.alive || 16 ≤ core || !appShaped op pa || 2 ^ 16 < n || paType pa != 0 || !s.hbmAt pa n then s
    else s.offerOutside (.device dom core pa op))

/-- DEVICE_PAGE_GRANT (R388). -/
def execDevicePageGrant (ctx va dom : Nat) (s : State) : Host.Outcome State Fault Refusal :=
  .next (match s.svcPiece ctx ⟨false, false, false, false⟩ (va / 2 ^ 16 * 2 ^ 16) 1 with
    | .error _ => s
    | .ok (t, p) =>
      if p.type != 0 then t
      else
        let g : Grant := ⟨p.loc.addr / 2 ^ 16, dom, ctx, va / 2 ^ 16 * 2 ^ 16, p.sets.headD 0⟩
        { t with grants := g :: t.grants.filter fun x => !(x.piece == g.piece && x.domain == dom) })

/-- APPLICATION_CORE_ACCESS: one of the 16 cores' accesses to host coherent memory, performed at the home agent, or a change of the thread
that it runs (R242, R245, R360, R387, R423). -/
def execApplicationCoreAccess (core pa : Nat) (op : AppOp) (s : State) : Host.Outcome State Fault Refusal :=
  .next (if !s.alive || 16 ≤ core then s
    else match op with
      | .schedule token on => s.schedule core token on
      | .fence _ _ => s
      | .load _ | .store _ | .amo _ _ _ _ _ | .amocas _ _ _ _ _ | .lr _ _ _ | .sc _ _ _ =>
        if !appShaped op pa || paType pa != 1 || paType (pa + (appSpan op).1 - 1) != 1 then s else s.offerOutside (.app core pa op))

/-! ## Finwesin's own submissions and loads (R50, R55, R328, R365) -/

/-- FINWESIN_SUBMISSION (R328, R331, R340). -/
def execFinwesinSubmission (ctx : Nat) (desc : List (BitVec 8)) (s : State) : Host.Outcome State Fault Refusal :=
  .next (match s.ctx? ctx with
    | none => s
    | some c =>
      if c.over || s.drains c.part then s
      else match s.parseDesc c .finwesin .finwesin desc with
        | none => s
        | some g => (s.accept g).2.refreshFlags)

/-- A recipe of a table: its reserved field, stub and length are in their limits (R365). -/
def recipeOk (bs : List Byte) (w i : Nat) : Bool :=
  let f (a n : Nat) : Nat := ofBytesLE ((bs.drop (8 + 40 * i + a)).take n)
  f 38 2 == 0 && decide (f 36 2 ≤ 64) && decide (f 32 4 + f 36 2 ≤ w)

/-- A recipe table that loads (R365). -/
def recipesOk (bs : List Byte) : Bool :=
  let n := ofBytesLE (bs.take 4)
  let w := ofBytesLE ((bs.drop 4).take 4)
  bs.isEmpty || (decide (n ≤ 4096) && bs.length == 8 + 40 * n + 4 * w && (List.range n).all (recipeOk bs w))

/-- The bits of a field set to 0 in the bytes from an offset on. -/
def clearBits (off n mask : Nat) (bs : List Byte) : List Byte :=
  bs.mapIdx fun i b => if off ≤ i ∧ i < off + n then b &&& ~~~(BitVec.ofNat 8 (mask / 256 ^ (i - off))) else b

/-- The offset of a group's consumer: the first word from an offset on that is no hint (R42, R70). -/
def consumerAt (bs : List Byte) : Nat → Nat → Nat
  | off, 0 => off
  | off, n + 1 => if fMajor (BitVec.ofNat 32 (ofBytesLE ((bs.drop off).take 4))) = 0x3F then consumerAt bs (off + 4) n else off

/-- A relocated field set to 0 (R56): DISP18 in bits [25:23] and [14:0] of its word, SOFF in the payload of the XIMM word and the imm7 of
the instruction of its group, RIDX in bits [18:7], ABS64 in its 8 bytes. -/
def relocZero (r : Reloc) (bs : List Byte) : List Byte :=
  match r.kind with
  | .disp18 => clearBits r.off 4 0x03807FFF bs
  | .soff => clearBits (consumerAt bs (r.off + 4) 4) 4 0x7F (clearBits r.off 4 0x7FFFFF bs)
  | .ridx => clearBits r.off 4 0x7FF80 bs
  | .abs64 _ _ _ => clearBits r.off 8 (2 ^ 64 - 1) bs

/-- The bytes of a part of an object as the code digest takes them (R55). -/
def objZeroed (o : ObjImage) (sec : Section) (bs : List Byte) : List Byte :=
  (o.relocs.filter (·.sec == sec)).foldl (fun bs r => relocZero r bs) bs

/-- The code digest: of the code, then the read-only data, then the recipe table, with every relocated field 0; the writable data is not in
it (R45, R55). -/
def objDigest (o : ObjImage) : BitVec 256 :=
  (shake256 (objZeroed o .code o.codeBytes ++ objZeroed o .rodata o.rodataBytes ++ objZeroed o .recipes o.recipeBytes)).extractLsb' 0 256

/-- The load address of a section. -/
def objBase (o : ObjImage) (sec : Section) : Nat :=
  match sec with
  | .code => o.code
  | .rodata => o.rodata
  | .data => o.data
  | .recipes => o.recipes

/-- The bytes of a section as the loader places them: an ABS64 field holds the load address of its label plus its constant (R56). -/
def objRelocated (o : ObjImage) (sec : Section) (bs : List Byte) : List Byte :=
  (o.relocs.filter (·.sec == sec)).foldl (fun bs r => match r.kind with
    | .abs64 label off plus =>
      if r.off + 8 ≤ bs.length then
        bs.take r.off ++ bytesLE 8 (wrap 64 ((objBase o label + off : Nat) + plus)) ++ bs.drop (r.off + 8) else bs
    | .disp18 | .soff | .ridx => bs) bs

/-- A section as a held region with its bytes in fresh frames, mapped; none where its set has no index or its place is taken
(R50, R198, R442). -/
def State.loadSection (s : State) (ctx va : Nat) (bytes : List Byte) (set : OSet) (perm : Nat) : Option State :=
  if bytes.isEmpty then some s
  else match s.ctx? ctx with
    | none => none
    | some c =>
      let len := (bytes.length + 65535) / 65536 * 65536
      match (s.part c.part).otable.findIdx? (· == set), s.freeFrames c.part 65536 len with
      | some oidx, some (f, t) =>
        if va % 65536 != 0 || 2 ^ 64 < va + len || c.taken va len then none
        else
          let r : Region := { va := va, len := len, frame := f, oidx := oidx, type := 0, perm := perm, size := 0, kind := 2 }
          some (({ t with mem := cellsWrite t.mem (f * 2 ^ 16) bytes }.setCtx { c with regions := c.regions ++ [r] }).mapRange ctx va len)
      | _, _ => none

/-- CODE_OBJECT_LOAD: the sections are mapped with their sets, or the load is refused and changes nothing; one of a kernel record out of
range is (R50 to R52, R55, R56, R365, log 34). R365 gives the recipe table its permissions and no set: it has that of a section without
.origin, the loading tenant's bit, which is the model's choice (log 34). -/
def execCodeObjectLoad (ctx : Nat) (obj : ObjImage) (s : State) : Host.Outcome State Fault Refusal :=
  .next (match s.ctx? ctx with
    | none => s
    | some c =>
      let own := tenantBit c.tenant
      let at0 (sec : Section) (bs : List Byte) : Nat × List Byte := (objBase obj sec, objRelocated obj sec bs)
      let parts := [(at0 .code obj.codeBytes, own, 5), (at0 .rodata obj.rodataBytes, obj.rodataOrigin.getD own, 1),
        (at0 .data obj.dataBytes, obj.dataOrigin.getD own, 3), (at0 .recipes obj.recipeBytes, own, 5)]
      let t := parts.foldl (fun (t : Option State) x => t.bind fun t => t.loadSection ctx x.1.1 x.1.2 x.2.1 x.2.2) (some s)
      if c.over || !recipesOk obj.recipeBytes || !obj.kernels.all kernelOk then s
      else match t with
        | none => s
        | some t =>
          let o : CodeObj := { code := obj.code, codeLen := obj.codeBytes.length, rodata := obj.rodata, data := obj.data, recipes := obj.recipes,
                               nrec := ofBytesLE (obj.recipeBytes.take 4), kernels := obj.kernels, digest := objDigest obj }
          t.modCtx ctx fun c => { c with objs := c.objs ++ [o] })

end Sys2Proof.Machine
end

