-- ==== Sys2Proof/Machine/Wringer.lean ====
section
/-! DEFINITION. The Wringer's commands and how they advance (R273 to R284, R299 to R305, R397). -/

namespace Sys2Proof.Machine

/-- A Wringer command: nothing with no active lane; STALLED at the limits; then its argument block, a start slice with the
listed registers as offsets and slices, and other operands (R274, R278, R298, R299). -/
def wringerOp (z : Instr) (x : Nat) (regs : List (Nat × Nat)) (other : List (Nat × Nat)) (s : State)
    (body : Iss → Res State) : Host.Outcome State Fault Refusal :=
  issue z s fun i =>
    if i.p.em == 0 then .ok i.s
    else if 64 ≤ i.s.wringerLoad i.k.coreId ∨ 32 ≤ i.k.cmds.length then .error (.stall .wringer)
    else do
      let top := topLane i.p.em id
      body (← i.operands (⟨x, 0, 32, 0, false, false⟩ ::
        (regs.map fun r => ⟨x + 8 * r.1, r.2, 1, top, true, false⟩) ++ other.map fun r => ⟨r.1, r.2, 1, top, true, false⟩))

/-- A register of the argument block, or a pair, in the highest active lane. -/
def Iss.arg (i : Iss) (x r n : Nat) : Nat := i.raw (highest i.p.em) (x + 8 * r) n

/-- The control word's limits (R301). -/
def Iss.control (i : Iss) (y : Nat) : Res (Option Nat) :=
  let v := i.raw (highest i.p.em) y 8
  if bitsOf v 19 12 ≠ 0 ∨ (bitsOf v 31 1 = 0 ∧ bitsOf v 0 19 ≠ 0) then i.trap (dnr 2 4) i.p.em
  else .ok (if bitsOf v 31 1 = 1 then some (bitsOf v 0 19) else none)

/-- The source and destination spaces of a pair (R300). -/
def pairSpaces (sp : BitVec 3) : Space × Space :=
  match sp.toNat with
  | 0 => (.g, .s)
  | 1 => (.s, .g)
  | 2 => (.g, .c)
  | 3 => (.c, .g)
  | 4 => (.s, .c)
  | _ => (.c, .s)

/-- The destination space of WFILL (R300). -/
def fillSpace (sp : BitVec 3) : Space :=
  match sp.toNat with
  | 0 => .g
  | 1 => .s
  | _ => .c

/-- WCOPY (R279, R282, R303). -/
def execWcopy (x y : BitVec 8) (sp : BitVec 3) (s : State) : Host.Outcome State Fault Refusal :=
  wringerOp (.wcopy x y sp) x.toNat [(0, 16), (2, 16), (4, 8)] [(y.toNat, 8)] s fun i => do
    let src := i.arg x.toNat 0 16
    let dst := i.arg x.toNat 2 16
    let n := i.arg x.toNat 4 8
    i.need (decide (n ≤ 1048576) && n % 4 == 0 && src % 4 == 0 && dst % 4 == 0) (dnr 2 4) i.p.em
    let bar ← i.control y.toNat
    let a ← i.region (pairSpaces sp).1 needLoad src n
    let b ← i.region (pairSpaces sp).2 needStore dst n
    i.checkBarrier bar
    i.need (b.takes (a.set ||| i.rset)) (dnr 5 0) i.p.em
    i.command { minor := 0, sel := sp.toNat, spaces := [(pairSpaces sp).1, (pairSpaces sp).2], owns := b.locs,
                moves := moves b.locs a.locs, barrier := bar, pages := a.pages ++ b.pages }

/-- WFILL (R279, R280, R303). -/
def execWfill (x y : BitVec 8) (sp : BitVec 3) (s : State) : Host.Outcome State Fault Refusal :=
  wringerOp (.wfill x y sp) x.toNat [(0, 16), (4, 8), (5, 8)] [(y.toNat, 8)] s fun i => do
    let dst := i.arg x.toNat 0 16
    let n := i.arg x.toNat 4 8
    i.need (decide (n ≤ 1048576) && n % 4 == 0 && dst % 4 == 0) (dnr 2 4) i.p.em
    let bar ← i.control y.toNat
    let b ← i.region (fillSpace sp) needStore dst n
    i.checkBarrier bar
    i.need (b.takes i.rset) (dnr 5 0) i.p.em
    let pat := bytesLE 4 (i.arg x.toNat 5 8)
    i.command { minor := 3, sel := sp.toNat, spaces := [fillSpace sp], owns := b.locs,
                moves := b.locs.mapIdx fun j l => ⟨l, .inr (pat.getD (j % 4) 0)⟩, barrier := bar, pages := b.pages }

/-- The index list of a gather or scatter, read at issue after the split's own waiting stores; one that an earlier command
still has to write is waited for (R231, R299, R303). An index in a failed unit is none: its element is not moved (R275). -/
def Iss.indexList (i : Iss) (off count : Nat) : Res (Extent × List (Option Nat)) := do
  let r ← i.region .s needLoad off (4 * count)
  let held := r.locs.filter i.s.owned
  if held.isEmpty then do
    let j ← i.flush r.locs
    .ok (r, (List.range count).map fun e =>
      let ls := (r.locs.drop (4 * e)).take 4
      if ls.any j.s.failedAt then none else some (ofBytesLE (ls.map j.s.peek)))
  else .error (.stall (.line false held))

/-- The limits of a gather or scatter (R279, R302). -/
def Iss.gatherLimits (i : Iss) (x : Nat) : Res (Nat × Nat × Nat) :=
  let ext := i.arg x 4 8
  let c := i.arg x 5 8
  let lz := bitsOf c 24 4
  let count := bitsOf c 0 17
  let z := 2 ^ lz
  if bitsOf c 17 7 == 0 && bitsOf c 28 4 == 0 && decide (1 ≤ count) && decide (count ≤ 65536) && decide (2 ≤ lz) &&
      decide (lz ≤ 10) && decide (count * z ≤ 1048576) && decide (1 ≤ ext) && decide (ext * z ≤ 2 ^ 32) &&
      i.arg x 6 8 % 4 == 0 && i.arg x 0 16 % 4 == 0 && i.arg x 2 16 % 4 == 0 then .ok (ext, count, z)
  else i.trap (dnr 2 4) i.p.em

/-- The fault of an index beyond its extent (R279). -/
def indexFault (ext : Nat) (idx : List (Option Nat)) : Option (BitVec 16) :=
  if idx.all fun x => x.elim true (· < ext) then none else some (dnr 4 3)

/-- The elements to move, in list order: position in the list and index (R303). -/
def indexed (ext : Nat) (idx : List (Option Nat)) : List (Nat × Nat) :=
  idx.zipIdx.filterMap fun x => x.1.bind fun n => if n < ext then some (x.2, n) else none

/-- The whole lines that hold some locations (R305). -/
def wholeLines (ls : List Loc) : List Loc := (ls.map Loc.line).eraseDups.flatMap fun l => { l with addr := l.addr * 64 }.span 64

/-- WGATH (R279, R282, R303). -/
def execWgath (x y : BitVec 8) (sp : BitVec 3) (s : State) : Host.Outcome State Fault Refusal :=
  wringerOp (.wgath x y sp) x.toNat [(0, 16), (2, 16), (4, 8), (5, 8), (6, 8)] [(y.toNat, 8)] s fun i => do
    let (ext, count, z) ← i.gatherLimits x.toNat
    let bar ← i.control y.toNat
    let (list, idx) ← i.indexList (i.arg x.toNat 6 8) count
    let inside := indexed ext idx
    let base := i.arg x.toNat 0 16
    i.narrow (pairSpaces sp).1 base
    let es ← i.regions (pairSpaces sp).1 needLoad z (inside.map fun e => (base + e.2 * z) % 2 ^ 64)
    let b ← i.region (pairSpaces sp).2 needStore (i.arg x.toNat 2 16) (count * z)
    i.checkBarrier bar
    i.need (b.takes (es.foldl (fun a e => a ||| e.set) (list.set ||| i.rset))) (dnr 5 0) i.p.em
    i.command { minor := 1, sel := sp.toNat, spaces := [(pairSpaces sp).1, (pairSpaces sp).2], owns := b.locs,
                moves := (inside.zip es).flatMap fun q => moves ((b.locs.drop (q.1.1 * z)).take z) q.2.locs,
                srcs := list.locs, pins := wholeLines (es.flatMap (·.locs)), barrier := bar, fault := indexFault ext idx,
                pages := es.flatMap (·.pages) ++ b.pages }

/-- WSCAT (R279, R282, R303). -/
def execWscat (x y : BitVec 8) (sp : BitVec 3) (s : State) : Host.Outcome State Fault Refusal :=
  wringerOp (.wscat x y sp) x.toNat [(0, 16), (2, 16), (4, 8), (5, 8), (6, 8)] [(y.toNat, 8)] s fun i => do
    let (ext, count, z) ← i.gatherLimits x.toNat
    let bar ← i.control y.toNat
    let (list, idx) ← i.indexList (i.arg x.toNat 6 8) count
    let a ← i.region (pairSpaces sp).1 needLoad (i.arg x.toNat 0 16) (count * z)
    let inside := indexed ext idx
    let base := i.arg x.toNat 2 16
    i.narrow (pairSpaces sp).2 base
    let es ← i.regions (pairSpaces sp).2 needStore z (inside.map fun e => (base + e.2 * z) % 2 ^ 64)
    i.checkBarrier bar
    let d := a.set ||| list.set ||| i.rset
    i.need (es.all (·.takes d)) (dnr 5 0) i.p.em
    i.command { minor := 2, sel := sp.toNat, spaces := [(pairSpaces sp).1, (pairSpaces sp).2],
                owns := wholeLines (es.flatMap (·.locs)),
                moves := (inside.zip es).flatMap fun q => moves q.2.locs ((a.locs.drop (q.1.1 * z)).take z),
                srcs := list.locs, pins := a.locs, barrier := bar, fault := indexFault ext idx,
                pages := es.flatMap (·.pages) ++ a.pages }

/-- A source byte of a send or a collective as it stands at the issue moment, absent where its unit has failed (R243,
R275). -/
def State.sendByte (s : State) (die moment : Nat) (l : Loc) : Option SrcByte :=
  if s.srcFails moment l then none else some (s.srcByte die moment l)

/-- WSEND (R281, R304). One of length 0 has no effect (R279). -/
def execWsend (x : BitVec 8) (s : State) : Host.Outcome State Fault Refusal :=
  wringerOp (.wsend x) x.toNat [(0, 16), (2, 16), (4, 8), (5, 8)] [] s fun i => do
    let src := i.arg x.toNat 0 16
    let dst := i.arg x.toNat 2 16
    let n := i.arg x.toNat 4 8
    let m := i.arg x.toNat 5 8
    let part := i.s.part (i.s.ctxOf i.k).part
    i.need (decide (n ≤ 1048576) && n % 4 == 0 && src % 4 == 0 && dst % 4 == 0 && bitsOf m 10 22 == 0 &&
      decide (m < part.modules.length)) (dnr 2 4) i.p.em
    let a ← i.region .g needLoad src n
    i.command { minor := 4, sel := 0, spaces := [.g], owns := [], moves := [], srcs := a.locs, pages := a.pages,
                kind := fun t order => if n = 0 then .local
                  else .wsend m dst (a.locs.map (t.sendByte i.k.die order)) (a.set ||| i.rset) }

/-- A WCOLL: its group, its root and its size (R283, R302, R304). R304 asks that the group contain the module; that it must also
be a group of the context is the model's choice (log 21). -/
def wcollOp (z : Instr) (x : BitVec 8) (kind : Nat) (s : State) : Host.Outcome State Fault Refusal :=
  wringerOp z x.toNat [(0, 16), (2, 16), (4, 8), (5, 8), (6, 8)] [] s fun i => do
    let src := i.arg x.toNat 0 16
    let dst := i.arg x.toNat 2 16
    let n := i.arg x.toNat 4 8
    let handle := i.arg x.toNat 5 8
    let root := i.arg x.toNat 6 8
    match i.s.groups.find? fun g => g.handle == handle && g.ctx == i.k.ctx && g.ready with
    | none => i.trap (dnr 2 4) i.p.em
    | some g =>
      let m := g.members.length
      let total := if kind = 3 then m * n else n
      i.need (bitsOf root 10 22 == 0 && decide (root < m) && decide (4 ≤ n) && decide (n ≤ 1048576) && n % 4 == 0 &&
        decide (total ≤ 1048576) && src % 4 == 0 && dst % 4 == 0) (dnr 2 4) i.p.em
      let reads := kind != 4 || root == g.self
      let a ← if reads then i.region .g needLoad src n else .ok ⟨[], []⟩
      let b ← i.region .g needStore dst total
      i.need ((a.set ||| i.rset).subset g.set && b.takes g.set) (dnr 5 0) i.p.em
      i.command { minor := 5, sel := kind, spaces := [.g], owns := b.locs, moves := b.locs.map fun l => ⟨l, .inr 0⟩,
                  srcs := a.locs, pages := a.pages ++ b.pages, dst := b.locs,
                  kind := fun t order => .wcoll kind handle n root (a.locs.map (t.sendByte i.k.die order)) }

/-- WCOLL.SUMF32 (R283). -/
def execWcollSumF32 (x : BitVec 8) (s : State) : Host.Outcome State Fault Refusal := wcollOp (.wcollSumF32 x) x 0 s
/-- WCOLL.SUMB16 (R283). -/
def execWcollSumB16 (x : BitVec 8) (s : State) : Host.Outcome State Fault Refusal := wcollOp (.wcollSumB16 x) x 1 s
/-- WCOLL.SUMI32 (R283). -/
def execWcollSumI32 (x : BitVec 8) (s : State) : Host.Outcome State Fault Refusal := wcollOp (.wcollSumI32 x) x 2 s
/-- WCOLL.GATHER (R283). -/
def execWcollGather (x : BitVec 8) (s : State) : Host.Outcome State Fault Refusal := wcollOp (.wcollGather x) x 3 s
/-- WCOLL.BCAST (R283). -/
def execWcollBcast (x : BitVec 8) (s : State) : Host.Outcome State Fault Refusal := wcollOp (.wcollBcast x) x 4 s

/-! ## How a command advances -/

/-- A command's fault goes to its skein as soon as it is found (R275). -/
def State.reportCmd (s : State) (k : Skein) (c : Cmd) : State :=
  match c.fault with
  | none => s
  | some code => (s.modCmd k.id c.order fun c => some { c with fault := none }).commandFault k.id
      (k.cmdRecord code 1 c.batch c.minor c.sel)

/-- A destination line is written and owes its count, which is the number of bytes that the command wrote there: the bytes of an
element beyond the extent, which R284 and R275 count differently, are not among them (log 20). A source unit that an earlier
command was to write and that has failed prevents the line (R275, R278, R284). -/
def State.writeLine (s : State) (k : Skein) (c : Cmd) (ln : DstLine) : State :=
  let drop (c : Cmd) : Cmd := { c with lines := c.lines.erase ln }
  match s.failedLater (ln.bytes.map (·.2)) with
  | some l => s.cmdError k c l drop
  | none => (s.writeBytes k.die ln.bytes).modCmd k.id c.order fun c =>
      some { drop c with owes := if ln.bytes.isEmpty || c.barrier.isNone then c.owes else c.owes ++ [ln.bytes.length] }

/-- One step of a local command: its fault, a count that it owes, its first line that can be written, or its completion (R274,
R278, R284). -/
def State.stepCmd (s : State) (k : Skein) (c : Cmd) : State :=
  if c.fault.isSome then s.reportCmd k c
  else match c.owes, s.decrementFree k c with
    | n :: _, true => s.payCount k c n
    | owes, _ => match c.lines.find? (s.lineReady c) with
      | some ln => s.writeLine k c ln
      | none => if c.lines.isEmpty && owes.isEmpty then s.modCmd k.id c.order fun _ => none else s

/-- The bytes of a send's next destination line, of 64 bytes at most (R278). -/
def sendLine (dst : Nat) (src : List (Option SrcByte)) : List (Option SrcByte) := src.take (64 - dst % 64)

/-- A command of a skein can take a step of the Wringer now. -/
def State.canStep (s : State) (k : Skein) (c : Cmd) : Bool :=
  c.fault.isSome || match c.kind with
    | .local => (c.lines.isEmpty && c.owes.isEmpty) || (!c.owes.isEmpty && s.decrementFree k c) || c.lines.any (s.lineReady c)
    | .wsend _ dst src _ => s.srcReady c.order ((sendLine dst src).filterMap id)
    | .wcoll _ _ _ _ _ => false

/-- The skein whose step comes next at a core's Wringer: in ascending slots from the one after the last (R278). -/
def State.nextWringer (s : State) (core : Nat) : Option Nat :=
  let ks := (s.skeins.filter fun k => k.coreId == core && k.cmds.any (s.canStep k)).map (·.id)
  let least (l : List Nat) : Option Nat := l.foldl (fun a x => some (a.elim x (min x))) none
  match (s.core core).wringer with
  | none => least ks
  | some last => (least (ks.filter (last < ·))).orElse fun _ => least ks

/-- WRINGER_LINE_WRITE: a step of the skein whose turn it is (R278, R303). -/
def execWringerLineWrite (sid cmd : Nat) (s : State) : Host.Outcome State Fault Refusal :=
  .next (match s.skein? sid with
    | none => s
    | some k => match k.cmds.find? (·.order == cmd) with
      | none => s
      | some c => match c.kind with
        | .local =>
          if s.nextWringer k.coreId == some sid && s.canStep k c then
            (s.modCore k.coreId fun x => { x with wringer := some sid }).stepCmd k c
          else s
        | .wsend _ _ _ _ | .wcoll _ _ _ _ _ => s)

/-- A command ends with a fault, its remaining lines unwritten (R275). -/
def State.failCmd (s : State) (k : Skein) (c : Cmd) (code : BitVec 16) : State :=
  (s.modCmd k.id c.order fun _ => none).commandFault k.id (k.cmdRecord code 1 c.batch c.minor c.sel)

/-- The pages of a send into a context of this module that a held region has not mapped yet are mapped: when that happens is a
matter of time only (R281, R442). -/
def State.sendMap (s : State) (ctx dst n : Nat) : State :=
  (pieces (n / 65536 + 2) dst n).foldl (fun t q => match (t.ctx? ctx).map fun c => t.translate c q.1 with
    | some .unmapped => t.mapPiece ctx q.1
    | some (.leaf _) | some .malformed | none => t) s

/-- The destination bytes of a send into a context of this module, none where the page cannot take them (R281). -/
def State.sendDst (s : State) (ctx dst n : Nat) (set : OSet) : List (Option Loc) :=
  (pieces (n / 65536 + 2) dst n).flatMap fun q => match (s.ctx? ctx).map fun c => s.translate c q.1 with
    | some (.leaf l) => if l.wr && set.subset l.set then ((locG l.pa).span q.2).map some else List.replicate q.2 none
    | some .unmapped | some .malformed | none => List.replicate q.2 none

/-- Some byte that a send would write is owned or pinned by a command of this module (R242). -/
def State.sendHeld (s : State) (ls : List (Option Loc)) : Bool := ls.any fun l => l.elim false fun l => s.owned l || s.pinned l

/-- The bytes of a send that its pages take are written; the others are lost to the fault (R275, R281). -/
def State.sendWrite (s : State) (die : Nat) (ls : List (Option Loc)) (bs : List (Option SrcByte)) : State :=
  s.writeBytes die ((ls.zip bs).filterMap fun x => x.1.bind fun l => x.2.map fun b => (l, b))

/-- The partition's traffic can reach a module of its list: the module's route has not failed, and the partition has a hem port and
a switch route of its own (R397). -/
def Partition.reaches (p : Partition) (module : Nat) : Bool :=
  !p.lost.contains module && !p.hemPorts.isEmpty && !p.routes.isEmpty

/-- The send of another module is performed in this module's memory once no command holds its destination, and is answered
(R242, R281). -/
def State.performInbound (s : State) : List (Nat × Nat × List (Option Byte) × OSet) → State
  | [] => { s with inbound := [] }
  | (ctx, dst, bs, set) :: t =>
    let m := s.sendMap ctx dst bs.length
    let ls := m.sendDst ctx dst bs.length set
    if m.sendHeld ls then { m with inbound := (ctx, dst, bs, set) :: t }
    else
      let u := m.sendWrite 0 ls (bs.map fun b => b.map .val)
      (u.leaveHem ((s.ctx? ctx).elim 0 (·.part)) (.answer ctx !(ls.contains none))).performInbound t

/-- The next line of a send has been dealt with; the last one completes the command, with the fault if it met one (R275, R278). -/
def State.sendNext (s : State) (k : Skein) (c : Cmd) (fault : Option (BitVec 16)) : State :=
  s.modCmd k.id c.order fun c =>
    let c := fault.elim c c.meets
    match c.kind with
    | .wsend m dst src set =>
      let n := (sendLine dst src).length
      let kind : CmdKind := if src.length ≤ n then .local else .wsend m (dst + n) (src.drop n) set
      some { c with kind := kind }
    | .local | .wcoll _ _ _ _ _ => some c

/-- The next line of a send, of which the far side says whether it takes it. A source byte lost to an error, or one that an earlier
command was to write and that has failed, prevents the line, and so does a route that is lost (R275, R281, R349, R397). -/
def State.sendStep (s : State) (k : Skein) (c : Cmd) (m dst : Nat) (src : List (Option SrcByte)) (set : OSet) (ok : Bool) : State :=
  let line := sendLine dst src
  let part := s.part (s.ctxOf k).part
  match s.failedLater (line.filterMap id) with
  | some l => (s.countError k.coreId l.addr (s.failLevel l)).sendNext k c (some (s.errorCode l))
  | none =>
    if line.contains none then s.sendNext k c none
    else if m != part.selfIndex then
      if !part.reaches m then s.sendNext k c (some (dnr 3 3))
      else (s.leaveHem (s.ctxOf k).part (.send m k.ctx dst (line.map fun b => b.map s.resolveSrc) set)).sendNext k c
        (if ok then none else some (dnr 3 3))
    else
      let t := s.sendMap k.ctx dst line.length
      let ls := t.sendDst k.ctx dst line.length set
      if (t.modCmd k.id c.order fun _ => none).sendHeld ls then s
      else if ls.contains none then t.sendNext k c (some (dnr 3 3))
      else (t.sendWrite k.die ls line).sendNext k c none

/-- A collective group can be used once every member has made its call (R358). -/
def State.joinGroup (s : State) (ctx handle : Nat) : State :=
  { s with groups := s.groups.map fun g => if g.ctx == ctx && g.handle == handle then { g with ready := true } else g }

/-- WSEND_REMOTE_WRITE: the remote module performs the next line of the send whose turn it is at the Wringer, or reports a fault;
a send to this module is performed in its own memory (R278, R281, R397). A send of another module joins those that wait for this
one's memory, and the news that the other members of a group have made their call comes the same way (R358, R396).
`id` and `num` are the skein and the command of a send of this module, or the context and the address or the group's handle. -/
def execWsendRemoteWrite (id num : Nat) (op : SendOp) (s : State) : Host.Outcome State Fault Refusal :=
  .next (match op with
    | .into data set => if s.alive then s.performInbound (s.inbound ++ [(id, num, data, set)]) else s
    | .joined => s.joinGroup id num
    | .out ok => match s.skein? id with
      | none => s
      | some k => match k.cmds.find? (·.order == num) with
        | none => s
        | some c => match c.kind with
          | .local | .wcoll _ _ _ _ _ => s
          | .wsend m dst src set =>
            if s.nextWringer k.coreId == some id && s.canStep k c then
              let t := s.modCore k.coreId fun x => { x with wringer := some id }
              if c.fault.isSome then t.reportCmd k c else t.sendStep k c m dst src set ok
            else s)

/-- Elements of n bytes. -/
def elements (n : Nat) (bs : List Byte) : List Nat :=
  (List.range (bs.length / n)).map fun j => ofBytesLE ((bs.drop (n * j)).take n)

/-- Element-wise sums in member order, each addition rounded (R283). -/
def sumF32 (xs : List (List Nat)) : List Nat :=
  match xs with
  | [] => []
  | x :: t => t.foldl (fun a b => (a.zip b).map fun q =>
      fmtF32.round .rne ((fmtF32.value q.1).add (fmtF32.value q.2))) x

/-- The bytes that every member receives (R283). -/
def collect (kind root : Nat) (data : List (List Byte)) : List Byte :=
  match kind with
  | 0 => (sumF32 (data.map (elements 4))).flatMap (bytesLE 4)
  | 1 => (sumF32 (data.map fun d => (elements 2 d).map (· * 65536))).flatMap fun v =>
      bytesLE 2 (fmtB16.round .rne (fmtF32.value v))
  | 2 => match data.map (elements 4) with
    | [] => []
    | x :: t => (t.foldl (fun a b => (a.zip b).map fun q => q.1 + q.2) x).flatMap (bytesLE 4)
  | 3 => data.flatten
  | _ => data.getD root []

/-- The lines of a collective given the bytes of its destination by their offsets: a location that two offsets name takes the byte of the
later one (R279), and a line with a byte lost to an uncorrectable source error is prevented (R275, R283). -/
def fillLines (dst : List Loc) (vals : List Byte) (lost : List Nat) (lines : List DstLine) : List DstLine :=
  let ms := (dst.zip vals).reverse
  let gone := lost.filterMap fun i => (dst[i]?).map Loc.line
  lines.map fun ln =>
    if ln.bytes.any fun x => gone.contains x.1.line then { ln with bytes := [] }
    else { ln with bytes := ln.bytes.map fun x => (x.1, .val ((ms.find? (·.1 == x.1)).elim 0 (·.2))) }

/-- A WCOLL of a group comes before another (R304). -/
def State.earlierColl (s : State) (handle order : Nat) : Bool :=
  s.skeins.any fun j => j.cmds.any fun d => decide (d.order < order) && match d.kind with
    | .wcoll _ h _ _ _ => h == handle
    | .local | .wsend _ _ _ _ => false

/-- A source byte that an uncorrectable error took, at the issue moment or since (R275). -/
def State.tookByte (s : State) (b : Option SrcByte) : Bool := b.elim true s.laterFails

/-- The bytes that this module brings to a collective. Of one lost to an uncorrectable error R275 and R283 give no value: the members,
which the fault does not reach, compute with a free one (log 20). -/
def State.bring (s : State) (src : List (Option SrcByte)) : List Byte :=
  src.mapIdx fun i b => if s.tookByte b then BitVec.ofNat 8 (Config.freeWord (s.free + i)).toNat else b.elim 0 s.resolveSrc

/-- A matched collective gets the values of its lines and goes on as a local command (R283, R304). -/
def State.joinColl (s : State) (k : Skein) (c : Cmd) (g : Group) (kind n root : Nat) (src : List (Option SrcByte)) (mine : List Byte)
    (remote : List Contribution) : State :=
  let lost := (src.zipIdx.filter fun x => s.tookByte x.1).map fun x => if kind = 3 then g.self * n + x.2 else x.2
  let data := (List.range g.members.length).map fun m =>
    if m = g.self then mine else (remote.find? (·.member == m)).elim [] (·.data)
  let t := s.modCmd k.id c.order fun c => some { c with
    kind := .local, lines := fillLines c.dst (collect kind root data) lost c.lines }
  match s.failedLater (src.filterMap id) with
  | none => t
  | some l => t.cmdError k c l id

/-- What this module brings to a collective leaves to the other members (R283, R304, R396). -/
def State.contribute (s : State) (k : Skein) (handle kind n root : Nat) (mine : List Byte) : State :=
  { s with free := s.free + mine.length }.leaveHem (s.ctxOf k).part (.contribution handle kind n root mine)

/-- A collective ends for a failed route, and the other members are told (R397). -/
def State.routeAbort (s : State) (k : Skein) (c : Cmd) (handle : Nat) : State :=
  (s.leaveHem (s.ctxOf k).part (.aborted handle 0x0F03)).failCmd k c 0x0F03

/-- WCOLL_MATCH: the contributions of the other members arrive; the first unmatched WCOLL of the group joins them, or the
collective ends in COLLECTIVE-ABORT: a member's function was reset, a route of a member has failed, or members differ (R283,
R304, R397, R399). -/
def execWcollMatch (sid cmd : Nat) (remote : List Contribution) (s : State) : Host.Outcome State Fault Refusal :=
  .next (match s.skein? sid with
    | none => s
    | some k => match k.cmds.find? (·.order == cmd) with
      | none => s
      | some c => match c.kind with
        | .local | .wsend _ _ _ _ => s
        | .wcoll kind handle n root src => match s.groups.find? (·.handle == handle) with
          | none => s
          | some g =>
            let others := (List.range g.members.length).filter (· != g.self)
            let found := others.filterMap fun m => remote.find? (·.member == m)
            if c.fault.isSome then s.reportCmd k c
            else if s.earlierColl handle c.order then s
            else if found.any (·.reset) then s.failCmd k c 0x0F01
            else if found.any (·.lost) then s.failCmd k c 0x0F03
            else if others.any fun m => !(s.part (s.ctxOf k).part).reaches (g.members.getD m 0) then s.routeAbort k c handle
            else if found.length < others.length ∨ s.srcReady c.order (src.filterMap id) = false then s
            else
              let t := s.contribute k handle kind n root (s.bring src)
              if found.any fun r => r.kind != kind || r.len != n || r.root != root then t.failCmd k c (dnr 15 2)
              else t.joinColl k c g kind n root src (s.bring src) remote)

end Sys2Proof.Machine
end

