-- ==== Sys2Proof/Machine/Agenda.lean ====
section
/-! DEFINITION. The end of a cycle and the moves of other agents that then come due (R136, R138, R147, R225, R248, R336, R339,
R342, R355, R362, R372, R393, R394, log 2). -/

namespace Sys2Proof.Machine

/-- A move that may come now: whether it must, and the move itself, with a free word for what only the outside knows. -/
abbrev Offer := Bool × (Nat → Instr)

/-- A move with nothing left open. -/
def offer (must : Bool) (i : Instr) : Offer := (must, fun _ => i)

/-- The call of a lane, by its number; a receive waits for its bytes from the outside (R357). -/
def callMove (sid uid lane num : Nat) : Option (Nat → Instr) :=
  match num with
  | 0x00 => some fun _ => .timeCall sid uid lane
  | 0x01 => some fun _ => .memAlloc sid uid lane
  | 0x02 => some fun _ => .memUnmap sid uid lane
  | 0x03 => some fun _ => .tagWiden sid uid lane
  | 0x10 => some fun x => .fileOpen sid uid lane x
  | 0x11 => some fun x => .fileRead sid uid lane x
  | 0x12 => some fun x => .fileWrite sid uid lane x
  | 0x13 => some fun _ => .fileClose sid uid lane
  | 0x18 => some fun x => .sockCreate sid uid lane x
  | 0x19 => some fun x => .sockSend sid uid lane x
  | 0x1A => none
  | 0x1B => some fun _ => .sockClose sid uid lane
  | 0x20 => some fun x => .egress sid uid lane x
  | 0x28 => some fun _ => .basketCreate sid uid lane
  | 0x29 => some fun _ => .basketDestroy sid uid lane
  | 0x2A => some fun _ => .stageRegister sid uid lane
  | 0x2B => some fun _ => .stageRemove sid uid lane
  | 0x30 => some fun _ => .spawnConfig sid uid lane
  | 0x31 => some fun _ => .collGroup sid uid lane
  | 0x38 => some fun _ => .uintRegister sid uid lane
  | 0x39 => some fun _ => .uintUnregister sid uid lane
  | _ => some fun _ => .unlistedCall sid uid lane

/-- The request at the head of queue 0, by its type (R392). -/
def requestMove (vf : Nat) (c : Chain) : Instr :=
  match chainType c with
  | some 1 => .submit vf
  | some 2 => .mapReq vf
  | some 3 => .unmapReq vf
  | some 4 => .uireg vf
  | some 5 => .uiunreg vf
  | _ => .invalidRequest vf

/-- Moves of a split (R157, R177, R225, R316, R355, R356, R377, R394); `busy` bounds those on the clock of the cores. -/
def State.offersOf (s : State) (often busy : Bool) (k : Skein) (p : Split) : List Offer :=
  let ahead : List Offer := if k.stop.isSome then [] else
    (s.aheadLines k p).map fun n => offer false (.fetchAhead k.id p.uid (n * 64))
  match p.st with
  | .ready => if p.yielded.isSome then offer true (.yieldRelease k.id p.uid) :: ahead else ahead
  | .stalled (.pcie _ _) =>
    if s.requestLate k p.uid then [offer true (.pcieCompletionTimeout k.id p.uid)]
    else if k.preqs.any fun r => r.uid == p.uid && r.waits then
      [offer false (.pcieCompletion k.id p.uid 0), (false, fun x => .pcieCompletion k.id p.uid (x % 2 ^ 32))]
    else []
  | .stalled _ | .joinWait _ | .parked (.translation _ _) => []
  | .held (.sbwait _ _ _) => [offer busy (.sbwaitPoll k.id p.uid)]
  | .held (.bitwait _ bits) => [offer (busy || s.bitLeaves k bits) (.bitwaitPoll k.id p.uid)]
  | .held (.waitb _ _ _) => [offer busy (.waitbReturn k.id p.uid)]
  | .held (.bar _) | .held (.barwait _ _) | .held (.qpop _ _ _ _ _ _ _) => []
  | .parked (.syscall calls _ _ _) =>
    let done := maskOf fun l => calls.any fun c => c.lane == l && c.result.isSome
    (calls.filter (·.result.isNone)).filterMap (fun c => (callMove k.id p.uid c.lane c.num).map fun f => (often, f)) ++
      (if done == 0 then [] else
        [offer often (.resumeMask k.id p.uid done), (false, fun x => .resumeMask k.id p.uid (done &&& BitVec.ofNat 32 x))])

/-- What the other members of a group bring to a collective, which only they know: as a rule what matches, at times a reset, a failed
route or a different command (R283, R304, R397, R399, log 2). -/
def contributions (g : Group) (kind n root x : Nat) : List Contribution :=
  ((List.range g.members.length).filter (· != g.self)).map fun m =>
    { member := m, kind := if x % 4 = 1 then kind + 1 else kind, len := n, root := root, reset := x % 4 == 2, lost := x % 8 == 3,
      data := (List.range n).map fun i => (Config.freeWord (x + m * n + i)).setWidth 8 }

/-- Moves of a skein (R32, R136, R193, R247, R248, R278, R281, R283, R292). The 64 cycles of R136, and the 1,024 of a poll, are cycles of the
core's clock, which a gated cycle is not (R432, log 2). -/
def State.offersIn (s : State) (often busy : Bool) (k : Skein) : List Offer :=
  (if k.pend.isEmpty then [] else [offer busy (.longLatencyWriteLands k.id)]) ++
  (if k.deadlocked then [offer (s.issueTicks % 64 == 0) (.joinDeadlock k.id)] else []) ++
  ((List.range k.stores.length).reverse.map fun n => offer often (.storePerformed k.id n)) ++
  ((k.streams.filter Stream.open).map fun x => offer busy (.streamFetch k.coreId x.slot)) ++
  (k.cmds.map fun c => match c.kind with
    | .local => offer busy (.wringerLineWrite k.id c.order)
    | .wsend _ _ _ _ => (busy, fun x => .wsendRemoteWrite k.id c.order (.out (x % 2 == 0)))
    | .wcoll kind h n root _ => (busy, fun x => .wcollMatch k.id c.order
        ((s.groups.find? (·.handle == h)).elim [] fun g => contributions g kind n root x))) ++
  (match k.mq with
    | [] => []
    | c :: _ => if c.started.isSome then
        [offer (busy || (match c.kind with
          | .mwload _ _ _ _ _ _ => false
          | .mma _ _ _ _ | .mdrain _ _ _ _ _ _ _ | .mzero _ => true)) (.mangleCommandComplete k.id)] else []) ++
  (if k.stop.elim false (·.go) then [offer often (.skeinResume k.id)] else []) ++
  k.splits.flatMap (s.offersOf often busy k)

/-- Moves about a cluster (R201, R291, R335, R339, R343). -/
def State.offersAt (s : State) (often : Bool) (cl : Nat) : List Offer :=
  let c := s.cluster cl
  [offer true (.mangleCommandStart cl), offer true (.blockPlacement cl)] ++
  (if often && c.stages.any (·.valid) then [offer true (.sorterSample cl)] else []) ++
  (c.fbuf.map fun e => offer often (.translationParkResolve cl e.id)) ++
  (c.records.map fun _ => offer often (.finwesinStopAction cl))

/-- Moves about a context (R199, R350, R362 to R372). In a cycle in which the context becomes SAVED and its elapsed time reaches four quanta
the save is offered first, and wins: the model's choice (log 35). -/
def State.offersFor (s : State) (often : Bool) (c : Context) : List Offer :=
  (c.stale.map fun x => offer often (.translationInvalidate c.id (x.1 * 2 ^ 16))) ++
  ((c.ending.getD []).map fun cl => offer often (.clusterConfirm c.id cl)) ++
  (if c.onCl.any (s.sliceOver c) then [offer true (.timeSliceEnd c.id)] else []) ++
  c.onCl.flatMap fun x => match x.phase with
    | .stopping | .draining =>
      [offer true (.engineDrain c.id x.cl), offer true (.watchdog c.id x.cl)] ++
        (if x.late then [] else [offer true (.graceDeadline c.id x.cl)])
    | .saved | .restoring => [offer often (.contextResume c.id x.cl)]
    | .running | .ended => []

/-- Moves about a grid and its blocks (R146, R336, R371). -/
def State.offersBy (s : State) (often : Bool) (g : Grid) : List Offer :=
  (g.held.map fun b => offer (often || s.depDue g b) (.dependencyPoll g.id b)) ++
  ((s.blocks.filter (·.grid == g.id)).flatMap fun b =>
    (if s.mayRetire b then [offer true (.blockRetire g.id b.num)] else []) ++
    (if s.mayDrop b g then [offer (often && b.dropping) (.blockDrop g.id b.num)] else [])) ++
  (if s.allRetired g then [offer true (.blockRetire g.id g.g)] else [])

/-- The window is due: its refresh begins every 1,000 µs, and ends once its generation is odd (R433, R437). -/
def State.windowDue (s : State) : Bool := s.ticks % 1750000 == 0 || s.gen.getLsbD 0

/-- Every move that the state itself makes possible at the end of a cycle. What must come within finite time, or at least
every 1,024 cycles, comes at every 1,024th cycle at the latest, of the clock that drives it. The model's choices: each cluster's dispatcher
takes a block in every cycle, and the clusters are served in the order of the contexts' lists of clusters, so that of several clusters that
could take a block in one cycle the first takes it (R333, log 2); and of a context's moves a save that has just become complete comes before
the watchdog (R372, log 35). -/
def State.offers (s : State) : List Offer :=
  let often := s.ticks % 1024 == 0
  let busy := s.issueTicks % 1024 == 0
  let cls := (s.ctxs.flatMap (·.clusters) ++ s.skeins.map Skein.cluster).eraseDups
  s.skeins.flatMap (s.offersIn often busy) ++
  (s.skeins.map Skein.coreId).eraseDups.flatMap (fun c => (s.core c).fills.map fun f => offer busy (.instructionFetchFill c f.line)) ++
  s.grids.flatMap (s.offersBy often) ++
  s.ctxs.flatMap (s.offersFor often) ++
  cls.flatMap (s.offersAt often) ++
  s.vfs.flatMap (fun v => v.chains.map fun c => offer often (requestMove v.id c.2)) ++
  (s.nvme.filter (!·.resetting)).map (fun c => offer often (.nvmeCompletion c.id)) ++
  ((s.groups.filter (!·.ready)).map fun g => offer often (.wsendRemoteWrite g.ctx g.handle .joined)) ++
  (if s.windowDue then [offer true .inventoryRefresh] else [])

/-- A move on the clock of the cores, with their Wringers and fetch paths, or of the Mangle, which a gated cycle does not give. Memory,
links, menders and the dispatcher go on (R432, log 2). -/
def gatedMove (i : Instr) : Bool :=
  match i with
  | .mangleCommandStart _ | .mangleCommandComplete _ | .wringerLineWrite _ _ | .wsendRemoteWrite _ _ (.out _) | .wcollMatch _ _ _
  | .streamFetch _ _ | .sbwaitPoll _ _ | .bitwaitPoll _ _ | .waitbReturn _ _ | .longLatencyWriteLands _ | .fetchAhead _ _ _
  | .instructionFetchFill _ _ | .yieldRelease _ _ | .joinDeadlock _ => true
  | _ => false

/-- A move of the management controller, the test port or a function's registers, which act also once the module has stopped every clock of
its other parts (R375, R399, R432, R437, log 37). -/
def stoppedMove (i : Instr) : Bool :=
  match i with
  | .inventoryRefresh | .discardedWrite _ _ | .moduleReset _ | .drain _ _ _ | .resume _ _ _ | .releaseHold _ _ | .attach _ _ | .detach _ _
  | .policy _ _ _ _ | .attest _ _ _ _ | .cap _ _ | .dbgEvent _ | .dbgRead _ _ | .dbgWrite _ _ _ | .dbgResume _ _ | .invalidCommand _ _ _
  | .freezeAssert | .freezeRelease _ | .scansel _ | .scanout | .idcode | .bypass | .powerCapExceeded _ | .thermalThrottle _ _
  | .thermalShutdown _ _ | .backInsideLimits | .functionLevelReset _ | .virtioStatusReset _ | .commonConfigurationWrite _ _ _ => true
  | .memoryWindowRead _ pos _ => pos.bar != 2
  | _ => false

/-- A move on the agenda acts; once every clock has stopped only those of the controller and the registers do (R432). -/
def State.mayMove (s : State) (i : Instr) : Bool := !s.stopped || stoppedMove i

/-- The moves that come: those that must, and those that a free choice picks (log 2); in a gated cycle none of a core's or the
Mangle's clock (R432). -/
def State.due (s : State) (gated : Bool) : List Instr :=
  ((s.offers.zipIdx.filter fun o => o.1.1 || Config.freeBit (s.free + o.2)).map fun o =>
    o.1.2 (Config.freeWord (s.free + o.2)).toNat).filter fun i => !(gated && gatedMove i)

/-- A bin's timer stands while its context does not run on the cluster (R363). -/
def State.pausedBin (s : State) (cl : Nat) (b : Bin) : Bin :=
  let runs : Bool := ((s.grid? b.grid).bind fun g => s.ctx? g.ctx).elim true fun c => c.phase cl == .running
  if runs then b else { b with started := b.started + 1 }

/-- A core's L1 at the end of a cycle: it may give up lines by itself (R214, log 40), and at every 1,024th cycle it gives up what is no
longer the line at its home, so that a loop of loads sees a write within finite time (R248). -/
def State.trim (s : State) (n : Nat) (c : Core) : Core :=
  let stale (x : CLine) : Bool := s.ticks % 1024 == 0 && x.bytes != s.homeLine (n / 64) x.line
  { c with
    l1 := c.l1.filter fun x => !(Config.freeEvict s.free (n + 2) x.line || stale x) }

/-- The caches at the end of a cycle; a die's L2 may write back and give up PCIe lines by itself (R214, log 40). -/
def State.evict (s : State) : State :=
  let out := s.dieSt.zipIdx.flatMap fun d => (d.1.pcie.filter fun x => Config.freeEvict s.free (4608 + d.2) x.line).map fun x => (d.2, x.line)
  let t := out.foldl (fun t x => t.pdrop x.1 x.2) s
  { t with cores := t.cores.mapIdx t.trim, free := t.free + 1 }

/-- Storage commands that are late are aborted, and controllers end their resets, at each 1,024th cycle at the latest (R402). -/
def State.settleNvme (s : State) : State :=
  s.nvme.foldl (fun t c =>
    let b := t.takeBit
    if c.resetting then if s.ticks % 1024 == 0 || b.1 then b.2.endReset (s.ctrlOf c) else b.2
    else if c.late s.linkTime then b.2.abortLate c.id b.1
    else t) s

/-- The bins of a cluster whose timers have run out, from the last (R147). -/
def State.settleBins (s : State) (cl : Nat) : State :=
  (List.range (s.cluster cl).bins.length).reverse.foldl (fun t n => t.binTimer cl n) s

/-- What holds only until it can be settled: timers of bins, retiring slots, claims of exited skeins, posted writes, sends of other modules,
held accesses of outside agents, cut drains (R147, R242, R245, R248, R285, R296, R340). -/
def State.settle (s : State) : State :=
  let slots := s.clusters.zipIdx.flatMap fun c =>
    (c.1.baskets.zipIdx.filter fun b => b.1.st == .retiring).map fun b => (c.2, b.2)
  let t := slots.foldl (fun t x => t.settleBasket x.1 x.2) s
  let t := (t.skeins.filter (·.splits.isEmpty)).foldl State.returnClaims t
  let t := if t.posted.isEmpty then t else t.performPosted t.posted
  let t := ((List.range 192).filter fun cl => !(s.cluster cl).bins.isEmpty).foldl State.settleBins t
  let t := t.settleNvme
  let t := if t.inbound.isEmpty then t else t.performInbound t.inbound
  let t := t.settleOutside
  (List.range 16).foldl State.cutGrids t

/-- A cycle ends, a gated one or an issue cycle: counters advance (R342, R432), the ports begin again, and what is due goes on the
agenda. -/
def State.tick (s : State) (gated : Bool) : State :=
  let t := s.settle.evict
  let u : State := { t with
    ticks := t.ticks + 1, issueTicks := (if gated then t.issueTicks else t.issueTicks + 1), turn := 0, issuing := none,
    clusters := t.clusters.mapIdx fun n c => { c with counter := (c.counter + 1) % 2 ^ 64, bins := c.bins.map (s.pausedBin n) } }
  { u with agenda := u.due gated, free := u.free + u.offers.length }

end Sys2Proof.Machine
end

