-- ==== Sys2Proof/Machine/Atomic.lean ====
section
/-! DEFINITION. Atomics (R208 to R211, R233, R240, R241). -/

namespace Sys2Proof.Machine

/-- The operations (R208). -/
inductive AtomOp where
  | add | min | max | minu | maxu | and | or | xor | xchg | cas
  deriving DecidableEq, Repr, Inhabited

/-- The new memory value from the old value m, the data value and the swap value (R208). -/
def AtomOp.new (op : AtomOp) (w m x t : Nat) : Nat :=
  match op with
  | .add => (m + x) % 2 ^ w
  | .min => if signed w x < signed w m then x else m
  | .max => if signed w m < signed w x then x else m
  | .minu => if x < m then x else m
  | .maxu => if m < x then x else m
  | .and => m &&& x
  | .or => m ||| x
  | .xor => m ^^^ x
  | .xchg => x
  | .cas => if m = x then t else m

/-- PCIe AtomicOps exist for the operation (R211). -/
def AtomOp.onPcie : AtomOp → Bool
  | .add | .xchg | .cas => true
  | .min | .max | .minu | .maxu | .and | .or | .xor => false

/-- The fields of an atomic word that its ops share (R65). -/
structure AtomF where
  ss : BitVec 3
  g : BitVec 5
  wc : BitVec 2
  f : BitVec 1
  n : BitVec 5
  o : BitVec 2
  la : BitVec 4
  deriving DecidableEq, Repr, Inhabited

/-- Space, scope (0 SK to 4 SY) and bits of an atomic (R65). -/
def AtomF.space (a : AtomF) : Space := if a.ss = 5 then .s else if a.ss = 6 then .c else .g
def AtomF.scope (a : AtomF) : Nat := if a.ss = 5 then 1 else if a.ss = 6 then 2 else a.ss.toNat
def AtomF.bits (a : AtomF) : Nat := 32 * 2 ^ a.wc.toNat
/-- The declared uses (R209). -/
def AtomF.comm (a : AtomF) : Bool := a.f == 1#1 && a.o == 0#2
def AtomF.unp (a : AtomF) : Bool := a.f == 1#1 && a.o == 1#2
def AtomF.acquires (a : AtomF) : Bool := a.f == 0#1 && a.o.getLsbD 0
def AtomF.releases (a : AtomF) : Bool := a.f == 0#1 && a.o.getLsbD 1

/-- Lanes in an order the device chooses (R210). -/
def shuffle : Nat → Nat → List α → List α
  | 0, _, l => l
  | f + 1, free, l =>
    let n := (Config.freeWord free).toNat % l.length
    match l[n]? with
    | none => []
    | some x => x :: shuffle f (free + 1) (l.eraseIdx n)

/-- Bytes written at a location as the atomic's own effect: memory and the core's own copy (R179, R209, R211). -/
def State.atomWrite (s : State) (core : Nat) (l : Loc) (type : Nat) (bytes : List Byte) : State :=
  match l.sp with
  | .g =>
    if type = 2 then s.pokes l bytes
    else s.storeBytes core l.addr bytes
  | .s | .c => s.pokes l bytes

/-- The number held at a location. -/
def State.num (s : State) (l : Loc) (n : Nat) : Nat := ofBytesLE ((l.span n).map s.peek)

/-- The lanes' operations one at a time: the state, and the old value each lane found (R210). -/
def State.atomics (s : State) (core n : Nat) (new : Nat → Nat → Nat) :
    List LaneAcc → State × List (Nat × Nat)
  | [] => (s, [])
  | a :: t =>
    match a.parts with
    | [] => s.atomics core n new t
    | p :: _ =>
      let m := s.num p.loc n
      let r := (s.atomWrite core p.loc p.type (bytesLE n (new a.lane m))).atomics core n new t
      (r.1, (a.lane, m) :: r.2)

/-- An access that names PCIe memory. -/
def LaneAcc.onPcie (a : LaneAcc) : Bool := a.parts.any (·.type == 2)

/-- The copies of the PCIe lines in the core's L1 and the die's L2 are written back if dirty and dropped (R211). -/
def Iss.dropCopies (i : Iss) (as : List LaneAcc) : State :=
  (as.flatMap LaneAcc.pcieLines).foldl
    (fun t n => (t.pdrop i.k.die n).modCore i.k.coreId fun c => { c with l1 := l1Drop c.l1 n }) i.s

/-- The AtomicOps to memory of type PCIe: they are sent once no copy of a line is left, and their completions name the lanes
that the root complex refused (R211, log 13). -/
def Iss.atomPcie (i : Iss) (as : List LaneAcc) : Res Iss :=
  let on := as.filter LaneAcc.onPcie
  if on.isEmpty then .ok i
  else do
    i.timely (maskOfLanes (on.map (·.lane)))
    match i.completion with
    | none => .error (.send (maskOfLanes (on.map (·.lane))) (i.dropCopies on))
    | some st =>
      let j := i.consume
      let no := on.filter fun a => st.testBit a.lane
      if no.isEmpty then .ok j
      else j.trapAt (dnr 4 5) (maskOfLanes (no.map (·.lane))) (no.map fun x => (x.lane, x.addr))

/-- The memory type a use or an operation does not allow (R211). -/
def Iss.atomType (i : Iss) (op : AtomOp) (a : AtomF) (as : List LaneAcc) : Res Unit :=
  let on := as.filter LaneAcc.onPcie
  if on.isEmpty || (op.onPcie && a.f == 0#1) then .ok ()
  else i.trapAt (dnr 4 4) (maskOfLanes (on.map (·.lane))) (on.map fun x => (x.lane, x.addr))

/-- An atomic (R210). -/
def atomic (x : Instr) (op : AtomOp) (a : AtomF) (s : State) : Host.Outcome State Fault Refusal :=
  issue x s fun i => do
    let n := a.bits / 4
    let g := 8 * a.g.toNat
    let i ← i.operands ([opdPair (8 * a.n.toNat) i.p.em, opdIn g n i.p.em] ++
      (if op == .cas then [⟨g + n, n, 1, i.p.em, true, false⟩] else []) ++ (if a.comm then [] else [opdOut g n]))
    if i.p.em == 0 then .ok i.s
    else do
      i.aligned (a.bits / 8) (i.ea a.n)
      let rs := i.active.map fun l => (l, i.ea a.n l, a.bits / 8)
      let as ← i.map a.space 3 needAtomic rs
      i.atomType op a as
      i.origin i.rset as
      i.hold true as
      i.sound as
      let i ← if a.releases then i.release (decide (1 ≤ a.scope)) else .ok i
      let i ← i.flush (as.flatMap LaneAcc.locs)
      let i ← i.atomPcie as
      let r := i.s.atomics i.k.coreId (a.bits / 8) (fun l m => op.new a.bits m (i.raw l g n) (i.raw l (g + n) n))
        (shuffle 32 i.s.free as)
      let k := if a.comm then i.k
        else i.wrLate (i.h.look a.la) g n (fun l => (r.2.find? (·.1 == l)).elim 0 (·.2)) (i.rset ||| accSet as) []
      let t := { r.1 with free := r.1.free + 32 }.setSkein (if a.space == Space.g then k.touch rs else k)
      .ok (if a.acquires then t.acquire i.k.id a.scope else t)

/-- AADD (R208, R210). -/
def execAadd (ss : BitVec 3) (g : BitVec 5) (wc : BitVec 2) (f : BitVec 1) (n : BitVec 5) (o : BitVec 2) (la : BitVec 4)
    (s : State) : Host.Outcome State Fault Refusal := atomic (.aadd ss g wc f n o la) .add ⟨ss, g, wc, f, n, o, la⟩ s

/-- AMIN (R208, R210). -/
def execAmin (ss : BitVec 3) (g : BitVec 5) (wc : BitVec 2) (f : BitVec 1) (n : BitVec 5) (o : BitVec 2) (la : BitVec 4)
    (s : State) : Host.Outcome State Fault Refusal := atomic (.amin ss g wc f n o la) .min ⟨ss, g, wc, f, n, o, la⟩ s

/-- AMAX (R208, R210). -/
def execAmax (ss : BitVec 3) (g : BitVec 5) (wc : BitVec 2) (f : BitVec 1) (n : BitVec 5) (o : BitVec 2) (la : BitVec 4)
    (s : State) : Host.Outcome State Fault Refusal := atomic (.amax ss g wc f n o la) .max ⟨ss, g, wc, f, n, o, la⟩ s

/-- AMINU (R208, R210). -/
def execAminu (ss : BitVec 3) (g : BitVec 5) (wc : BitVec 2) (f : BitVec 1) (n : BitVec 5) (o : BitVec 2) (la : BitVec 4)
    (s : State) : Host.Outcome State Fault Refusal := atomic (.aminu ss g wc f n o la) .minu ⟨ss, g, wc, f, n, o, la⟩ s

/-- AMAXU (R208, R210). -/
def execAmaxu (ss : BitVec 3) (g : BitVec 5) (wc : BitVec 2) (f : BitVec 1) (n : BitVec 5) (o : BitVec 2) (la : BitVec 4)
    (s : State) : Host.Outcome State Fault Refusal := atomic (.amaxu ss g wc f n o la) .maxu ⟨ss, g, wc, f, n, o, la⟩ s

/-- AAND (R208, R210). -/
def execAand (ss : BitVec 3) (g : BitVec 5) (wc : BitVec 2) (f : BitVec 1) (n : BitVec 5) (o : BitVec 2) (la : BitVec 4)
    (s : State) : Host.Outcome State Fault Refusal := atomic (.aand ss g wc f n o la) .and ⟨ss, g, wc, f, n, o, la⟩ s

/-- AOR (R208, R210). -/
def execAor (ss : BitVec 3) (g : BitVec 5) (wc : BitVec 2) (f : BitVec 1) (n : BitVec 5) (o : BitVec 2) (la : BitVec 4)
    (s : State) : Host.Outcome State Fault Refusal := atomic (.aor ss g wc f n o la) .or ⟨ss, g, wc, f, n, o, la⟩ s

/-- AXOR (R208, R210). -/
def execAxor (ss : BitVec 3) (g : BitVec 5) (wc : BitVec 2) (f : BitVec 1) (n : BitVec 5) (o : BitVec 2) (la : BitVec 4)
    (s : State) : Host.Outcome State Fault Refusal := atomic (.axor ss g wc f n o la) .xor ⟨ss, g, wc, f, n, o, la⟩ s

/-- AXCHG (R208, R210). -/
def execAxchg (ss : BitVec 3) (g : BitVec 5) (wc : BitVec 2) (f : BitVec 1) (n : BitVec 5) (o : BitVec 2) (la : BitVec 4)
    (s : State) : Host.Outcome State Fault Refusal := atomic (.axchg ss g wc f n o la) .xchg ⟨ss, g, wc, f, n, o, la⟩ s

/-- ACAS (R208, R210). -/
def execAcas (ss : BitVec 3) (g : BitVec 5) (wc : BitVec 2) (f : BitVec 1) (n : BitVec 5) (o : BitVec 2) (la : BitVec 4)
    (s : State) : Host.Outcome State Fault Refusal := atomic (.acas ss g wc f n o la) .cas ⟨ss, g, wc, f, n, o, la⟩ s

end Sys2Proof.Machine
end

