-- ==== Sys2Proof/Machine/Hint.lean ====
section
/-! DEFINITION. The hint words and words that are no row (R69 to R79, R86). A hint word takes an issue slot of its own (R138)
and waits in its split for the consumer; what is wrong with it is raised with the consumer, after any fetch fault of the
group (R87, log 9). -/

namespace Sys2Proof.Machine

/-- A hint word of a kind joins the group that its split forms (R70). `ok` is false for one that R76 or R86 rejects. -/
def hintWord (s : State) (kind : Nat) (ok : Bool) (put : Hints → Hints) : Host.Outcome State Fault Refusal :=
  match s.current with
  | none => .fault .noIssuer
  | some (k, p) =>
    let h := p.hints
    let bad := if h.bad.isSome then h.bad
      else if h.kinds.contains kind then some (p.pc, 1)
      else if !ok then some (p.pc, 0) else none
    let h1 := { put h with gpc := some (h.gpc.getD p.pc), kinds := h.kinds ++ [kind], bad := bad }
    .next (s.setSkein (k.setSplit { p with pc := p.pc + 4, since := s.issueTicks, yielded := none, hints := h1 }))

/-- XIMM (R74). -/
def execXimm (v : BitVec 23) (s : State) : Host.Outcome State Fault Refusal :=
  hintWord s 0 true fun h => { h with ximm := some v }

/-- OFFS (R75). -/
def execOffs (v : BitVec 23) (s : State) : Host.Outcome State Fault Refusal :=
  hintWord s 1 true fun h => { h with offs := some v }

/-- PERM (R76, R77). -/
def execPerm (v : BitVec 16) (s : State) : Host.Outcome State Fault Refusal :=
  hintWord s 2 (accepts (.perm v)) fun h => { h with perm := some v }

/-- MIXW (R78). -/
def execMixw (v : BitVec 9) (s : State) : Host.Outcome State Fault Refusal :=
  hintWord s 3 true fun h => { h with mixw := some v }

/-- LKA (R79). -/
def execLka (v : BitVec 6) (s : State) : Host.Outcome State Fault Refusal :=
  hintWord s 4 true fun h => { h with lka := some v }

/-- ILLEGAL_INSTRUCTION: a word that is no row raises the illegal-instruction trap (R86). One of the hint major is a word of
its group like any hint, so the fetch faults of the words after it come first (R70, R87). -/
def execIllegalInstruction (word : BitVec 32) (s : State) : Host.Outcome State Fault Refusal :=
  if fMajor word = 0x3F then hintWord s (word.extractLsb' 23 3).toNat false id
  else issue (.illegalInstruction word) s fun i => i.trap (dnr 1 0) i.p.em

end Sys2Proof.Machine
end

