-- ==== Sys2Proof/Machine/Manage.lean ====
section
/-! DEFINITION. The management controller: commands of the mailbox, the debugger, policies, attestation and the inventory
window (R125, R130, R340, R346, R374, R406, R410, R431, R433 to R440). -/

namespace Sys2Proof.Machine

/-! ## The mailbox (R438, R439) -/

/-- What a command answers: the state, its status, its result and the whole length of the result. -/
structure Reply where
  s : State
  status : BitVec 16
  result : List Byte
  total : Nat

/-- A command with no result. -/
def State.reply (s : State) (status : BitVec 16) : Reply := ⟨s, status, [], 0⟩

/-- A command with a result. -/
def State.replyWith (s : State) (bs : List Byte) : Reply := ⟨s, 0, bs, bs.length⟩

/-- An operand that breaks its layout (R439). -/
def badOperand : BitVec 16 := invalidArg 1

/-- NOT-FOUND (R347). -/
def notFound : BitVec 16 := dnr 0x1A 0

/-- The operand of a command stands in the mailbox of its host port with the command, and the doorbell is 1 (R439). A command that the
host has written there itself stands there already. -/
def State.ring (s : State) (t : Ticket) (cmd len : Nat) (operand : List Byte) : State :=
  let put (m : Mailbox) : Mailbox :=
    if t.written then { m with doorbell := true }
    else { m with cmd := BitVec.ofNat 32 cmd, len := BitVec.ofNat 32 len, tag := t.tag, doorbell := true,
                  data := operand ++ m.data.drop operand.length }
  { s with mailboxes := s.mailboxes.modify t.path put }

/-- The mailbox of a path is busy with a command (R439). -/
def State.busy (s : State) (t : Ticket) : Bool := !t.written && (s.mailboxes[t.path]?).elim false (·.doorbell)

/-- A command reaches the controller: discarded where its mailbox is busy, served otherwise, in one move, so that commands are served one
at a time in their arrival order (R438, R439). `f` is what its service does. -/
def command (cmd len : Nat) (operand : List Byte) (t : Ticket) (s : State) (f : State → State) : Host.Outcome State Fault Refusal :=
  .next (if 3 ≤ t.path then f s else if s.busy t then s else f (s.ring t cmd len operand))

/-- A command that is answered at once (R438). -/
def serveNow (cmd len : Nat) (operand : List Byte) (t : Ticket) (s : State) (f : State → Reply) : Host.Outcome State Fault Refusal :=
  command cmd len operand t s fun s =>
    let r := f s
    r.s.answerMgmt t r.status r.result r.total

/-! ## Drain and resume (R340, R341) -/

/-- A drain request to one state (R340). -/
def RunState.drain (x : RunState) : RunState :=
  match x with
  | .idle => .quiesced
  | .running => .draining
  | .draining => .draining
  | .quiesced => .quiesced

/-- A resume request to one state (R340). -/
def RunState.resume (x : RunState) : RunState :=
  match x with
  | .draining => .running
  | .quiesced => .idle
  | .idle => .idle
  | .running => .running

/-- The index names the module or a partition that exists. -/
def State.targetOk (s : State) (part : Nat) : Bool := part == 0xFF || (decide (part < 16) && (s.part part).used)

/-- A drain request (R340). -/
def State.drainReq (s : State) (part : Nat) (cut : Bool) : State :=
  let t := if part = 0xFF then { s with run := s.run.drain, runCut := s.runCut || cut }
    else s.modPart part fun p => { p with st := p.st.drain, cut := p.cut || cut }
  ((if part = 0xFF then List.range 16 else [part]).foldl State.cutGrids t).refreshFlags

/-- A resume request (R340). -/
def State.resumeReq (s : State) (part : Nat) : State :=
  (if part = 0xFF then { s with run := s.run.resume, runCut := false }
   else s.modPart part fun p => { p with st := p.st.resume, cut := false }).refreshFlags

/-- DRAIN: it completes when its target is QUIESCED; the commands behind it are served meanwhile, as the cases of the manual have a RESUME
after it (R438, log 36). -/
def execDrain (part flags : BitVec 8) (tag : Ticket) (s : State) : Host.Outcome State Fault Refusal :=
  command 1 2 [part, flags] tag s fun s =>
    if s.targetOk part.toNat && flags.toNat < 2 then
      let held : State := if 3 ≤ tag.path then s else { s with serving := s.serving ++ [(tag, part.toNat)] }
      (held.drainReq part.toNat (flags.getLsbD 0)).finishDrain
    else s.answerMgmt tag badOperand [] 0

/-- RESUME (R340, R438). -/
def execResume (part flags : BitVec 8) (tag : Ticket) (s : State) : Host.Outcome State Fault Refusal :=
  serveNow 2 2 [part, flags] tag s fun s =>
    if s.targetOk part.toNat && flags == 0 then (s.resumeReq part.toNat).reply 0 else s.reply badOperand

/-! ## HOLD, debugger attach (R346, R374) -/

/-- RELEASE-HOLD: the context's pages and windows are freed (R346, R350). -/
def execReleaseHold (grid : Nat) (tag : Ticket) (s : State) : Host.Outcome State Fault Refusal :=
  serveNow 3 8 (bytesLE 8 grid) tag s fun s =>
    match s.ctxs.find? fun c => c.finished && c.gids.contains grid && severity (c.code.getD 0) == 3 with
    | none => s.reply notFound
    | some c =>
      let t := (s.soundRegions c.regions).setCtx { c with regions := [], gids := [] }
      let free (x : Cluster) : Cluster := { x with wins := x.wins.filter (·.ctx != c.id) }
      State.reply { t with clusters := t.clusters.map free, tables := t.tables.filter (·.2 != c.id) } 0

/-- The context of a grid that has not completed. -/
def State.ctxOfGrid (s : State) (grid : Nat) : Option Context := (s.grid? grid).bind fun g => s.ctx? g.ctx

/-- ATTACH: the path that attaches is the one that may use the debugger (R374, R438, R440, log 36). -/
def execAttach (grid : Nat) (tag : Ticket) (s : State) : Host.Outcome State Fault Refusal :=
  serveNow 4 8 (bytesLE 8 grid) tag s fun s =>
    match s.ctxOfGrid grid with
    | none => s.reply notFound
    | some c => (s.setCtx { c with dbg := some tag.path }).reply 0

/-- A skein that waits for the debugger (R374, R440). -/
def Skein.awaits (k : Skein) : Bool :=
  k.stop.elim false fun st => !st.go && (st.record.cause == 2 || st.record.cause == 3 || st.record.cause == 4)

/-- A change to every skein, resident or saved. -/
def State.modEvery (s : State) (f : Skein → Skein) : State :=
  { s with skeins := s.skeins.map f, ctxs := s.ctxs.map fun c => { c with saved := c.saved.map f } }

/-- The debugger gives up a skein: it is to resume, at once where it may (R363, R374, R440). -/
def State.dbgRelease (s : State) (mine : Skein → Bool) : State :=
  let go (k : Skein) : Skein := if mine k then { k with stop := k.stop.map fun st => { st with go := true } } else k
  let ids := (s.skeins.filter fun k => mine k && s.mayResume k).map (·.id)
  ids.foldl State.resume (s.modEvery go)

/-- DETACH: every skein that waits for the debugger resumes (R440). -/
def execDetach (grid : Nat) (tag : Ticket) (s : State) : Host.Outcome State Fault Refusal :=
  serveNow 5 8 (bytesLE 8 grid) tag s fun s =>
    match s.ctxOfGrid grid with
    | none => s.reply notFound
    | some c =>
      let t : State := { s.setCtx { c with dbg := none } with dbgQueue := s.dbgQueue.filter (·.ctx != c.id) }
      (t.dbgRelease fun k => k.ctx == c.id && k.awaits).reply 0

/-! ## Release policies (R406, R439) -/

/-- Bytes of a signature, and of a policy's body (R406). -/
def sigBytes : Nat := 3309
def bodyBytes : Nat := 128

/-- A part of a body is all 0. -/
def zeroPart (b : List Byte) (a n : Nat) : Bool := ((b.drop a).take n).all (· == 0)

/-- The index of the partition that a body names. -/
def State.policyPart (s : State) (b : List Byte) : Option Nat :=
  (List.range 16).find? fun n => (s.part n).used && (s.part n).identity.toNat == bodyField b 60 8

/-- The signature of a slot verifies over a body (R406). -/
def Partition.signed (p : Partition) (b sig : List Byte) (slot : Nat) : Bool :=
  sig.length == sigBytes && Config.verifies (p.keys.getD slot 0) (shake256 b) sig

/-- The slot of the first failing signature; for one beyond those required it is not said (R406, log 7). -/
def badSignature (p : Partition) (b : List Byte) (free : Nat) : List Nat → List Byte → Option Nat
  | [], sigs => if sigs.isEmpty then none else some ((Config.freeWord free).toNat % 256)
  | t :: rest, sigs => if p.signed b (sigs.take sigBytes) t then badSignature p b free rest (sigs.drop sigBytes) else some t

/-- The tenant slots of a set, ascending. -/
def slotsOf (x : OSet) : List Nat := (List.range 16).filter fun t => x.getLsbD t

/-- An install: the partition and its record, or the reason and the slot of the refusal (R406, R439). -/
def State.install (s : State) (b sigs : List Byte) : Except (Nat × Nat) (Nat × PolicyRec) :=
  let r : PolicyRec := ⟨b, bodyField b 48 8, bodyField b 56 4⟩
  if !(zeroPart b 42 6 && zeroPart b 68 60) then .error (1, 0)
  else match s.policyPart b with
    | none => .error (2, 0)
    | some n =>
      let p := s.part n
      if p.dests.length ≤ r.dest then .error (3, 0)
      else if p.policies.any (·.id == r.id) then .error (4, 0)
      else if bodyField b 0 2 != 1 || r.set == 0 || r.id == 0 || r.budget == 0 then .error (6, 0)
      else match badSignature p b s.free (slotsOf r.set) sigs with
        | some t => .error (5, t)
        | none => .ok (n, r)

/-- Two bodies differ at most in their uses (R406). -/
def sameButUses (a b : List Byte) : Bool := a.take 56 == b.take 56 && a.drop 60 == b.drop 60

/-- A revocation: the partition and the id to remove, or the refusal (R406). -/
def State.revoke (s : State) (b rest : List Byte) : Except (Nat × Nat) (Nat × Nat) :=
  if !(zeroPart b 42 6 && zeroPart b 68 60) then .error (1, 0)
  else match s.policyPart b with
    | none => .error (2, 0)
    | some n =>
      let p := s.part n
      match p.policies.find? fun x => x.id == bodyField b 4 4 && sameButUses x.body b with
      | none => .error (7, 0)
      | some x =>
        let slot := ofBytesLE (rest.take 2)
        if (slotsOf x.set).contains slot && p.signed b (rest.drop 2) slot then .ok (n, x.id) else .error (5, slot)

/-- A refused install or revocation (R439). -/
def State.refusePolicy (s : State) (why : Nat × Nat) : Reply :=
  ⟨s, badOperand, [BitVec.ofNat 8 why.1, BitVec.ofNat 8 why.2], 2⟩

/-- A whole policy is judged (R406). -/
def State.judgePolicy (s : State) (all : List Byte) : Reply :=
  let b := all.take bodyBytes
  let rest := all.drop bodyBytes
  if b.length < bodyBytes then s.reply badOperand
  else if bodyField b 56 4 = 0 then
    match s.revoke b rest with
    | .error e => s.refusePolicy e
    | .ok (n, id) => (s.modPart n fun p => { p with policies := p.policies.filter (·.id != id) }).reply 0
  else match s.install b rest with
    | .error e => State.refusePolicy { s with free := s.free + 1 } e
    | .ok (n, r) => State.reply ((s.modPart n fun p => { p with policies := p.policies ++ [r] })) 0

/-- POLICY: a part joins those received; the last is followed by the judgement (R406, R439). -/
def execPolicy (total off : Nat) (bytes : List (BitVec 8)) (tag : Ticket) (s : State) :
    Host.Outcome State Fault Refusal :=
  serveNow 6 (8 + bytes.length) (bytesLE 4 total ++ bytesLE 4 off ++ bytes) tag s fun s =>
    let had := s.policyParts.getD (total, [])
    let got := had.2 ++ bytes
    let none : State := { s with policyParts := Option.none }
    if had.1 != total || off != had.2.length || total < got.length || 3960 < bytes.length then none.reply badOperand
    else if got.length = total then none.judgePolicy got
    else State.reply { s with policyParts := some (total, got) } 0

/-! ## Attestation (R410) -/

/-- A list with its length before it. -/
def counted (xs : List Nat) : List Nat := xs.length :: xs

/-- What a partition's layout lists: clusters, HBM ranges, ports, routes, functions and the destination table (R410). -/
def State.layoutOf (s : State) (n : Nat) : List Nat :=
  let p := s.part n
  counted ((s.clusters.zipIdx.filter fun c => c.1.part == some n).map (·.2)) ++ counted p.hbm ++ counted p.hemPorts ++
    counted p.ethPorts ++ counted (p.vlans.flatMap fun v => [v.1, v.2]) ++ counted p.routes ++ counted p.modules ++
    counted ((s.vfs.filter (·.part == n)).flatMap fun v => [v.id, v.port, v.tenant, v.winUnits]) ++
    counted (p.dests.flatMap fun d => [d.kind, d.port, d.target, d.owner])

/-- A policy's entry of the report: the digest of its body and its remaining uses in 64 bytes (log 15). -/
def PolicyRec.entry (p : PolicyRec) : List Byte :=
  bytesLE 32 (shake256 (p.body.take bodyBytes)).toNat ++ bytesLE 4 p.uses ++ List.replicate 28 0#8

/-- The attestation report of a partition for a nonce (R410). -/
def State.attestation (s : State) (nonce : List Byte) (n : Nat) : List Byte :=
  let p := s.part n
  let head := nonce ++ bytesLE 32 (shake256 Config.identityKey).toNat ++ bytesLE 2 1 ++ bytesLE 2 (if s.debugMode then 1 else 0) ++
    bytesLE 4 s.images.length ++ bytesLE 8 p.identity.toNat ++ s.images.flatMap (fun d => bytesLE 32 d.toNat) ++
    bytesLE 32 (Config.layoutDigest (s.layoutOf n)).toNat ++ bytesLE 4 p.policies.length ++ p.policies.flatMap PolicyRec.entry
  head ++ (List.range sigBytes).map (Config.signByte head)

/-- The longest result part (R438). -/
def dataBytes : Nat := 3968

/-- ATTEST (R410, R438, R439). -/
def execAttest (nonce : List (BitVec 8)) (part off : Nat) (tag : Ticket) (s : State) : Host.Outcome State Fault Refusal :=
  serveNow 7 40 (nonce ++ bytesLE 4 part ++ bytesLE 4 off) tag s fun s =>
    if nonce.length != 32 || 16 ≤ part || !(s.part part).used then s.reply badOperand
    else
      let send (s : State) (bs : List Byte) : Reply := ⟨s, 0, (bs.drop off).take dataBytes, bs.length⟩
      if off = 0 then
        let bs := s.attestation nonce part
        send { s with report := some (nonce, bs) } bs
      else match s.report with
        | none => s.reply badOperand
        | some (n, bs) => if n == nonce && decide (off < bs.length) then send s bs else s.reply badOperand

/-- CAP (R431, R438). -/
def execCap (watts : Nat) (tag : Ticket) (s : State) : Host.Outcome State Fault Refusal :=
  serveNow 8 2 (bytesLE 2 watts) tag s fun s =>
    if 2000 ≤ watts && watts ≤ 4200 then State.reply { s with cap := BitVec.ofNat 16 watts } 0 else s.reply badOperand

/-- The command codes of R438. -/
def commandCodes : List Nat := [1, 2, 3, 4, 5, 6, 7, 8, 0x10, 0x11, 0x12, 0x13]

/-- INVALID_COMMAND: an unknown code, non-zero high bits or a length above the data area, else an operand that breaks its command's layout
(R439). -/
def execInvalidCommand (cmd : BitVec 32) (len : Nat) (tag : Ticket) (s : State) : Host.Outcome State Fault Refusal :=
  serveNow cmd.toNat len [] tag s fun s =>
    s.reply (if commandCodes.contains cmd.toNat && len ≤ dataBytes then badOperand else invalidArg 0)

/-! ## BAR4 (R433, R439) -/

/-- The item that a debugger operand names (R440). -/
def dbgItemOf (bs : List Byte) : DbgItem :=
  let f (a n : Nat) : Nat := ofBytesLE ((bs.drop a).take n)
  ⟨f 0 8, f 8 2, f 10 1, f 11 1, f 12 1, f 13 1, f 14 2⟩

/-- The command that a mailbox holds: one whose length is not that of its layout is invalid (R438, R439, log 36). -/
def Mailbox.command (m : Mailbox) (t : Ticket) : Instr :=
  let bs := m.data.take m.len.toNat
  let f (a n : Nat) : Nat := ofBytesLE ((bs.drop a).take n)
  let b (a : Nat) : Byte := bs.getD a 0
  match m.cmd.toNat, m.len.toNat with
  | 1, 2 => .drain (b 0) (b 1) t
  | 2, 2 => .resume (b 0) (b 1) t
  | 3, 8 => .releaseHold (f 0 8) t
  | 4, 8 => .attach (f 0 8) t
  | 5, 8 => .detach (f 0 8) t
  | 7, 40 => .attest (bs.take 32) (f 32 4) (f 36 4) t
  | 8, 2 => .cap (f 0 2) t
  | 0x10, 0 => .dbgEvent t
  | 0x11, 16 => .dbgRead (dbgItemOf bs) t
  | 0x13, 11 => .dbgResume (dbgItemOf bs) t
  | 6, n => if 8 ≤ n && n ≤ dataBytes then .policy (f 0 4) (f 4 4) (bs.drop 8) t else .invalidCommand m.cmd n t
  | 0x12, n => if 16 ≤ n && n ≤ dataBytes then .dbgWrite (dbgItemOf bs) (bs.drop 16) t else .invalidCommand m.cmd n t
  | _, n => .invalidCommand m.cmd n t

/-- A byte written to a field of the mailbox; the read-only ones keep theirs (R439). -/
def Mailbox.put (m : Mailbox) (off : Nat) (b : Byte) : Mailbox :=
  let head := (bytesLE 4 m.cmd.toNat ++ bytesLE 4 m.len.toNat ++ bytesLE 8 m.tag.toNat).set off b
  let f (a n : Nat) : Nat := ofBytesLE ((head.drop a).take n)
  if off < 16 then { m with cmd := BitVec.ofNat 32 (f 0 4), len := BitVec.ofNat 32 (f 4 4), tag := BitVec.ofNat 64 (f 8 8) }
  else if 0x80 ≤ off then { m with data := m.data.set (off - 0x80) b }
  else m

/-- A host's write of 8 bytes at an offset of the mailbox while the doorbell reads 0, and whether it writes 1 into the doorbell
(R439). -/
def Mailbox.write (m : Mailbox) (off : Nat) (data : BitVec 64) : Mailbox × Bool :=
  let bs := bytesLE 8 data.toNat
  let n := (List.range 8).foldl (fun m i => m.put (off + i) (bs.getD i 0)) m
  (n, decide (off ≤ 0x10) && decide (0x14 ≤ off + 8) && ofBytesLE ((bs.drop (0x10 - off)).take 4) == 1)

/-- The 4,096 bytes of the mailbox as the host reads them (R439). -/
def Mailbox.bytes (m : Mailbox) : List Byte :=
  bytesLE 4 m.cmd.toNat ++ bytesLE 4 m.len.toNat ++ bytesLE 8 m.tag.toNat ++ bytesLE 4 (if m.doorbell then 1 else 0) ++
    bytesLE 2 m.status.toNat ++ bytesLE 2 0 ++ bytesLE 4 m.rlen ++ bytesLE 4 m.rtotal ++ bytesLE 8 m.rtag.toNat ++
    List.replicate 88 0#8 ++ m.data.take 3968

/-- A byte of a host port's BAR4 as the host reads it: the window, the mailbox, and 0 in the reserved offsets. A read changes nothing
(R433). -/
def State.bar4 (s : State) (port off : Nat) : Byte :=
  if off < 0x10000 then s.window.getD off 0
  else if off < 0x11000 then ((s.mailboxes[port]?).elim [] Mailbox.bytes).getD (off - 0x10000) 0
  else 0

/-- An aligned 8-byte read of BAR4, single-copy atomic (R433). -/
def State.bar4Read (s : State) (port off : Nat) : BitVec 64 :=
  BitVec.ofNat 64 (ofBytesLE ((List.range 8).map fun i => s.bar4 port (off + i)))

/-! ## The debugger (R374, R440) -/

/-- The 320 bytes of a trap record (R344). -/
def Record.bytes (r : Record) : List Byte :=
  bytesLE 8 r.pc.toNat ++ bytesLE 8 r.word.toNat ++ bytesLE 2 r.code.toNat ++ bytesLE 1 r.cause ++ bytesLE 1 r.flags ++
  bytesLE 4 r.em.toNat ++ bytesLE 4 r.lfm.toNat ++ bytesLE 1 r.followers ++ bytesLE 1 r.cmdclass ++ bytesLE 2 r.batch.toNat ++
  bytesLE 4 r.imm.toNat ++ bytesLE 4 0 ++ bytesLE 8 r.grid ++ bytesLE 2 r.core ++ bytesLE 1 r.slot ++ bytesLE 1 r.skein ++
  bytesLE 4 r.block ++ bytesLE 8 0 ++
  laneIds.flatMap fun l => bytesLE 8 ((r.addrs.find? (·.1 == l)).elim 0 (·.2))

/-- The path has attached a debugger to the context (R440). -/
def State.dbgBy (s : State) (t : Ticket) (ctx : Nat) : Bool := (s.ctx? ctx).elim false fun c => c.dbg == some t.path

/-- DBG-EVENT: the oldest stop not yet delivered of a context that the path has attached (R440). -/
def execDbgEvent (tag : Ticket) (s : State) : Host.Outcome State Fault Refusal :=
  serveNow 0x10 0 [] tag s fun s =>
    match s.dbgQueue.find? fun r => s.dbgBy tag r.ctx with
    | none => s.reply notFound
    | some r =>
      let t : State := { s with dbgQueue := s.dbgQueue.erase r }
      (t.modStopped r fun k st => { k with stop := some { st with delivered := true } }).replyWith r.bytes

/-- Two skeins are one: a saved one keeps the slot that it had, which a restored one may have taken (R370). -/
def Skein.same (k x : Skein) : Bool := x.grid == k.grid && x.block == k.block && x.num == k.num

/-- The stopped skein, resident or saved, that a debugger command names, once its stop has been delivered to the path; a core has 128 slots
(R2, R440). -/
def State.dbgSkein (s : State) (t : Ticket) (d : DbgItem) : Option Skein :=
  (s.skeins ++ s.ctxs.flatMap (·.saved)).find? fun k =>
    k.grid == d.grid && decide (d.slot < 128) && k.id == d.core * 128 + d.slot && k.stop.elim false (·.delivered) && k.awaits && s.dbgBy t k.ctx

/-- The state of a split as the debugger reads it (R440). -/
def SplitSt.code : SplitSt → Nat
  | .ready => 0
  | .stalled _ => 1
  | .held _ => 2
  | .joinWait true => 3
  | .joinWait false => 4
  | .parked _ => 5

/-- A stack slot in its format (R130). -/
def StackSlot.bytes (e : StackSlot) : List Byte :=
  bytesLE 8 (if e.opened then e.pc.toNat / 4 * 4 + 1 else e.pc.toNat / 4 * 4) ++ bytesLE 4 e.rejoin.toNat ++
  bytesLE 4 e.arrived.toNat ++ bytesLE 4 e.em.toNat ++ bytesLE 4 e.taken.toNat ++ bytesLE 8 e.takenPc.toNat ++
  bytesLE 4 e.fr.toNat ++ bytesLE 2 e.co.toNat ++ bytesLE 2 (e.parent.getD 0xFFFF) ++ List.replicate 24 0#8

/-- The split that an item names (R440). -/
def Skein.dbgSplit (k : Skein) (d : DbgItem) : Option Split := k.splits.find? fun p => lowest p.members == d.first

/-- The slices that an item names are in the window (R440). -/
def Skein.dbgSlices (k : Skein) (d : DbgItem) : Bool :=
  decide (d.lane < 32) && decide (1 ≤ d.count) && decide (d.first + d.count ≤ k.window)

/-- The registers of a lane that an item's slices lie in and whose units have failed (R349, R440). -/
def Skein.dbgBad (k : Skein) (d : DbgItem) : Bool :=
  d.item == 0 && k.badRegs.any fun x => x.1 == d.lane && (regsOf d.first d.count).contains x.2

/-- The data of an item, none where its fields are out of range (R440). Of a stack slot that holds no entry the model gives what the core
keeps there: the old contents of one freed below an occupied slot, and zeros above the stack; R130 and R440 say neither (log 35). -/
def State.dbgItem (s : State) (k : Skein) (d : DbgItem) : Option (List Byte) :=
  match d.item with
  | 0 => if k.dbgSlices d then
      some ((List.range d.count).map fun i => BitVec.ofNat 8 (bitsOf (k.lanes.getD d.lane 0).toNat (4 * (d.first + i)) 4)) else none
  | 1 => (k.dbgSplit d).map fun p => bytesLE 8 p.pc.toNat ++ bytesLE 4 p.members.toNat ++ bytesLE 4 p.em.toNat ++
      bytesLE 4 p.fr.toNat ++ bytesLE 2 p.co.toNat ++ bytesLE 1 p.st.code
  | 2 => some (bytesLE 4 (s.sw k) ++ bytesLE 4 k.lfm.toNat)
  | 3 => if d.first + d.count ≤ 32 then
      some ((List.range d.count).flatMap fun i => bytesLE 2 (k.sets.getD (d.first + i) 0).toNat) else none
  | 4 => if d.first + d.count ≤ 256 then
      some ((List.range d.count).flatMap fun i => (k.stack[d.first + i]?).elim (List.replicate 64 0#8) StackSlot.bytes) else none
  | _ => none

/-- The operand of DBG-READ (R440). -/
def dbgOperand (d : DbgItem) : List Byte :=
  bytesLE 8 d.grid ++ bytesLE 2 d.core ++ bytesLE 1 d.slot ++ bytesLE 1 d.item ++ bytesLE 1 d.lane ++ bytesLE 1 d.first ++
    bytesLE 2 d.count

/-- DBG-READ. Slices in a failed unit complete it with their DATA-ERROR, counted (R348, R349, R440, log 20). -/
def execDbgRead (item : DbgItem) (tag : Ticket) (s : State) : Host.Outcome State Fault Refusal :=
  serveNow 0x11 16 (dbgOperand item) tag s fun s =>
    match s.dbgSkein tag item with
    | none => s.reply notFound
    | some k => match s.dbgItem k item with
      | none => s.reply badOperand
      | some bs => if dataBytes < bs.length then s.reply badOperand
        else if k.dbgBad item then (s.countError k.coreId 0 6).reply 0xCC06
        else s.replyWith bs

/-- Slices written in one lane: the sets of their registers join the tenant bit; all 8 slices of a register mend it (R349, R374). -/
def Skein.dbgPut (k : Skein) (d : DbgItem) (data : List Byte) (tenant : OSet) : Skein :=
  let v := ((List.range d.count).foldl (fun a i => a + ((data.getD i 0).toNat % 16) * 2 ^ (4 * i)) 0)
  let m : Mask := 1#32 <<< d.lane
  let masks := laneMasks m (sliceMask d.first d.count)
  let j := { k with
    lanes := mergeLanes k.lanes (laneMasks m (BitVec.ofNat 1024 (v * 2 ^ (4 * d.first)))) masks, badRegs := mendRegs masks k.badRegs }
  { j with sets := j.sets.mapIdx fun r x => if (regsOf d.first d.count).contains r then x ||| tenant else x }

/-- What DBG-WRITE changes, none where the item cannot be written or its data are of another length (R440). -/
def State.dbgPut (s : State) (k : Skein) (d : DbgItem) (data : List Byte) : Option Skein :=
  match d.item with
  | 0 => if k.dbgSlices d && data.length == d.count then some (k.dbgPut d data (tenantBit (s.gridOf k).tenant)) else none
  | 1 => if data.length != 12 then none else (k.dbgSplit d).map fun p =>
      let pc := BitVec.ofNat 64 (ofBytesLE (data.take 8))
      k.setSplit { p with pc := pc, again := if p.pc == pc then p.again else none,
                          em := BitVec.ofNat 32 (ofBytesLE (data.drop 8)) &&& p.members }
  | 2 => match data with
    | b :: _ => some { k with swlo := b.setWidth 2 }
    | [] => none
  | _ => none

/-- DBG-WRITE (R374, R440). -/
def execDbgWrite (item : DbgItem) (data : List (BitVec 8)) (tag : Ticket) (s : State) :
    Host.Outcome State Fault Refusal :=
  serveNow 0x12 (16 + data.length) (dbgOperand item ++ data) tag s fun s =>
    match s.dbgSkein tag item with
    | none => s.reply notFound
    | some k => match s.dbgPut k item data with
      | none => s.reply badOperand
      | some j => (s.modEvery fun x => if x.same k then j else x).reply 0

/-- DBG-RESUME (R374, R440). -/
def execDbgResume (item : DbgItem) (tag : Ticket) (s : State) : Host.Outcome State Fault Refusal :=
  serveNow 0x13 11 (bytesLE 8 item.grid ++ bytesLE 2 item.core ++ bytesLE 1 item.slot) tag s fun s =>
    match s.dbgSkein tag item with
    | none => s.reply notFound
    | some k => (s.dbgRelease (·.same k)).reply 0

/-- A management command is served (R438). -/
def runCommand (i : Instr) (s : State) : Host.Outcome State Fault Refusal :=
  match i with
  | .drain part flags t => execDrain part flags t s
  | .resume part flags t => execResume part flags t s
  | .releaseHold g t => execReleaseHold g t s
  | .attach g t => execAttach g t s
  | .detach g t => execDetach g t s
  | .policy total off bytes t => execPolicy total off bytes t s
  | .attest nonce part off t => execAttest nonce part off t s
  | .cap watts t => execCap watts t s
  | .dbgEvent t => execDbgEvent t s
  | .dbgRead item t => execDbgRead item t s
  | .dbgWrite item data t => execDbgWrite item data t s
  | .dbgResume item t => execDbgResume item t s
  | .invalidCommand cmd len t => execInvalidCommand cmd len t s
  | _ => .next s

/-- DISCARDED_WRITE: a write to BAR4. The window and the reserved offsets discard it, and so does the mailbox while its doorbell reads 1;
else it writes the mailbox's fields, and 1 in the doorbell submits the command (R433, R439). -/
def execDiscardedWrite (pos : PortAt) (data : BitVec 64) (s : State) : Host.Outcome State Fault Refusal :=
  match s.mailboxes[pos.port]? with
  | none => .next s
  | some m =>
    if m.doorbell || pos.off < 0x10000 || 0x11000 ≤ pos.off then .next s
    else
      let w := m.write (pos.off - 0x10000) data
      let n : Mailbox := { w.1 with doorbell := w.2 }
      let t : State := { s with mailboxes := s.mailboxes.set pos.port n }
      if w.2 then runCommand (n.command ⟨pos.port, n.tag, true⟩) t else .next t

/-! ## The inventory window (R433 to R437) -/

/-- Codes of the states in the window (R434, R435). -/
def ModState.code : ModState → Nat
  | .booting => 0 | .up => 1 | .degraded => 2 | .failed => 3 | .thermal => 4
def RunState.code : RunState → Nat
  | .idle => 0 | .running => 1 | .draining => 2 | .quiesced => 3

/-- Bytes padded with 0 to a length. -/
def padTo (n : Nat) (bs : List Byte) : List Byte := bs ++ List.replicate (n - bs.length) 0#8

/-- The header for a snapshot generation (R435). -/
def State.header (s : State) (gen : Nat) : List Byte :=
  padTo 64 (bytesLE 4 0x4A581536 ++ bytesLE 2 1 ++ bytesLE 2 s.modSt.code ++ bytesLE 8 gen ++ bytesLE 2 s.power.toNat ++
    bytesLE 2 s.cap.toNat ++ bytesLE 2 s.inlet.toNat ++ bytesLE 2 s.flow.toNat ++ bytesLE 4 s.diesUp.toNat ++
    bytesLE 4 s.stacksUp.toNat ++ bytesLE 8 s.seamsUp.toNat ++ bytesLE 8 s.loghead)

/-- A partition's record (R434). -/
def Partition.bytes (p : Partition) : List Byte :=
  padTo 32 (bytesLE 8 p.identity.toNat ++ bytesLE 1 (if p.used then p.st.code else 0xFF) ++ bytesLE 3 0 ++
    bytesLE 4 p.refusedEgress ++ bytesLE 4 p.refusedSubs ++ bytesLE 4 p.quarantines ++ bytesLE 4 p.lateCompletions)

/-- A cluster's record (R434). -/
def Cluster.bytes (c : Cluster) : List Byte :=
  bytesLE 1 (if c.online then 1 else 0) ++ bytesLE 1 (c.part.getD 0xFF) ++ bytesLE 2 0 ++ bytesLE 4 c.weightErrs ++
    bytesLE 4 c.saturations ++ bytesLE 4 c.sramErrs ++ bytesLE 4 c.discarded ++ bytesLE 4 0 ++ bytesLE 8 c.counter

/-- A core's record (R434). -/
def Core.bytes (c : Core) : List Byte :=
  bytesLE 4 c.drops ++ bytesLE 4 c.l1Errs ++ bytesLE 4 c.spadErrs ++ bytesLE 4 c.rfErrs

/-- A die's record (R434). -/
def Die.bytes (d : Die) : List Byte := padTo 16 (bytesLE 4 d.l2Errs ++ bytesLE 4 d.hbmErrs ++ bytesLE 2 d.temp)

/-- A fault-log entry (R436). -/
def LogEntry.bytes (e : LogEntry) : List Byte :=
  bytesLE 8 e.grid ++ bytesLE 2 e.code.toNat ++ bytesLE 1 e.part ++ bytesLE 1 e.tenant ++ bytesLE 2 e.cluster ++ bytesLE 2 0 ++
    bytesLE 8 e.counter ++ bytesLE 8 e.seq

/-- The slot of the log with a number modulo 256 (R436). -/
def State.logSlot (s : State) (n : Nat) : List Byte :=
  (s.log.find? fun e => e.seq % 256 == n).elim (List.replicate 32 0#8) LogEntry.bytes

/-- The window of 65,536 bytes for a snapshot generation (R434). -/
def State.snapshot (s : State) (gen : Nat) : List Byte :=
  padTo 0x400 (s.header gen ++ s.parts.flatMap Partition.bytes) ++
  padTo 0x1C00 (s.clusters.flatMap Cluster.bytes) ++ padTo 0x6000 (s.cores.flatMap Core.bytes) ++
  padTo 0x1000 (s.dieSt.flatMap Die.bytes) ++ padTo 0x7000 ((List.range 256).flatMap s.logSlot)

/-- What the controller measures, which only the module knows: the coolant always, power and temperatures where they are known to be
inside their limits (R432, R434, R435, log 7). -/
def State.measure (s : State) : State :=
  let w (n : Nat) : Nat := (Config.freeWord (s.free + n)).toNat
  let t : State := { s with inlet := BitVec.ofNat 16 (w 25), flow := BitVec.ofNat 16 (w 26), free := s.free + 27 }
  if s.gated || s.stopped then t
  else { t with power := BitVec.ofNat 16 (w 24 % (s.cap.toNat + 1)), dieSt := s.dieSt.mapIdx fun i d => { d with temp := w i % 950 } }

/-- INVENTORY_REFRESH, in two moves: the generation becomes odd in the window, and then the bytes change and it is even again (R433,
R437). -/
def execInventoryRefresh (s : State) : Host.Outcome State Fault Refusal :=
  let g := s.gen + 1
  .next (if g.getLsbD 0 then { s with gen := g, window := s.window.take 8 ++ bytesLE 8 g.toNat ++ s.window.drop 16 }
    else
      let t := s.measure
      { t with gen := g, window := t.snapshot g.toNat })

end Sys2Proof.Machine
end

