-- ==== Sys2Proof/Machine/Power.lean ====
section
/-! DEFINITION. Power, temperature, FREEZE and the test port, and failures of seams, routes, stacks and engines (R283, R347, R375,
R386, R397, R432). -/

namespace Sys2Proof.Machine

/-! ## Power and temperature (R432) -/

/-- POWER_CAP_EXCEEDED: core and Mangle clocks are gated (R432). -/
def execPowerCapExceeded (watts : Nat) (s : State) : Host.Outcome State Fault Refusal :=
  .next (if s.cap.toNat < watts then { s with power := BitVec.ofNat 16 watts, gated := true }
    else { s with power := BitVec.ofNat 16 watts })

/-- THERMAL_THROTTLE: a die at 95 °C, in tenths (R432, R434). -/
def execThermalThrottle (die temp : Nat) (s : State) : Host.Outcome State Fault Refusal :=
  let t := s.modDie die fun d => { d with temp := temp }
  .next (if 950 ≤ temp then { t with gated := true } else t)

/-- THERMAL_SHUTDOWN: a die at 110 °C stops every clock; every function reports DEVICE_NEEDS_RESET, and the controller
shows THERMAL in its window (R432, R437). -/
def execThermalShutdown (die temp : Nat) (s : State) : Host.Outcome State Fault Refusal :=
  let t := s.modDie die fun d => { d with temp := temp }
  .next (if 1100 ≤ temp then
      { t with
        stopped := true, modSt := .thermal,
        vfs := t.vfs.map fun v => ({ v with status := v.status ||| 64 } : VF).configChange,
        agenda := (if t.gen.getLsbD 0 then [.inventoryRefresh] else [.inventoryRefresh, .inventoryRefresh]) ++ t.agenda }
    else t)

/-- BACK_INSIDE_LIMITS: what is measured is only known to be inside (R432, log 7). -/
def execBackInsideLimits (s : State) : Host.Outcome State Fault Refusal := .next (State.measure { s with gated := false })

/-! ## FREEZE and the test port (R375) -/

/-- FREEZE_ASSERT has an effect in debug mode only (R375). -/
def execFreezeAssert (s : State) : Host.Outcome State Fault Refusal := .next (if s.debugMode then { s with frozen := true } else s)

/-- FREEZE_RELEASE: together with a module reset, or with no effect when nothing was shifted (R375, R430). -/
def execFreezeRelease (withReset : Bool) (s : State) : Host.Outcome State Fault Refusal :=
  .next (if !s.frozen then s
    else if withReset then { State.reset with files := s.files, hostTime := s.hostTime, free := s.free }
    else if s.shifted then s else { s with frozen := false })

/-- SCANSEL (R375). -/
def execScansel (chain : BitVec 16) (s : State) : Host.Outcome State Fault Refusal :=
  .next { s with tapInstr := 0x20, chain := chain }

/-- SCANOUT: the bits of the selected chain leave, and the state is no longer what it was (R375, log 7). -/
def execScanout (s : State) : Host.Outcome State Fault Refusal :=
  .next (if s.frozen then
      { s with tapInstr := 0x21, shifted := true, free := s.free + 1, scanned := s.scanned ++ [Config.chainBits s.chain s.free] }
    else { s with tapInstr := 0x21 })

/-- IDCODE (R375). -/
def execIdcode (s : State) : Host.Outcome State Fault Refusal :=
  .next { s with tapInstr := 0x01, scanned := s.scanned ++ [Config.idcode] }

/-- BYPASS (R375). -/
def execBypass (s : State) : Host.Outcome State Fault Refusal := .next { s with tapInstr := 0xFF }

/-! ## Failures (R347, R386, R397) -/

/-- A cause of ending for several contexts, one after another. -/
def State.endAll (s : State) (ids : List Nat) (code : BitVec 16) : State :=
  ids.foldl (fun t id => t.endContext id code) s

/-- The stacks that a run of pages lies on. -/
def frameOn (stack frame len : Nat) : Bool :=
  (List.range (len / 4096)).any fun i => stackOf (frame * 2 ^ 16 + 4096 * i) == stack

/-- The context has HBM on a stack: pages of its own, those that Finwesin maps for it, its tables, or the backing of its skeins (R131, R194,
R347). -/
def State.memoryOn (s : State) (c : Context) (stack : Nat) : Bool :=
  (c.regions ++ c.shared).any (fun r => r.type == 0 && frameOn stack r.frame r.len) ||
    s.tables.any (fun x => x.2 == c.id && frameOn stack x.1 65536) ||
    (s.skeins ++ c.saved).any fun k => k.ctx == c.id && k.backing.elim false fun f => frameOn stack f 16384

/-- The context has a C window or a basket of CL or DV scope in a cluster's SRAM (R183). -/
def Cluster.keeps (x : Cluster) (ctx : Nat) : Bool :=
  x.wins.any (·.ctx == ctx) || x.baskets.any fun b => b.st != .free && b.ctx == ctx && b.scope != 0

/-- The context has blocks or memory on a die (R386). -/
def State.presentOn (s : State) (c : Context) (die : Nat) : Bool :=
  s.memoryOn c die || (s.clusters.zipIdx.any fun x => x.2 / 8 == die && x.1.keeps c.id) ||
    (s.blocks ++ c.savedBlocks).any fun b => b.ctx == c.id && b.cluster / 8 == die

/-- The module is no longer whole (R430). -/
def State.degrade (s : State) : State := (if s.modSt == .up then { s with modSt := .degraded } else s).refreshFlags

/-- SEAM_FAILURE: routing loses the seam; accesses in flight on it, and dies that no route reaches, end their contexts (R386). -/
def execSeamFailure (seam : Nat) (inFlight : List Nat) (s : State) : Host.Outcome State Fault Refusal :=
  let up := s.seamsUp &&& ~~~(1#38 <<< seam)
  let lost := (List.range 24).filter fun d => s.diesUp.getLsbD d && !(reached up).contains d
  let t : State := { s with
    seamsUp := up, diesUp := lost.foldl (fun m d => m &&& ~~~(1#24 <<< d)) s.diesUp,
    clusters := s.clusters.mapIdx fun i c => if lost.contains (i / 8) then { c with online := false } else c }
  .next ((t.degrade.endAll inFlight 0x5301).endAll ((t.ctxs.filter fun c => lost.any (t.presentOn c)).map (·.id)) 0x5301)

/-- HBM_STACK_OFFLINE: contexts with memory on the stack end (R347). -/
def execHbmStackOffline (stack : Nat) (s : State) : Host.Outcome State Fault Refusal :=
  let t : State := { s with stacksUp := s.stacksUp &&& ~~~(1#24 <<< stack) }
  .next (t.degrade.endAll ((t.ctxs.filter fun c => t.memoryOn c stack).map (·.id)) 0x5302)

/-- ENGINE_TIMEOUT: an outstanding engine operation of the skein (R347). -/
def execEngineTimeout (sid : Nat) (s : State) : Host.Outcome State Fault Refusal :=
  .next (match s.skein? sid with
    | none => s
    | some k => if k.cmds.isEmpty && k.mq.isEmpty then s else s.endContext k.ctx 0x5303)

/-- The code with which a route's failure ends a command (R397). -/
def routeCode (s : State) (module : Nat) (c : Cmd) : Option (BitVec 16) :=
  match c.kind with
  | .wsend m _ _ _ => if m = module then some (dnr 3 3) else none
  | .wcoll _ h _ _ _ => if (s.groups.find? (·.handle == h)).elim false (·.members.contains module) then some 0x0F03 else none
  | .local => none

/-- A command that a failed route ends; the other members of a collective are told (R283, R397). -/
def State.routeEnds (s : State) (k : Skein) (c : Cmd) (code : BitVec 16) : State :=
  match c.kind with
  | .wcoll _ h _ _ _ => s.routeAbort k c h
  | .local | .wsend _ _ _ _ => s.failCmd k c code

/-- ROUTE_FAILURE: the sends to a module and the collectives with it fault, those issued later as well (R283, R397). -/
def execRouteFailure (part module : Nat) (s : State) : Host.Outcome State Fault Refusal :=
  let hits := s.skeins.flatMap fun k =>
    if (s.ctxOf k).part != part then [] else k.cmds.filterMap fun c => (routeCode s module c).map fun code => (k.id, c, code)
  let lost := s.modPart part fun p => { p with lost := (module :: p.lost).eraseDups }
  .next (hits.foldl (fun t x => match t.skein? x.1 with
    | none => t
    | some k => t.routeEnds k x.2.1 x.2.2) lost)

end Sys2Proof.Machine
end

