-- ==== Sys2Proof/Machine/Spill.lean ====
section
/-! DEFINITION. SPILL and FILL (R220, R221). -/

namespace Sys2Proof.Machine

/-- Bytes of the slices of a record of c slices (R221). -/
def spillBytes (c : Nat) : Nat := ((c + 1) / 2 + 1) / 2 * 2

/-- Register y with its pair and the control word (R220). -/
def Iss.spillOpd (i : Iss) (y : Nat) : Opd := ⟨y, 24, 32, i.p.em, true, false⟩

/-- The lane files as the control word is read from them, before any check (R21, R22). -/
def Iss.early (i : Iss) (ops : List Opd) : List LaneFile := i.kept.elim (i.readLanded ops).files (·.files)

/-- The control word of the lowest active lane (R220). -/
def Iss.spillWord (i : Iss) (y : Nat) : Nat := i.raw (lowest i.p.em) (y + 16) 8

/-- The operands of SPILL and FILL. The window of the run stands beside that of y, and the LOOKAHEAD trap on both before the
instruction's own checks; the run is that of the lowest active lane, and there is none with a count outside 1 to 256 (R87,
R220, log 11). -/
def Iss.spillOperands (i : Iss) (y : Nat) (run : Nat → Opd) : Res Iss := do
  let files := i.early [i.spillOpd y]
  let c := bitsOf ({ i with files := files }.spillWord y) 0 9
  let j ← i.operands (i.spillOpd y :: if i.p.em == 0 || c == 0 || decide (256 < c) then [] else [run c])
  .ok { j with files := mergeLanes j.files files (List.replicate 32 (i.spillOpd y).mask) }

/-- The control word of the active lanes: space and count (R220). -/
def Iss.spillCtl (i : Iss) (y : Nat) : Res (Space × Nat) :=
  let v := i.spillWord y
  let c := bitsOf v 0 9
  let bad := maskOf fun l => inMask i.p.em l && i.raw l y 16 % 8 != 0
  if i.active.any fun l => i.raw l (y + 16) 8 != v then i.trap (dnr 2 3) i.p.em
  else if c = 0 ∨ 256 < c ∨ bitsOf v 10 22 ≠ 0 then i.trap (dnr 2 4) i.p.em
  else if bad != 0 then i.trap (dnr 2 2) bad
  else .ok (if bitsOf v 9 1 = 1 then .s else .g, c)

/-- The ranges of the records. -/
def Iss.records (i : Iss) (x y c : Nat) : List (Nat × Nat × Nat) :=
  i.active.map fun l => (l, i.raw l y 16, spillBytes c + 2 * (regsOf x c).length)

/-- SPILL (R220, R221). -/
def execSpill (x y : BitVec 8) (s : State) : Host.Outcome State Fault Refusal :=
  issue (.spill x y) s fun i => do
    let i ← i.spillOperands y.toNat fun c => ⟨x.toNat, c, 1, i.p.em, true, false⟩
    if i.p.em == 0 then .ok i.s
    else do
      let (sp, c) ← i.spillCtl y.toNat
      let i := if i.kept.isSome then i
        else { i with regs := (regsOf x.toNat c).map (i.k.readSet ⟨x.toNat, c, 1, i.p.em, true, false⟩) }
      let as ← i.map sp 2 needStore (i.records x.toNat y.toNat c)
      i.origin i.rset as
      i.hold true as
      .ok (i.put (i.store 8 as fun l => bytesLE (spillBytes c) (i.raw l x.toNat c) ++
        i.regs.flatMap fun x => bytesLE 2 x.toNat))

/-- The set halfword of the n-th covered register, joined over the records (R221). -/
def fillSet (recs : List (List Byte)) (p n : Nat) : OSet :=
  recs.foldl (fun x r => x ||| BitVec.ofNat 16 (ofBytesLE ((r.drop (p + 2 * n)).take 2))) 0

/-- FILL (R220, R221). -/
def execFill (x y : BitVec 8) (la : BitVec 4) (s : State) : Host.Outcome State Fault Refusal :=
  issue (.fill x y la) s fun i => do
    let i ← i.spillOperands y.toNat fun c => ⟨x.toNat, c, 1, 0, false, true⟩
    if i.p.em == 0 then .ok i.s
    else do
      let (sp, c) ← i.spillCtl y.toNat
      let rs := i.records x.toNat y.toNat c
      let as ← i.map sp 1 needLoad rs
      let v ← i.load 0 as
      let recs := as.map v.bytes
      let p := spillBytes c
      let val (l : Nat) : Nat := (as.find? (·.lane == l)).elim 0 fun a => ofBytesLE ((v.bytes a).take p)
      let set (r : Nat) : OSet := v.i.rset ||| accSet as ||| fillSet recs p (r - x.toNat / 8)
      let k := v.i.k.writeLater v.i.p.uid v.i.gpc v.i.pc (v.i.h.look la) v.i.p.em (regsOf x.toNat c) (sliceMask x.toNat c)
        (imageOf x.toNat c val) set (as.map LaneAcc.src)
      .ok (v.i.put (if sp == .g then k.touch rs else k))

end Sys2Proof.Machine
end

