-- ==== Sys2Proof/Machine/Dispatch.lean ====
section
/-! DEFINITION. One arm for each row of the table. -/

namespace Sys2Proof.Machine

def exec (i : Instr) (s : State) : Host.Outcome State Fault Refusal :=
  match i with
  | .add w d a b => Sys2Proof.Machine.execAdd w d a b s
  | .sub w d a b => Sys2Proof.Machine.execSub w d a b s
  | .mul w d a b => Sys2Proof.Machine.execMul w d a b s
  | .mulh w d a b => Sys2Proof.Machine.execMulh w d a b s
  | .mulhu w d a b => Sys2Proof.Machine.execMulhu w d a b s
  | .mad w d a b => Sys2Proof.Machine.execMad w d a b s
  | .min w d a b => Sys2Proof.Machine.execMin w d a b s
  | .max w d a b => Sys2Proof.Machine.execMax w d a b s
  | .minu w d a b => Sys2Proof.Machine.execMinu w d a b s
  | .maxu w d a b => Sys2Proof.Machine.execMaxu w d a b s
  | .adds w d a b => Sys2Proof.Machine.execAdds w d a b s
  | .subs w d a b => Sys2Proof.Machine.execSubs w d a b s
  | .addus w d a b => Sys2Proof.Machine.execAddus w d a b s
  | .subus w d a b => Sys2Proof.Machine.execSubus w d a b s
  | .and w d a b => Sys2Proof.Machine.execAnd w d a b s
  | .or w d a b => Sys2Proof.Machine.execOr w d a b s
  | .xor w d a b => Sys2Proof.Machine.execXor w d a b s
  | .andn w d a b => Sys2Proof.Machine.execAndn w d a b s
  | .shl w d a b => Sys2Proof.Machine.execShl w d a b s
  | .shr w d a b => Sys2Proof.Machine.execShr w d a b s
  | .sar w d a b => Sys2Proof.Machine.execSar w d a b s
  | .rot w d a b => Sys2Proof.Machine.execRot w d a b s
  | .bfx w d a b => Sys2Proof.Machine.execBfx w d a b s
  | .bfi w d a b => Sys2Proof.Machine.execBfi w d a b s
  | .cmpeq w d a b => Sys2Proof.Machine.execCmpeq w d a b s
  | .cmpne w d a b => Sys2Proof.Machine.execCmpne w d a b s
  | .cmplt w d a b => Sys2Proof.Machine.execCmplt w d a b s
  | .cmple w d a b => Sys2Proof.Machine.execCmple w d a b s
  | .cmpltu w d a b => Sys2Proof.Machine.execCmpltu w d a b s
  | .cmpleu w d a b => Sys2Proof.Machine.execCmpleu w d a b s
  | .sel w d a b => Sys2Proof.Machine.execSel w d a b s
  | .dot8I4 d a b => Sys2Proof.Machine.execDot8I4 d a b s
  | .dot4I8 d a b => Sys2Proof.Machine.execDot4I8 d a b s
  | .dot2B16 d a b => Sys2Proof.Machine.execDot2B16 d a b s
  | .addi w d a imm => Sys2Proof.Machine.execAddi w d a imm s
  | .andi w d a imm => Sys2Proof.Machine.execAndi w d a imm s
  | .ori w d a imm => Sys2Proof.Machine.execOri w d a imm s
  | .xori w d a imm => Sys2Proof.Machine.execXori w d a imm s
  | .shli w d a imm => Sys2Proof.Machine.execShli w d a imm s
  | .shri w d a imm => Sys2Proof.Machine.execShri w d a imm s
  | .sari w d a imm => Sys2Proof.Machine.execSari w d a imm s
  | .cmpeqi w d a imm => Sys2Proof.Machine.execCmpeqi w d a imm s
  | .cmplti w d a imm => Sys2Proof.Machine.execCmplti w d a imm s
  | .movi w d imm => Sys2Proof.Machine.execMovi w d imm s
  | .mov w d a => Sys2Proof.Machine.execMov w d a s
  | .not w d a => Sys2Proof.Machine.execNot w d a s
  | .neg w d a => Sys2Proof.Machine.execNeg w d a s
  | .abs w d a => Sys2Proof.Machine.execAbs w d a s
  | .clz w d a => Sys2Proof.Machine.execClz w d a s
  | .ctz w d a => Sys2Proof.Machine.execCtz w d a s
  | .popc w d a => Sys2Proof.Machine.execPopc w d a s
  | .brev w d a => Sys2Proof.Machine.execBrev w d a s
  | .bswap w d a => Sys2Proof.Machine.execBswap w d a s
  | .fclass w d a => Sys2Proof.Machine.execFclass w d a s
  | .sxt w d a src => Sys2Proof.Machine.execSxt w d a src s
  | .zxt w d a src => Sys2Proof.Machine.execZxt w d a src s
  | .sqrt w d a => Sys2Proof.Machine.execSqrt w d a s
  | .rcp w d a => Sys2Proof.Machine.execRcp w d a s
  | .rsq w d a => Sys2Proof.Machine.execRsq w d a s
  | .exp2 w d a => Sys2Proof.Machine.execExp2 w d a s
  | .log2 w d a => Sys2Proof.Machine.execLog2 w d a s
  | .sin w d a => Sys2Proof.Machine.execSin w d a s
  | .cos w d a => Sys2Proof.Machine.execCos w d a s
  | .floor w d a => Sys2Proof.Machine.execFloor w d a s
  | .ceil w d a => Sys2Proof.Machine.execCeil w d a s
  | .trunc w d a => Sys2Proof.Machine.execTrunc w d a s
  | .rint w d a => Sys2Proof.Machine.execRint w d a s
  | .cvtFromE4M3 w d a => Sys2Proof.Machine.execCvtFromE4M3 w d a s
  | .cvtFromE5M2 w d a => Sys2Proof.Machine.execCvtFromE5M2 w d a s
  | .cvtToE4M3 w d a => Sys2Proof.Machine.execCvtToE4M3 w d a s
  | .cvtToE4M3Sat w d a => Sys2Proof.Machine.execCvtToE4M3Sat w d a s
  | .cvtToE5M2 w d a => Sys2Proof.Machine.execCvtToE5M2 w d a s
  | .cvtToE5M2Sat w d a => Sys2Proof.Machine.execCvtToE5M2Sat w d a s
  | .cvt w d a src uns rnd => Sys2Proof.Machine.execCvt w d a src uns rnd s
  | .bra disp => Sys2Proof.Machine.execBra disp s
  | .bz p disp => Sys2Proof.Machine.execBz p disp s
  | .bnz p disp => Sys2Proof.Machine.execBnz p disp s
  | .call d disp => Sys2Proof.Machine.execCall d disp s
  | .split p disp => Sys2Proof.Machine.execSplit p disp s
  | .launch x disp => Sys2Proof.Machine.execLaunch x disp s
  | .ret a => Sys2Proof.Machine.execRet a s
  | .jmpi a => Sys2Proof.Machine.execJmpi a s
  | .calli d a => Sys2Proof.Machine.execCalli d a s
  | .nop => Sys2Proof.Machine.execNop s
  | .exit => Sys2Proof.Machine.execExit s
  | .join => Sys2Proof.Machine.execJoin s
  | .yieldI => Sys2Proof.Machine.execYieldI s
  | .ldg w d n pol la => Sys2Proof.Machine.execLdg w d n pol la s
  | .stg w d n pol => Sys2Proof.Machine.execStg w d n pol s
  | .lds w d n la => Sys2Proof.Machine.execLds w d n la s
  | .ldc w d n la => Sys2Proof.Machine.execLdc w d n la s
  | .sts w d n => Sys2Proof.Machine.execSts w d n s
  | .stc w d n => Sys2Proof.Machine.execStc w d n s
  | .aadd ss g wc f n o la => Sys2Proof.Machine.execAadd ss g wc f n o la s
  | .amin ss g wc f n o la => Sys2Proof.Machine.execAmin ss g wc f n o la s
  | .amax ss g wc f n o la => Sys2Proof.Machine.execAmax ss g wc f n o la s
  | .aminu ss g wc f n o la => Sys2Proof.Machine.execAminu ss g wc f n o la s
  | .amaxu ss g wc f n o la => Sys2Proof.Machine.execAmaxu ss g wc f n o la s
  | .aand ss g wc f n o la => Sys2Proof.Machine.execAand ss g wc f n o la s
  | .aor ss g wc f n o la => Sys2Proof.Machine.execAor ss g wc f n o la s
  | .axor ss g wc f n o la => Sys2Proof.Machine.execAxor ss g wc f n o la s
  | .axchg ss g wc f n o la => Sys2Proof.Machine.execAxchg ss g wc f n o la s
  | .acas ss g wc f n o la => Sys2Proof.Machine.execAcas ss g wc f n o la s
  | .shfl w d a b => Sys2Proof.Machine.execShfl w d a b s
  | .ballot d a => Sys2Proof.Machine.execBallot d a s
  | .eqmask w d a => Sys2Proof.Machine.execEqmask w d a s
  | .any w d a => Sys2Proof.Machine.execAny w d a s
  | .all w d a => Sys2Proof.Machine.execAll w d a s
  | .rds w d num => Sys2Proof.Machine.execRds w d num s
  | .wrsEm a => Sys2Proof.Machine.execWrsEm a s
  | .wrsSw a => Sys2Proof.Machine.execWrsSw a s
  | .krd d k => Sys2Proof.Machine.execKrd d k s
  | .kwr k a => Sys2Proof.Machine.execKwr k a s
  | .rdcyc d => Sys2Proof.Machine.execRdcyc d s
  | .lblr d a => Sys2Proof.Machine.execLblr d a s
  | .lblq d a => Sys2Proof.Machine.execLblq d a s
  | .bar b => Sys2Proof.Machine.execBar b s
  | .bararr b y la => Sys2Proof.Machine.execBararr b y la s
  | .barwait b y => Sys2Proof.Machine.execBarwait b y s
  | .bardrop b => Sys2Proof.Machine.execBardrop b s
  | .sbinit x y => Sys2Proof.Machine.execSbinit x y s
  | .sbarr x y la => Sys2Proof.Machine.execSbarr x y la s
  | .sbexp x y => Sys2Proof.Machine.execSbexp x y s
  | .sbwait x y => Sys2Proof.Machine.execSbwait x y s
  | .sbdrop y => Sys2Proof.Machine.execSbdrop y s
  | .bitwait x y => Sys2Proof.Machine.execBitwait x y s
  | .spawn x y la => Sys2Proof.Machine.execSpawn x y la s
  | .fence ord sc => Sys2Proof.Machine.execFence ord sc s
  | .clean x y => Sys2Proof.Machine.execClean x y s
  | .inval x y => Sys2Proof.Machine.execInval x y s
  | .pref x y => Sys2Proof.Machine.execPref x y s
  | .ipref x y => Sys2Proof.Machine.execIpref x y s
  | .icinv x y => Sys2Proof.Machine.execIcinv x y s
  | .stream x y la => Sys2Proof.Machine.execStream x y la s
  | .streamx y => Sys2Proof.Machine.execStreamx y s
  | .spill x y => Sys2Proof.Machine.execSpill x y s
  | .fill x y la => Sys2Proof.Machine.execFill x y la s
  | .ibar => Sys2Proof.Machine.execIbar s
  | .syscall imm => Sys2Proof.Machine.execSyscall imm s
  | .trap imm => Sys2Proof.Machine.execTrap imm s
  | .brk imm => Sys2Proof.Machine.execBrk imm s
  | .tack idx => Sys2Proof.Machine.execTack idx s
  | .uint d a => Sys2Proof.Machine.execUint d a s
  | .wcopy x y sp => Sys2Proof.Machine.execWcopy x y sp s
  | .wgath x y sp => Sys2Proof.Machine.execWgath x y sp s
  | .wscat x y sp => Sys2Proof.Machine.execWscat x y sp s
  | .wfill x y sp => Sys2Proof.Machine.execWfill x y sp s
  | .wsend x => Sys2Proof.Machine.execWsend x s
  | .wcollSumF32 x => Sys2Proof.Machine.execWcollSumF32 x s
  | .wcollSumB16 x => Sys2Proof.Machine.execWcollSumB16 x s
  | .wcollSumI32 x => Sys2Proof.Machine.execWcollSumI32 x s
  | .wcollGather x => Sys2Proof.Machine.execWcollGather x s
  | .wcollBcast x => Sys2Proof.Machine.execWcollBcast x s
  | .mbayBay x y la => Sys2Proof.Machine.execMbayBay x y la s
  | .mbayAcc x y la => Sys2Proof.Machine.execMbayAcc x y la s
  | .mwload x => Sys2Proof.Machine.execMwload x s
  | .mma x => Sys2Proof.Machine.execMma x s
  | .mdrain x => Sys2Proof.Machine.execMdrain x s
  | .mzero x => Sys2Proof.Machine.execMzero x s
  | .mfreeBay x y => Sys2Proof.Machine.execMfreeBay x y s
  | .mfreeAcc x y => Sys2Proof.Machine.execMfreeAcc x y s
  | .close x cls la => Sys2Proof.Machine.execClose x cls la s
  | .waitb y cls => Sys2Proof.Machine.execWaitb y cls s
  | .testb x y cls la => Sys2Proof.Machine.execTestb x y cls la s
  | .qpush x y la => Sys2Proof.Machine.execQpush x y la s
  | .qpop x y la => Sys2Proof.Machine.execQpop x y la s
  | .qtry x y la => Sys2Proof.Machine.execQtry x y la s
  | .setfr y => Sys2Proof.Machine.execSetfr y s
  | .getfr x la => Sys2Proof.Machine.execGetfr x la s
  | .ximm p => Sys2Proof.Machine.execXimm p s
  | .offs p => Sys2Proof.Machine.execOffs p s
  | .perm p => Sys2Proof.Machine.execPerm p s
  | .mixw p => Sys2Proof.Machine.execMixw p s
  | .lka l => Sys2Proof.Machine.execLka l s
  | .longLatencyWriteLands sid => Sys2Proof.Machine.execLongLatencyWriteLands sid s
  | .loadDataError sid lanes level clean => Sys2Proof.Machine.execLoadDataError sid lanes level clean s
  | .joinDeadlock sid => Sys2Proof.Machine.execJoinDeadlock sid s
  | .sbwaitPoll sid uid => Sys2Proof.Machine.execSbwaitPoll sid uid s
  | .bitwaitPoll sid uid => Sys2Proof.Machine.execBitwaitPoll sid uid s
  | .yieldRelease sid uid => Sys2Proof.Machine.execYieldRelease sid uid s
  | .spawnBinTimer cl bin => Sys2Proof.Machine.execSpawnBinTimer cl bin s
  | .blockRetire grid blk => Sys2Proof.Machine.execBlockRetire grid blk s
  | .blockPlacement cl => Sys2Proof.Machine.execBlockPlacement cl s
  | .dependencyPoll grid blk => Sys2Proof.Machine.execDependencyPoll grid blk s
  | .streamFetch core slot => Sys2Proof.Machine.execStreamFetch core slot s
  | .fetchAhead sid uid va => Sys2Proof.Machine.execFetchAhead sid uid va s
  | .instructionFetchFill core line => Sys2Proof.Machine.execInstructionFetchFill core line s
  | .translationParkResolve cl entry => Sys2Proof.Machine.execTranslationParkResolve cl entry s
  | .translationInvalidate ctx va => Sys2Proof.Machine.execTranslationInvalidate ctx va s
  | .pcieCompletion sid uid status => Sys2Proof.Machine.execPcieCompletion sid uid status s
  | .pcieCompletionTimeout sid uid => Sys2Proof.Machine.execPcieCompletionTimeout sid uid s
  | .writebackUndelivered pa => Sys2Proof.Machine.execWritebackUndelivered pa s
  | .pciePostedWrite pa data => Sys2Proof.Machine.execPciePostedWrite pa data s
  | .chipletDeviceAccess dom core pa op => Sys2Proof.Machine.execChipletDeviceAccess dom core pa op s
  | .wringerLineWrite sid cmd => Sys2Proof.Machine.execWringerLineWrite sid cmd s
  | .mangleCommandStart cl => Sys2Proof.Machine.execMangleCommandStart cl s
  | .mangleCommandComplete sid => Sys2Proof.Machine.execMangleCommandComplete sid s
  | .waitbReturn sid uid => Sys2Proof.Machine.execWaitbReturn sid uid s
  | .wsendRemoteWrite id num op => Sys2Proof.Machine.execWsendRemoteWrite id num op s
  | .wcollMatch sid cmd remote => Sys2Proof.Machine.execWcollMatch sid cmd remote s
  | .sorterSample cl => Sys2Proof.Machine.execSorterSample cl s
  | .timeSliceEnd ctx => Sys2Proof.Machine.execTimeSliceEnd ctx s
  | .engineDrain ctx cl => Sys2Proof.Machine.execEngineDrain ctx cl s
  | .graceDeadline ctx cl => Sys2Proof.Machine.execGraceDeadline ctx cl s
  | .watchdog ctx cl => Sys2Proof.Machine.execWatchdog ctx cl s
  | .contextResume ctx cl => Sys2Proof.Machine.execContextResume ctx cl s
  | .blockDrop grid blk => Sys2Proof.Machine.execBlockDrop grid blk s
  | .skeinResume sid => Sys2Proof.Machine.execSkeinResume sid s
  | .resumeMask sid uid mask => Sys2Proof.Machine.execResumeMask sid uid mask s
  | .finwesinStopAction cl => Sys2Proof.Machine.execFinwesinStopAction cl s
  | .clusterConfirm ctx cl => Sys2Proof.Machine.execClusterConfirm ctx cl s
  | .timeCall sid uid lane => Sys2Proof.Machine.execTimeCall sid uid lane s
  | .memAlloc sid uid lane => Sys2Proof.Machine.execMemAlloc sid uid lane s
  | .memUnmap sid uid lane => Sys2Proof.Machine.execMemUnmap sid uid lane s
  | .tagWiden sid uid lane => Sys2Proof.Machine.execTagWiden sid uid lane s
  | .fileOpen sid uid lane ext => Sys2Proof.Machine.execFileOpen sid uid lane ext s
  | .fileRead sid uid lane ext => Sys2Proof.Machine.execFileRead sid uid lane ext s
  | .fileWrite sid uid lane ext => Sys2Proof.Machine.execFileWrite sid uid lane ext s
  | .fileClose sid uid lane => Sys2Proof.Machine.execFileClose sid uid lane s
  | .sockCreate sid uid lane ext => Sys2Proof.Machine.execSockCreate sid uid lane ext s
  | .sockSend sid uid lane ext => Sys2Proof.Machine.execSockSend sid uid lane ext s
  | .sockRecv sid uid lane data => Sys2Proof.Machine.execSockRecv sid uid lane data s
  | .sockClose sid uid lane => Sys2Proof.Machine.execSockClose sid uid lane s
  | .egress sid uid lane ext => Sys2Proof.Machine.execEgress sid uid lane ext s
  | .basketCreate sid uid lane => Sys2Proof.Machine.execBasketCreate sid uid lane s
  | .basketDestroy sid uid lane => Sys2Proof.Machine.execBasketDestroy sid uid lane s
  | .stageRegister sid uid lane => Sys2Proof.Machine.execStageRegister sid uid lane s
  | .stageRemove sid uid lane => Sys2Proof.Machine.execStageRemove sid uid lane s
  | .spawnConfig sid uid lane => Sys2Proof.Machine.execSpawnConfig sid uid lane s
  | .collGroup sid uid lane => Sys2Proof.Machine.execCollGroup sid uid lane s
  | .uintRegister sid uid lane => Sys2Proof.Machine.execUintRegister sid uid lane s
  | .uintUnregister sid uid lane => Sys2Proof.Machine.execUintUnregister sid uid lane s
  | .unlistedCall sid uid lane => Sys2Proof.Machine.execUnlistedCall sid uid lane s
  | .submit vf => Sys2Proof.Machine.execSubmit vf s
  | .mapReq vf => Sys2Proof.Machine.execMapReq vf s
  | .unmapReq vf => Sys2Proof.Machine.execUnmapReq vf s
  | .uireg vf => Sys2Proof.Machine.execUireg vf s
  | .uiunreg vf => Sys2Proof.Machine.execUiunreg vf s
  | .invalidRequest vf => Sys2Proof.Machine.execInvalidRequest vf s
  | .queueNotify vf q chains => Sys2Proof.Machine.execQueueNotify vf q chains s
  | .functionLevelReset vf => Sys2Proof.Machine.execFunctionLevelReset vf s
  | .virtioStatusReset vf => Sys2Proof.Machine.execVirtioStatusReset vf s
  | .seamFailure seam inFlight => Sys2Proof.Machine.execSeamFailure seam inFlight s
  | .routeFailure part module => Sys2Proof.Machine.execRouteFailure part module s
  | .nvmeCompletion cmd => Sys2Proof.Machine.execNvmeCompletion cmd s
  | .nvmeAbortTimeout cmd abortFails => Sys2Proof.Machine.execNvmeAbortTimeout cmd abortFails s
  | .moduleReset cfg => Sys2Proof.Machine.execModuleReset cfg s
  | .powerCapExceeded watts => Sys2Proof.Machine.execPowerCapExceeded watts s
  | .thermalThrottle die temp => Sys2Proof.Machine.execThermalThrottle die temp s
  | .thermalShutdown die temp => Sys2Proof.Machine.execThermalShutdown die temp s
  | .inventoryRefresh => Sys2Proof.Machine.execInventoryRefresh s
  | .discardedWrite pos data => Sys2Proof.Machine.execDiscardedWrite pos data s
  | .drain part flags tag => Sys2Proof.Machine.execDrain part flags tag s
  | .resume part flags tag => Sys2Proof.Machine.execResume part flags tag s
  | .releaseHold grid tag => Sys2Proof.Machine.execReleaseHold grid tag s
  | .attach grid tag => Sys2Proof.Machine.execAttach grid tag s
  | .detach grid tag => Sys2Proof.Machine.execDetach grid tag s
  | .policy total off bytes tag => Sys2Proof.Machine.execPolicy total off bytes tag s
  | .attest nonce part off tag => Sys2Proof.Machine.execAttest nonce part off tag s
  | .cap watts tag => Sys2Proof.Machine.execCap watts tag s
  | .dbgEvent tag => Sys2Proof.Machine.execDbgEvent tag s
  | .dbgRead item tag => Sys2Proof.Machine.execDbgRead item tag s
  | .dbgWrite item data tag => Sys2Proof.Machine.execDbgWrite item data tag s
  | .dbgResume item tag => Sys2Proof.Machine.execDbgResume item tag s
  | .invalidCommand cmd len tag => Sys2Proof.Machine.execInvalidCommand cmd len tag s
  | .freezeAssert => Sys2Proof.Machine.execFreezeAssert s
  | .freezeRelease withReset => Sys2Proof.Machine.execFreezeRelease withReset s
  | .scansel chain => Sys2Proof.Machine.execScansel chain s
  | .scanout => Sys2Proof.Machine.execScanout s
  | .idcode => Sys2Proof.Machine.execIdcode s
  | .bypass => Sys2Proof.Machine.execBypass s
  | .illegalInstruction word => Sys2Proof.Machine.execIllegalInstruction word s
  | .storePerformed sid idx => Sys2Proof.Machine.execStorePerformed sid idx s
  | .codeObjectLoad ctx obj => Sys2Proof.Machine.execCodeObjectLoad ctx obj s
  | .finwesinSubmission ctx desc => Sys2Proof.Machine.execFinwesinSubmission ctx desc s
  | .devicePageGrant ctx va dom => Sys2Proof.Machine.execDevicePageGrant ctx va dom s
  | .applicationCoreAccess core pa op => Sys2Proof.Machine.execApplicationCoreAccess core pa op s
  | .memoryWindowRead vf pos len => Sys2Proof.Machine.execMemoryWindowRead vf pos len s
  | .commonConfigurationWrite vf off data => Sys2Proof.Machine.execCommonConfigurationWrite vf off data s
  | .hbmStackOffline stack => Sys2Proof.Machine.execHbmStackOffline stack s
  | .engineTimeout sid => Sys2Proof.Machine.execEngineTimeout sid s
  | .backInsideLimits => Sys2Proof.Machine.execBackInsideLimits s
  | .controllerResetComplete ctrl => Sys2Proof.Machine.execControllerResetComplete ctrl s

end Sys2Proof.Machine
end

