-- ==== Sys2Proof/Machine/Step.lean ====
section
/-! DEFINITION. One move of the machine: the next event on the agenda, the delivery of a command fault, one word issued at
the next port that has one, or the end of the cycle (R138, R275, log 2). -/

namespace Sys2Proof.Machine

/-- The rows that are words; an agenda holds none, and one found there is passed over. -/
def isWord (i : Instr) : Bool :=
  match i with
  | .illegalInstruction _ => true
  | _ => (encode i).isSome

/-- The instruction a fetched word is (R86). -/
def instrOf (w : Word) : Instr :=
  match decode w with
  | .ok i => i
  | .error _ => .illegalInstruction w

/-- The lanes and address of a fetch fault (R200). -/
def fetchVas (p : Split) : List (Nat × Nat) :=
  if p.em = 0#32 then [(lowest p.members, p.pc.toNat)] else (lanesOf p.em).map fun l => (l, p.pc.toNat)

/-- The issuing split performs the instruction of a replay (R200), or fetches its next word and runs it, or meets the fetch
fault of R72 and R87. -/
def runWord (s : State) : Host.Outcome State Fault Refusal :=
  match s.current with
  | none => .next { s with issuing := none }
  | some (k, p) =>
    let gpc := p.hints.gpc.getD p.pc
    match p.again with
    | some r => exec r.instr s
    | none => match s.fetch k p with
      | .word w t => exec (instrOf w) t
      | .fault code t => .next (t.trapStop k p gpc p.pc code p.em (fetchVas p) p.co)
      | .park bad => .next (s.meetFault k p gpc p.pc 0 (fetchVas p) bad none)
      | .wait line => .next (s.stallOn k p (.fetch line))

/-- The clocks do not run: FREEZE holds, or the module is in THERMAL (R375, R432). -/
def State.halted (s : State) : Bool := s.frozen || s.stopped

/-- The cycle that begins is a gated one, in which no port issues: which cycles are is left to the controller (R432, log 7). -/
def State.idleCycle (s : State) : Bool := s.gated && s.turn == 0 && Config.freeBit s.free

/-- One move. A move that a stopped clock does not give is passed over (R432). While FREEZE holds only the links' timeouts go on (R375). -/
def step (s : State) : Host.Outcome State Fault Refusal :=
  match s.agenda with
  | i :: rest => if isWord i || !s.mayMove i then .next { s with agenda := rest } else exec i ({ s with agenda := rest, issuing := none } : State).wake
  | [] =>
    if s.halted then .next { s with frozenTicks := if s.frozen then s.frozenTicks + 1 else s.frozenTicks }
    else if s.idleCycle then .next (s.wake.tick true)
    else match s.wake.faultsDue with
      | some t => .next t
      | none => match s.wake.nextCand with
        | none => .next (s.wake.tick false)
        | some c => runWord (s.wake.startIssue c)

/-! ## A state whose next step runs a given word (log 3) -/

/-- The context of State.withFetchWord: partition 0, tenant 0, cluster 0, its root table at physical 0x1_0000. -/
def fetchCtx : Context :=
  { id := 0, part := 0, tenant := 0, readMask := 1, clusters := [0], root := 0x10000, vf := none, objs := [], regions := [],
    descs := [], nextDesc := 0, dbg := none, code := none, gids := [], ending := none, finished := false,
    onCl := [⟨0, .running, 0, false⟩], overrun := 0, graceOk := true, stale := [], domain := none, saved := [],
    savedBlocks := [] }

/-- Its grid: one block of one skein with the whole window, entered at address 0. -/
def fetchGrid : Grid :=
  { id := 0, ctx := 0, part := 0, tenant := 0, level := 0, prio := 0, idem := false, origin := .finwesin, entry := 0,
    bitmap := 0, producer := 0, g := 1, p := 0, m := 0, q := 0, c := 0, slices := 256, skeins := 1, spad := 0, acc := 0,
    bays := 0, spo := 0, kinit := [], kset := 1, next := 1, held := [], avail := [], retired := 0, accepted := 0,
    spawned := [], dropped := [] }

/-- Four tables that map the piece at virtual 0 to the frame at physical 0x5_0000, readable, writable and executable. -/
def fetchTables (m : List Host.Cell) : List Host.Cell :=
  memPut8 (memPut8 (memPut8 (memPut8 m 0x10000 (pteTable 2)) 0x20000 (pteTable 3)) 0x30000 (pteTable 4)) 0x40000
    (pteMake 0 5 0 7 0)

/-- The state with a word where the next step fetches: one skein placed at an address that holds the word and zeros. -/
def State.withFetchWord (s : State) (_nbits w : Nat) : State :=
  { s with
    mem := cellsWrite (fetchTables (cellsClear s.mem 0 0x60000)) 0x50000 (wordBytes (BitVec.ofNat 32 w)),
    ctxs := [fetchCtx], grids := [fetchGrid], blocks := [Block.fresh fetchGrid 0 0 [0]],
    skeins := [Skein.fresh 0 0 0 0 0 256 0 0 0xFFFFFFFF 1 0],
    clusters := s.clusters.modify 0 fun c => { c with online := true, fbuf := [] },
    cores := s.cores.modify 0 fun _ => Core.reset,
    failedUnits := [], agenda := [], turn := 0, issuing := none, frozen := false, stopped := false, gated := false }

end Sys2Proof.Machine
end

