-- ==== Sys2Proof/Machine/Rows.lean ====
section
/-! DEFINITION. The terms in which statements about words are made: when a word starts, what it is to complete, and the
lane instructions as one table (R87, R88). -/

namespace Sys2Proof.Machine

/-- A word starts: split `p` of skein `k` issues it, and its group raises no illegal-instruction trap (R70 to R87). -/
def Starts (i : Instr) (s : State) (k : Skein) (p : Split) : Prop :=
  s.current = some (k, p) ∧ groupFault i (p.hints.gpc.getD p.pc) p.pc p.hints = none

/-- A word completes with its own effect `t`; what every word does once it has issued follows (R31, R370, R373). -/
def Completes (i : Instr) (s : State) (k : Skein) (p : Split) (t : State) : Prop :=
  exec i s = .next (t.afterWord k.id p.uid (k.swlo.getLsbD 1) p.counted)

/-- A word ends in a precise trap (R72, R343, R344). -/
def Traps (i : Instr) (s : State) (k : Skein) (p : Split) (code : BitVec 16) (lfm : Mask) (addrs : List (Nat × Nat))
    (set : OSet) : Prop :=
  exec i s = .next (s.trapStop k p (p.hints.gpc.getD p.pc) p.pc code lfm addrs set)

/-- A word meets a cause in place of its effect: a trap, a park on a translation, a wait, or an error of what it reads (R87, R137, R200). -/
def Ends (i : Instr) (s : State) (k : Skein) (p : Split) (c : Check) : Prop :=
  let gpc := p.hints.gpc.getD p.pc
  match c with
  | .trap code lfm addrs set => Traps i s k p code lfm addrs set
  | .park kind vas bad kept => exec i s =
      .next (s.meetFault k p gpc p.pc kind vas bad (some ⟨i, p.pc, { p.hints with gpc := some gpc }, kept, p.counted⟩))
  | .stall on => exec i s = .next (s.stallOn k p on)
  | .send lanes t => exec i s = .next (t.stallOn (t.withSplit k p) p (.pcie lanes []))
  | .dataError code lfm addrs set t => exec i s = .next (t.trapStop (t.withSplit k p) p gpc p.pc code lfm addrs set)

/-- A lane instruction: the widths of d, a and b under its hints, their start slices, which of a, b and d it reads, and the
value it gives d from what it read (R88). -/
structure LaneRow where
  ws : Hints → Widths
  d : Nat
  a : Nat
  b : Nat
  useB : Bool
  useD : Bool
  value : Hints → Widths → Nat → Nat → Nat → Nat

/-- A row of format T (R59). -/
def rowT (w : Width) (d a : BitVec 8) (b : BitVec 7) (useD : Bool) (c : Widths → Nat → Nat → Nat → Nat) : LaneRow :=
  ⟨fun h => h.widths w, d.toNat, a.toNat, b.toNat, true, useD, fun _ => c⟩

/-- A row of format I (R61). -/
def rowI (w : Width) (d a : BitVec 8) (imm : BitVec 7) (sgn : Bool) (c : Widths → Nat → Int → Nat) : LaneRow :=
  ⟨fun h => h.widths w, d.toNat, a.toNat, 0, false, false, fun h v _ x _ => c v x (h.imm imm sgn)⟩

/-- A row of format U (R62). -/
def rowU (wd wa : Width) (d a : BitVec 8) (c : Nat → Nat) : LaneRow :=
  ⟨fun _ => ⟨wd, wa, wa⟩, d.toNat, a.toNat, 0, false, false, fun _ _ _ x _ => c x⟩

/-- The operands of a lane instruction in the order of its fields, its destination last. -/
def LaneRow.opds (r : LaneRow) (x : Iss) : List Opd :=
  let v := r.ws x.h
  [opdIn r.a v.a.slices (routed x.p.em x.h.srcA)] ++
    (if r.useB then [opdIn r.b v.b.slices (routed x.p.em x.h.srcB)] else []) ++
    (if r.useD then [opdIn r.d v.d.slices x.p.em] else []) ++ [opdOut r.d v.d.slices]

/-- The value of d in a lane. -/
def LaneRow.at (r : LaneRow) (x : Iss) (l : Nat) : Nat :=
  let v := r.ws x.h
  r.value x.h v (x.raw l r.d v.d.slices) (x.raw (x.h.srcA l) r.a v.a.slices) (x.raw (x.h.srcB l) r.b v.b.slices)

/-- Whenever the word starts and its operands pass their checks, it completes: d takes the row's value in the active lanes,
with the join of the sets read (R24, R25, R30, R88). -/
def LaneRow.Gives (r : LaneRow) (i : Instr) : Prop :=
  ∀ (s : State) (k : Skein) (p : Split) (x : Iss), Starts i s k p →
    (Iss.start s k p).operands (r.opds (Iss.start s k p)) = .ok x →
    Completes i s k p (x.put (x.wr r.d (r.ws x.h).d.slices (r.at x) x.rset))

/-- The lane instructions but MOVI, which reads no register (R90 to R111). -/
def laneRow (i : Instr) : Option LaneRow :=
  match i with
  | .add w d a b => some (rowT w d a b false addC)
  | .sub w d a b => some (rowT w d a b false subC)
  | .mul w d a b => some (rowT w d a b false mulC)
  | .mulh w d a b => some (rowT w d a b false mulhC)
  | .mulhu w d a b => some (rowT w d a b false mulhuC)
  | .mad w d a b => some (rowT w d a b true madC)
  | .min w d a b => some (rowT w d a b false minC)
  | .max w d a b => some (rowT w d a b false maxC)
  | .minu w d a b => some (rowT w d a b false minuC)
  | .maxu w d a b => some (rowT w d a b false maxuC)
  | .adds w d a b => some (rowT w d a b false addsC)
  | .subs w d a b => some (rowT w d a b false subsC)
  | .addus w d a b => some (rowT w d a b false addusC)
  | .subus w d a b => some (rowT w d a b false subusC)
  | .and w d a b => some (rowT w d a b false andC)
  | .or w d a b => some (rowT w d a b false orC)
  | .xor w d a b => some (rowT w d a b false xorC)
  | .andn w d a b => some (rowT w d a b false andnC)
  | .shl w d a b => some (rowT w d a b false shlC)
  | .shr w d a b => some (rowT w d a b false shrC)
  | .sar w d a b => some (rowT w d a b false sarC)
  | .rot w d a b => some (rowT w d a b false rotC)
  | .bfx w d a b => some (rowT w d a b false bfxC)
  | .bfi w d a b => some (rowT w d a b true bfiC)
  | .cmpeq w d a b => some (rowT w d a b false (cmpC .eq))
  | .cmpne w d a b => some (rowT w d a b false (cmpC .ne))
  | .cmplt w d a b => some (rowT w d a b false (cmpC .lt))
  | .cmple w d a b => some (rowT w d a b false (cmpC .le))
  | .cmpltu w d a b => some (rowT w d a b false (cmpC .ltu))
  | .cmpleu w d a b => some (rowT w d a b false (cmpC .leu))
  | .sel w d a b =>
    some ⟨fun _ => ⟨w, w, .i4⟩, d.toNat, a.toNat, b.toNat, true, true,
      fun _ _ dv av bv => if bv % 2 = 1 then av else dv⟩
  | .dot8I4 d a b =>
    some ⟨fun _ => ⟨.i32, .i32, .i32⟩, d.toNat, a.toNat, b.toNat, true, true,
      fun _ _ x y z => wrap 32 (x + dotInt 4 8 y z)⟩
  | .dot4I8 d a b =>
    some ⟨fun _ => ⟨.i32, .i32, .i32⟩, d.toNat, a.toNat, b.toNat, true, true,
      fun _ _ x y z => wrap 32 (x + dotInt 8 4 y z)⟩
  | .dot2B16 d a b => some ⟨fun _ => ⟨.i32, .i32, .i32⟩, d.toNat, a.toNat, b.toNat, true, true, fun _ _ => dot2C⟩
  | .addi w d a imm => some (rowI w d a imm true fun v x n => wrap v.d.bits (sx v.a x + n))
  | .andi w d a imm => some (rowI w d a imm false fun v x n => (x &&& n.toNat) % 2 ^ v.d.bits)
  | .ori w d a imm => some (rowI w d a imm false fun v x n => (x ||| n.toNat) % 2 ^ v.d.bits)
  | .xori w d a imm => some (rowI w d a imm false fun v x n => (x ^^^ n.toNat) % 2 ^ v.d.bits)
  | .shli w d a imm => some (rowI w d a imm false fun v x n => shlBy v.d x (n.toNat % v.d.bits))
  | .shri w d a imm => some (rowI w d a imm false fun v x n => shrBy v.d x (n.toNat % v.d.bits))
  | .sari w d a imm => some (rowI w d a imm false fun v x n => sarBy v.d v.a x (n.toNat % v.d.bits))
  | .cmpeqi w d a imm => some (rowI w d a imm true fun v x n => predicate v.d.bits (x == wrap v.a.bits n))
  | .cmplti w d a imm => some (rowI w d a imm true fun v x n => predicate v.d.bits (decide (sx v.a x < n)))
  | .mov w d a => some (rowU w w d a id)
  | .not w d a => some (rowU w w d a (fun x => 2 ^ w.bits - 1 - x))
  | .neg w d a => some (rowU w w d a (negC w))
  | .abs w d a => some (rowU w w d a (absC w))
  | .clz w d a => some (rowU w w d a (clzN w.bits))
  | .ctz w d a => some (rowU w w d a (ctzN w.bits))
  | .popc w d a => some (rowU w w d a (popcN w.bits))
  | .brev w d a => some (rowU w w d a (brevN w.bits))
  | .bswap w d a => some (rowU w w d a (bswapN w.bits))
  | .fclass w d a => some (rowU .i16 w d a (fmtOf w).classMask)
  | .sxt w d a src => some (rowU w (extWidth src) d a fun x => wrap w.bits (sx (extWidth src) x))
  | .zxt w d a src => some (rowU w (extWidth src) d a id)
  | .sqrt w d a => some (rowU w w d a fun x => toFl w (fl w x).sqrt)
  | .rcp w d a => some (rowU w w d a fun x => toFl w (fl w x).rcp)
  | .rsq w d a => some (rowU w w d a fun x => toFl w (fl w x).rsq)
  | .exp2 w d a => some (rowU w w d a fun x => toFl w (fl w x).exp2)
  | .log2 w d a => some (rowU w w d a fun x => toFl w (fl w x).log2)
  | .sin w d a => some (rowU w w d a fun x => toFl w (fl w x).sin)
  | .cos w d a => some (rowU w w d a fun x => toFl w (fl w x).cos)
  | .floor w d a => some (rowU w w d a fun x => toFl w ((fl w x).integral .rm))
  | .ceil w d a => some (rowU w w d a fun x => toFl w ((fl w x).integral .rp))
  | .trunc w d a => some (rowU w w d a fun x => toFl w ((fl w x).integral .rz))
  | .rint w d a => some (rowU w w d a fun x => toFl w ((fl w x).integral .rne))
  | .cvtFromE4M3 w d a => some (rowU w .i8 d a fun x => toFl w (fmtE4M3.value x))
  | .cvtFromE5M2 w d a => some (rowU w .i8 d a fun x => toFl w (fmtE5M2.value x))
  | .cvtToE4M3 w d a => some (rowU .i8 w d a fun x => fmtE4M3.roundFp8 false (fl w x))
  | .cvtToE4M3Sat w d a => some (rowU .i8 w d a fun x => fmtE4M3.roundFp8 true (fl w x))
  | .cvtToE5M2 w d a => some (rowU .i8 w d a fun x => fmtE5M2.roundFp8 false (fl w x))
  | .cvtToE5M2Sat w d a => some (rowU .i8 w d a fun x => fmtE5M2.roundFp8 true (fl w x))
  | .cvt w d a src uns rnd => some (rowU w src d a (cvtC w src (uns == 1#1) (Rnd.of rnd.toNat)))
  | _ => none

/-- The destination of a lane instruction under its hints: start slice and number of slices. -/
def laneOut (i : Instr) (h : Hints) : Option (Nat × Nat) :=
  match i with
  | .movi w d _ => some (d.toNat, w.slices)
  | _ => (laneRow i).map fun r => (r.d, (r.ws h).d.slices)

/-- The number that a finite value is. -/
def Fl.num (n : Bool) (m : Nat) (e : Int) : Rat := (if n then -(m : Rat) else m) * 2 ^ e

/-- What a mode gives for an exact magnitude of a sign: a neighbouring integer, to nearest even the nearest (R107, R108). -/
def Rnd.gives (r : Rnd) (neg : Bool) (x : Rat) (n : Nat) : Prop :=
  let down := (n : Rat) ≤ x ∧ x < n + 1
  let up := x ≤ n ∧ (n : Rat) < x + 1
  match r with
  | .rz => down
  | .rm => if neg then up else down
  | .rp => if neg then down else up
  | .rne => 2 * (n : Rat) ≤ 2 * x + 1 ∧ 2 * x ≤ 2 * n + 1 ∧ (2 * (n : Rat) = 2 * x + 1 ∨ 2 * x = 2 * n + 1 → n % 2 = 0)

/-- The exponent of the last place to which a magnitude m · 2^e is rounded in a format: its leading bit less the fraction, and
no lower than the subnormals' (R110, R111). -/
def Fmt.place (f : Fmt) (m : Nat) (e : Int) : Int := max ((m.log2 : Int) + e) (1 - (f.bias : Int)) - f.mb

/-- What a positive magnitude of a sign rounds to in a format, to nearest even: `out` is the nearest multiple of the last place of the
magnitude, or an infinity beyond the largest finite value (R89, R106). -/
def Fmt.isNearest (f : Fmt) (neg : Bool) (x : Real) (out : Nat) : Prop :=
  let low : Int := 1 - (f.bias : Int)
  ∃ (q : Int) (n : Nat),
    ((q + f.mb = low ∧ x < 2 ^ (low + 1)) ∨ (low < q + f.mb ∧ 2 ^ (q + f.mb) ≤ x ∧ x < 2 ^ (q + f.mb + 1))) ∧
    |(n : Real) * 2 ^ q - x| ≤ 2 ^ q / 2 ∧ (|(n : Real) * 2 ^ q - x| = 2 ^ q / 2 → n % 2 = 0) ∧
    ((n : Rat) * 2 ^ q < 2 ^ ((f.bias : Int) + 1) → ∃ m e, f.value out = .fin neg m e ∧ (m : Rat) * 2 ^ e = n * 2 ^ q) ∧
    ((2 : Rat) ^ ((f.bias : Int) + 1) ≤ n * 2 ^ q →
      out = (if neg then 2 ^ (f.eb + f.mb) else 0) + (2 ^ f.eb - 1) * 2 ^ f.mb)

/-- The exact sum of some terms, a zero of which is −0 only when every term is negative (R89, R91). -/
def Fl.isSum (ts : List Fl) (v : Fl) : Prop :=
  match v with
  | .nan => .nan ∈ ts ∨ (.inf true ∈ ts ∧ .inf false ∈ ts)
  | .inf n => .nan ∉ ts ∧ .inf n ∈ ts ∧ .inf (!n) ∉ ts
  | .fin n m e => ∃ qs : List (Bool × Nat × Int), ts = qs.map (fun q => .fin q.1 q.2.1 q.2.2) ∧
      Fl.num n m e = (qs.map fun q => Fl.num q.1 q.2.1 q.2.2).sum ∧ (m = 0 → n = qs.all (·.1))

/-- The exact product of two factors (R89, R91). -/
def Fl.isProduct (a b v : Fl) : Prop :=
  (a = .nan ∨ b = .nan → v = .nan) ∧ (∀ n k, a = .inf n → b = .inf k → v = .inf (n ^^ k)) ∧
  (∀ n k m e, (a = .inf n ∧ b = .fin k m e) ∨ (b = .inf n ∧ a = .fin k m e) → v = if m = 0 then .nan else .inf (n ^^ k)) ∧
  ∀ n m e k p g, a = .fin n m e → b = .fin k p g → v = .fin (n ^^ k) (m * p) (e + g)

/-- The elements `xs` of a block of a row as the integers `ws` under the exponent E: the block exponent is the largest exponent of
a non-zero element, an infinity counting as the largest finite value of its sign, and each integer is its element scaled by
2^(F − E) and rounded to nearest even (R265, R266). -/
def isBlock (f : Fmt) (top : Nat) (F : Int) (xs : List Nat) (ws : List Int) (E : Int) : Prop :=
  let el (x : Nat) : Fl := match f.value x with
    | .inf n => f.value (if n then top + 2 ^ (f.eb + f.mb) else top)
    | v => v
  ws.length = xs.length ∧
  (∀ (j x : Nat), xs[j]? = some x → ∃ n m e N, el x = .fin n m e ∧ (m ≠ 0 → f.place m e + f.mb ≤ E) ∧
    Rnd.rne.gives n ((m : Rat) * 2 ^ (e + F - E)) N ∧ ws[j]? = some (if n then -(N : Int) else N)) ∧
  ((∃ x ∈ xs, ∃ n m e, el x = .fin n m e ∧ m ≠ 0 ∧ f.place m e + f.mb = E) ∨
    ((∀ x ∈ xs, ∃ n e, el x = .fin n 0 e) ∧ E = 1 - (f.bias : Int)))

/-- The product of a block of a row with the weights of a column and the scale of their group, as F32 (R267, R268). -/
def isBlockProduct (f : Fmt) (top : Nat) (F : Int) (xs : List Nat) (ws : List Int) (scale P : Nat) : Prop :=
  ((∃ x ∈ xs, f.value x = .nan) → P = 0x7FC00000) ∧
  ((∀ x ∈ xs, f.value x ≠ .nan) → ∃ (as : List Int) (E : Int), isBlock f top F xs as E ∧
    let D : Int := ((as.zip ws).map fun q => q.1 * q.2).sum
    P = match fmtF16.value scale with
      | .nan => 0x7FC00000
      | .inf n => if D = 0 then 0x7FC00000 else if n = decide (D < 0) then 0x7F800000 else 0xFF800000
      | .fin n m g => if m = 0 ∨ D = 0 then 0
        else fmtF32.round .rne (.fin (n != decide (D < 0)) (D.natAbs * m) (g + E - F)))

/-- An accumulator element that held c holds c' after a tile operation: the four products of its row, whose bytes stand from
`at0` on, and its column are added in ascending K order, each sum rounded once (R267 to R269). -/
def isAccumulated (afmt : Nat) (bytes : List Byte) (at0 : Nat) (cell : Nat → Int) (scale : Nat → Nat) (c c' : Nat) : Prop :=
  let f := actFmt afmt
  let size := if afmt = 2 then 2 else 1
  let top := match afmt with | 0 => 0x7E | 1 => 0x7B | _ => 0x7F7F
  ∃ (cs ps : Nat → Nat), cs 0 = c ∧ cs 4 = c' ∧ ∀ b, b < 4 →
    isBlockProduct f top (if afmt = 2 then 15 else 7)
      ((List.range 32).map fun i => ofBytesLE ((bytes.drop (at0 + (32 * b + i) * size)).take size))
      ((List.range 32).map fun i => cell (32 * b + i)) (scale b) (ps b) ∧
    ∃ X, Fl.isSum [fmtF32.value (cs b), fmtF32.value (ps b)] X ∧ cs (b + 1) = fmtF32.round .rne X

/-- What MDRAIN writes for the accumulator element c at a row and column of its tile, under the output format, rounding,
saturation and phase of `fr` (R270, R271). -/
def isDrained (ofmt rnd sat row col phase c out : Nat) : Prop :=
  let f := match ofmt with | 1 => fmtF16 | 2 => fmtB16 | 3 => fmtE4M3 | _ => fmtE5M2
  let wide := ofmt ≤ 2
  let top : Rat := if ofmt = 3 then 448 else (2 - 1 / 2 ^ f.mb) * 2 ^ f.bias
  let topBits := if ofmt = 3 then 0x7E else (2 ^ f.eb - 1) * 2 ^ f.mb - 1
  let past := if wide then topBits + 1 else if sat = 1 then topBits else topBits + 1
  let sgn (n : Bool) (b : Nat) : Nat := if n then b + 2 ^ (f.eb + f.mb) else b
  let is (n : Bool) (X : Rat) : Prop := ∃ (m' : Nat) (e' : Int), f.value out = .fin n m' e' ∧ (m' : Rat) * 2 ^ e' = X
  (ofmt = 0 → out = c) ∧
  (ofmt ≠ 0 →
    (fmtF32.value c = .nan → out = f.nan) ∧
    (∀ n, fmtF32.value c = .inf n → out = sgn n past) ∧
    (∀ n e, fmtF32.value c = .fin n 0 e → out = sgn n 0) ∧
    ∀ (n : Bool) (m : Nat) (e : Int) (N Z : Nat), fmtF32.value c = .fin n m e → m ≠ 0 →
      let q := f.place m e
      let x : Rat := (m : Rat) * 2 ^ (e - q)
      let rne := ((N : Rat) * 2 ^ q ≤ top → is n (N * 2 ^ q)) ∧ (top < N * 2 ^ q → out = sgn n past)
      Rnd.rne.gives n x N → Rnd.rz.gives n x Z →
        (rnd = 0 → rne) ∧
        (rnd = 1 → (x * 2 ^ q ≤ top → is n (Z * 2 ^ q)) ∧ (top < x * 2 ^ q → out = sgn n topBits)) ∧
        (rnd = 2 →
          (x = Z ∨ top < x * 2 ^ q ∨ top < N * 2 ^ q → rne) ∧
          (x ≠ Z → x * 2 ^ q ≤ top → (N : Rat) * 2 ^ q ≤ top →
            let f6 := ((x - Z) * 64).floor.toNat
            let t := (ditherT.getD (row % 8 * 8 + col % 8) 0 + phase) % 64
            is n ((if 64 ≤ f6 + t then Z + 1 else Z : Nat) * 2 ^ q))))

/-- A load: its space, width, destination, address register, policy register and lookahead (R118, R207). -/
structure LoadRow where
  sp : Space
  w : Width
  d : BitVec 8
  n : BitVec 5
  pol : Nat
  la : BitVec 4

/-- The three loads. -/
def loadRow (i : Instr) : Option LoadRow :=
  match i with
  | .ldg w d n pol la => some ⟨.g, w, d, n, pol.toNat, la⟩
  | .lds w d n la => some ⟨.s, w, d, n, 0, la⟩
  | .ldc w d n la => some ⟨.c, w, d, n, 0, la⟩
  | _ => none

/-- A store: its space, width, data register, address register and policy register (R119, R207). -/
structure StoreRow where
  sp : Space
  w : Width
  d : BitVec 8
  n : BitVec 5
  pol : Nat

/-- The three stores. -/
def storeRow (i : Instr) : Option StoreRow :=
  match i with
  | .stg w d n pol => some ⟨.g, w, d, n, pol.toNat⟩
  | .sts w d n => some ⟨.s, w, d, n, 0⟩
  | .stc w d n => some ⟨.c, w, d, n, 0⟩
  | _ => none

/-- Two locations name one byte (R230). -/
def Loc.same (a b : Loc) : Prop := a.sp = b.sp ∧ a.addr = b.addr ∧ (a.sp = .g ∨ a.own = b.own)

/-- The lanes' ranges of an access of some bytes at the addresses of a register (R118). -/
def Iss.lanesAt (x : Iss) (n : BitVec 5) (bytes : Nat) : List (Nat × Nat × Nat) :=
  x.active.map fun l => (l, x.ea n l, bytes)

/-- The operation and the fields of an atomic (R65, R208). -/
def atomRow (i : Instr) : Option (AtomOp × AtomF) :=
  match i with
  | .aadd ss g wc f n o la => some (.add, ⟨ss, g, wc, f, n, o, la⟩)
  | .amin ss g wc f n o la => some (.min, ⟨ss, g, wc, f, n, o, la⟩)
  | .amax ss g wc f n o la => some (.max, ⟨ss, g, wc, f, n, o, la⟩)
  | .aminu ss g wc f n o la => some (.minu, ⟨ss, g, wc, f, n, o, la⟩)
  | .amaxu ss g wc f n o la => some (.maxu, ⟨ss, g, wc, f, n, o, la⟩)
  | .aand ss g wc f n o la => some (.and, ⟨ss, g, wc, f, n, o, la⟩)
  | .aor ss g wc f n o la => some (.or, ⟨ss, g, wc, f, n, o, la⟩)
  | .axor ss g wc f n o la => some (.xor, ⟨ss, g, wc, f, n, o, la⟩)
  | .axchg ss g wc f n o la => some (.xchg, ⟨ss, g, wc, f, n, o, la⟩)
  | .acas ss g wc f n o la => some (.cas, ⟨ss, g, wc, f, n, o, la⟩)
  | _ => none

/-- The operands of an atomic: the address pair, the data register, the swap register above it for ACAS, and the destination
but under COMM (R65, R209). -/
def AtomF.opds (f : AtomF) (op : AtomOp) (em : Mask) : List Opd :=
  let n := f.bits / 4
  let g := 8 * f.g.toNat
  [opdPair (8 * f.n.toNat) em, opdIn g n em] ++ (if op == .cas then [⟨g + n, n, 1, em, true, false⟩] else []) ++
    (if f.comm then [] else [opdOut g n])

/-- A load, store or atomic: its space, bytes, address register, kind of access, what it needs of a page, its operands, its policy register,
and whether R191's rule for stores applies to it (R197, R200). -/
structure AccessRow where
  sp : Space
  bytes : Nat
  n : BitVec 5
  kind : Nat
  need : Need
  ops : Mask → List Opd
  pol : Nat
  store : Bool

/-- The loads, stores and atomics. -/
def accessRow (i : Instr) : Option AccessRow :=
  match loadRow i, storeRow i, atomRow i with
  | some r, _, _ =>
    some ⟨r.sp, memBytes r.w, r.n, 1, needLoad, fun em => [opdPair (8 * r.n.toNat) em, opdOut r.d.toNat (memSlices r.w)], r.pol, false⟩
  | _, some r, _ =>
    some ⟨r.sp, memBytes r.w, r.n, 2, needStore, fun em => [opdPair (8 * r.n.toNat) em, opdIn r.d.toNat (memSlices r.w) em], r.pol, true⟩
  | _, _, some (op, f) => some ⟨f.space, f.bits / 8, f.n, 3, needAtomic, f.opds op, 0, false⟩
  | none, none, none => none

/-- A word on scratchpad barriers: its offset register, its other operands, whether it stores, whether it arrives and whether
it reads the object before it writes it, what the object must be, and its effect on the object at an offset (R223, R224). -/
structure SbRow where
  y : BitVec 8
  ops : Mask → List Opd
  store : Bool
  arrival : Bool
  init : Bool
  ok : Iss → SbObj → Bool
  effect : Iss → Block → Nat → SbObj → State

/-- The five words on scratchpad barriers. -/
def sbRow (i : Instr) : Option SbRow :=
  match i with
  | .sbinit x y =>
    let c (j : Iss) : Nat := j.raw (highest j.p.em) x.toNat 4
    some ⟨y, fun em => [opdIn x.toNat 4 (topLane em id)], true, false, true, fun j _ => c j != 0,
      fun j b off _ => j.s.sbPut b off ⟨0, c j, c j, 1, 0, 0⟩⟩
  | .sbarr x y la =>
    some ⟨y, fun _ => [opdOut x.toNat 4], true, true, false, fun _ o => o.flags == 1 && o.rest == 0, fun j b off o =>
      (j.put (j.wrLate (j.h.look la) x.toNat 4 (fun _ => o.phase) (j.rset ||| j.s.rangeSet (b.sloc off) 16) [])).sbPut
        b off (o.update 1 0)⟩
  | .sbexp x y =>
    some ⟨y, fun em => [opdIn x.toNat 8 (topLane em id)], true, false, false, fun _ o => o.flags == 1 && o.rest == 0,
      fun j b off o => j.s.sbPut b off (o.update 0 (j.raw (highest j.p.em) x.toNat 8))⟩
  | .sbwait x y =>
    some ⟨y, fun em => [opdIn x.toNat 4 em], false, false, false, fun _ o => o.flags == 1 && o.rest == 0, fun j _ off _ =>
      (j.put (j.k.modSplit j.p.uid fun q =>
        { q with st := .held (.sbwait (j.heldRedo (.sbwait x y)) off (j.active.map fun l => j.raw l x.toNat 4)) })).sbCheck j.k.id j.p.uid⟩
  | .sbdrop y =>
    some ⟨y, fun _ => [], true, true, false, fun _ o => o.flags == 1 && o.rest == 0,
      fun j b off o => j.s.sbPut b off (SbObj.update { o with n := (o.n + 65535) % 65536 } 1 0)⟩
  | _ => none

/-- The argument block of an engine command: a start at a multiple of four registers, its listed registers as offsets and
slices, and other operands, all in the highest active lane (R298, R299). -/
def argOpds (x : Nat) (regs other : List (Nat × Nat)) (em : Mask) : List Opd :=
  ⟨x, 0, 32, 0, false, false⟩ :: ((regs.map fun r => ⟨x + 8 * r.1, r.2, 1, topLane em id, true, false⟩) ++
    other.map fun r => ⟨r.1, r.2, 1, topLane em id, true, false⟩)

/-- The ten rows of the Wringer (R279). -/
def isWringer (i : Instr) : Bool :=
  match i with
  | .wcopy _ _ _ | .wfill _ _ _ | .wgath _ _ _ | .wscat _ _ _ | .wsend _ | .wcollSumF32 _ | .wcollSumB16 _
  | .wcollSumI32 _ | .wcollGather _ | .wcollBcast _ => true
  | _ => false

/-- The four command rows of the Mangle (R306). -/
def isMangleCommand (i : Instr) : Bool :=
  match i with
  | .mwload _ | .mma _ | .mdrain _ | .mzero _ => true
  | _ => false

/-- The state once a Wringer command is queued in its open batch: the errors met in its sources are counted, and the first is its
fault unless one was found before (R274 to R276, R348). -/
def Iss.queued (j : Iss) (c : Plan) : State :=
  let n := j.s.nextId
  let srcs := c.moves.filterMap Move.from? ++ c.srcs
  let met := j.s.meetErrors j.k.coreId n srcs
  let fault := if c.fault.isSome then c.fault else met.2
  let cmd : Cmd := ⟨n, j.k.lastW + 1, c.minor, c.sel, c.kind j.s n, j.s.lines j.k.die n c.owns c.moves, c.barrier, fault, c.pages,
    srcs ++ c.pins, fault.isSome, [], c.dst⟩
  { met.1 with nextId := n + 1 }.setSkein { j.k with cmds := j.k.cmds ++ [cmd] }

/-- The same of a Mangle command: the skein's queue and the module's next command number (R274, R290). -/
def Iss.queuedM (j : Iss) (kind : State → Nat → MKind) (set : OSet) (srcs : List Loc) (pages : List Nat) : Iss :=
  let n := j.s.nextId
  let met := j.s.meetErrors j.k.coreId n srcs
  let c : MCmd := ⟨n, j.k.lastM + 1, kind j.s n, set, none, met.2, pages, srcs⟩
  let k := { j.k with mq := j.k.mq ++ [c] }
  { j with k := k, s := { met.1 with nextId := n + 1 }.setSkein k }

/-- The unanswered call of a lane has a number (R355). -/
def Asks (s : State) (sid uid lane num : Nat) (r : Req) : Prop := s.request sid uid lane = some r ∧ r.call.num = num

/-- A call is answered with values and a service set, once the service has changed the state (R355, R357). -/
def Answers (i : Instr) (s : State) (r : Req) (t : State) (vals : List Nat) (set : OSet) : Prop :=
  exec i s = .next (t.answer r.k r.call r.argset vals set)

/-- What a mailbox holds when a command that came with its operand by its port has completed (R438, R439). -/
def mailOf (m : Mailbox) (cmd len : Nat) (tag : BitVec 64) (operand : List Byte) (status : BitVec 16) (result : List Byte) (total : Nat) :
    Mailbox :=
  let data := operand ++ m.data.drop operand.length
  ⟨BitVec.ofNat 32 cmd, BitVec.ofNat 32 len, tag, false, status, result.length, total, tag, result ++ data.drop result.length⟩

end Sys2Proof.Machine
end

