-- ==== Sys2Proof/Safety.lean ====
section
/-! DEFINITION. What counts as a safe run, in the terms the statements use. -/

namespace Sys2Proof.Machine

/-- The memory of every space is in canonical form, so that equal memories are equal data (R183, R186). -/
def State.memOk (s : State) : Prop :=
  Memory.wf s.mem = true ∧ (∀ b ∈ s.blocks, Memory.wf b.cells = true) ∧
    (∀ c ∈ s.clusters, ∀ w ∈ c.wins, Memory.wf w.cells = true) ∧
    ∀ c ∈ s.ctxs, ∀ b ∈ c.savedBlocks, Memory.wf b.cells = true

/-- The machine keeps its parts: 192 clusters of 8 cores on 24 dies, and 16 partitions (R123, R397, R434). -/
def State.shapeOk (s : State) : Prop :=
  s.clusters.length = 192 ∧ s.cores.length = 1536 ∧ s.dieSt.length = 24 ∧ s.parts.length = 16

end Sys2Proof.Machine
end

