-- ==== Sys2Proof/Certificates/Slice0/Obligations.lean ====
section
/-! DEFINITION. The statements about the model, each with the rule of the specification it formalises. -/

section

open Sys2Proof Sys2Proof.Machine

/-! ## Encoding -/

/-- R58 to R86: the decoder reads back every field of every word the encoder writes. -/
def Obligations.DecodeOfEncode : Prop :=
  ∀ (i : Instr) (w : Word) (rest : List Byte), encode i = some w → decodeBytes (wordBytes w ++ rest) = .ok (i, rest)

/-- R58 to R86: a word that the decoder accepts is the word of the instruction it stands for, so no bit is dropped and no
two words are one instruction. -/
def Obligations.EncodeOfDecode : Prop := ∀ (w : Word) (i : Instr), decode w = .ok i → encode i = some w

/-- R59 to R69, R209: words written out field by field from the formats, one or more of each format: T, I, U, M, LSC, ATOM, B, A and
H, and the SVC minors in the layout of I and of R61's own. -/
def Obligations.WordsOfTheFormats : Prop :=
  decode 0b000001_011_00001000_00010000_0011000#32 = .ok (.add .i32 8 16 24) ∧
  decode 0b101010_000_00000101_00000000_1111111#32 = .ok (.movi .i4 5 127) ∧
  decode 0b101011_001_00000011_00000010_0000011#32 = .ok (.abs .i8 3 2) ∧
  decode 0b101100_111_00000000_111111111111110#32 = .ok (.bra (-2)) ∧
  decode 0b110000_000_00000111_000000000000101#32 = .ok (.split 7 5) ∧
  decode 0b110010_011_00000000_00000000_0000000#32 = .ok .nop ∧
  decode 0b110010_100_00000000_00000000_0000000#32 = .ok .exit ∧
  decode 0b110011_011_00010000_00010_00_0001_0110#32 = .ok (.ldg .i32 16 2 1 6) ∧
  decode 0b110100_011_00010000_00010_00_0110_0000#32 = .ok (.stg .i32 16 2 6) ∧
  decode 0b110101_011_00001000_00010_00_00_0_0_0101#32 = .ok (.lds .i32 8 2 5) ∧
  decode 0b110101_010_00001000_00010_00_00_1_1_0000#32 = .ok (.stc .i16 8 2) ∧
  decode 0b110110_000_00011_00_1_00100_01_0000_0010#32 = .ok (.aadd 0 3 0 1 4 1 2) ∧
  decode 0b110110_100_00100_10_0_00010_11_1001_0000#32 = .ok (.acas 4 4 2 0 2 3 0) ∧
  decode 0b111001_010_00000001_00000010_001_0100#32 = .ok (.spawn 1 2 4) ∧
  decode 0b111010_000_00000000_00000010_011_0000#32 = .ok (.fence 2 3) ∧
  decode 0b111100_000_00100000_00001000_010_0000#32 = .ok (.wcopy 32 8 2) ∧
  decode 0b111101_001_00100000_00000000_000_0000#32 = .ok (.mwload 32) ∧
  decode 0b111110_011_00001000_00010000_000_0101#32 = .ok (.qpush 8 16 5) ∧
  decode 0b111011_000_00000000_00000000_0000101#32 = .ok (.syscall 5) ∧
  decode 0b111011_011_0000_000000000111_0000000#32 = .ok (.tack 7) ∧
  decode 0b111111_000_00000000000000000000001#32 = .ok (.ximm 1)

/-- R80 to R86: no word of an unassigned opcode, code or hint kind, none with a set bit in a reserved field, and none whose width,
function or operation code its row does not accept has an effect. The split stops with the illegal-instruction trap of
detail 0x00 and every lane of `em` in `lfm`, which is the model's choice among the lanes (log 25). The group stands without
hint words before it. The words of the hint major are
not among these: they are in HintWords. -/
def Obligations.UnassignedWordsTrap : Prop :=
  (∀ (w : Word) (e : Reject) (s : State) (k : Skein) (p : Split), decode w = .error e → fMajor w ≠ 0x3F → s.current = some (k, p) →
    p.hints.bad = none → p.hints.kinds = [] →
    exec (instrOf w) s = .next (s.trapStop k p (p.hints.gpc.getD p.pc) p.pc 0x8100 p.em [] p.co)) ∧
  ∀ (i : Instr) (s : State) (k : Skein) (p : Split), isWord i = true → accepts i = false → fMajor (wordOf i) ≠ 0x3F →
    s.current = some (k, p) →
    p.hints.bad = none → p.hints.kinds = [] →
    exec i s = .next (s.trapStop k p (p.hints.gpc.getD p.pc) p.pc 0x8100 p.em [] p.co)

/-! ## The step -/

/-- R138, R87: with an empty agenda and the clocks running, when no command fault is due and the word at the program counter
of the next port is fetched, the step is the meaning of what the decoder reads. A split whose replay waits performs the
instruction that met its fault instead of fetching (R120, R200). All this holds of the state in which the STALLED splits whose
causes are resolved are READY (R137), as StepWithoutAWord says. That ports issue one after another, and what a
replay keeps of its instruction, are the model's choices (logs 2 and 41). -/
def Obligations.StepRunsTheFetchedWord : Prop :=
  ∀ (s : State) (c : Cand) (k : Skein) (p : Split),
    s.agenda = [] → s.halted = false → s.idleCycle = false → s.wake.faultsDue = none → s.wake.nextCand = some c →
    let t0 := s.wake.startIssue c
    t0.current = some (k, p) →
    (p.again = none → ∀ (w : Word) (i : Instr) (t : State), t0.fetch k p = .word w t → decode w = .ok i →
      step s = exec i t) ∧
    ∀ r : Redo, p.again = some r → step s = exec r.instr t0

/-- R375, R432: an event on the agenda is taken before anything else, without an issuing split; one of a part whose clock the module
has stopped for heat is passed over, as is a word. With no event pending, a step while FREEZE holds counts a cycle for the links' timeouts and changes nothing else; one while the module is stopped for
heat changes nothing; and a gated cycle passes without any port issuing. Each of these moves but those of a halted module finds
every STALLED split of a running skein READY once its cause is resolved, one that a QPUSH held still counted at its basket
(R137, R296); the splits of a stopped skein stay as they are, which with READY from the first move after the resolution is the model's
reading (log 24). The agenda, which cycles are gated, how long a QPUSH counts, and which moves come of a part that heat has not
stopped, are the model's choices (logs 2, 7, 23 and 37). -/
def Obligations.StepWithoutAWord : Prop :=
  (∀ (s : State) (i : Instr) (rest : List Instr), s.agenda = i :: rest →
    (isWord i = false → s.stopped = false ∨ stoppedMove i = true →
      step s = exec i ({ s with agenda := rest, issuing := none } : State).wake) ∧
    (isWord i = true ∨ (s.stopped = true ∧ stoppedMove i = false) → step s = .next { s with agenda := rest })) ∧
  (∀ (s : State), s.agenda = [] →
    (s.frozen = true → step s = .next { s with frozenTicks := s.frozenTicks + 1 }) ∧
    (s.frozen = false → s.stopped = true → step s = .next s) ∧
    (s.halted = false → s.idleCycle = true → step s = .next (s.wake.tick true))) ∧
  ∀ (s : State), s.wake = { s with skeins := s.wake.skeins } ∧
    ∀ (n : Nat) (k : Skein), s.skeins[n]? = some k → ∃ j, s.wake.skeins[n]? = some j ∧
      j = { k with splits := j.splits, preqs := j.preqs } ∧ (k.stop ≠ none → j.splits = k.splits) ∧
      (k.stop = none → ∀ (m : Nat) (p : Split), k.splits[m]? = some p → ∃ q, j.splits[m]? = some q ∧
        ((∀ on, p.st = .stalled on → s.resolved k p on = false) → q = p) ∧
        ∀ on, p.st = .stalled on → s.resolved k p on = true → q = { p with
          st := .ready,
          pushing := (match on with | .basket cl slot _ => some (cl, slot) | _ => p.pushing) })

/-! ## Lane instructions -/

/-- R25, R30, R88: each lane instruction, MOVI among them, completes with its value in the active lanes of d. Such a write gives
each active lane the value's bits in the slices of d and leaves every other slice and lane as it was; a register of which it
writes every slice that the window holds, in all 32 lanes, takes the result set, and one that it writes otherwise joins it. -/
def Obligations.LaneInstructionsComplete : Prop :=
  (∀ (i : Instr) (r : LaneRow), laneRow i = some r → r.Gives i) ∧
  (∀ (w : Width) (d : BitVec 8) (imm : BitVec 7) (s : State) (k : Skein) (p : Split) (x : Iss),
    Starts (.movi w d imm) s k p → (Iss.start s k p).operands [opdOut d.toNat w.slices] = .ok x →
    Completes (.movi w d imm) s k p
      (x.put (x.wr d.toNat w.slices (fun _ => (BitVec.ofInt w.bits (x.h.imm imm true)).toNat) x.rset))) ∧
  ∀ (x : Iss) (d n : Nat) (v : Nat → Nat) (set : OSet), 0 < n → d + n ≤ x.k.window → x.k.window ≤ 256 →
    let k := x.wr d n v set
    (∀ l, l < 32 → x.p.em.getLsbD l = true → (k.lanes.getD l 0).toNat / 2 ^ (4 * d) % 2 ^ (4 * n) = v l % 2 ^ (4 * n)) ∧
    (∀ l sl j, l < 32 → j < 4 → x.p.em.getLsbD l = false ∨ sl < d ∨ d + n ≤ sl →
      (k.lanes.getD l 0).getLsbD (4 * sl + j) = (x.k.lanes.getD l 0).getLsbD (4 * sl + j)) ∧
    ∀ g, g < 32 →
      let whole := x.p.em = 0xFFFFFFFF#32 ∧ ∀ sl, 8 * g ≤ sl → sl < 8 * g + 8 → sl < x.k.window → d ≤ sl ∧ sl < d + n
      (8 * g + 8 ≤ d ∨ d + n ≤ 8 * g → k.sets.getD g 0 = x.k.sets.getD g 0) ∧
      (d < 8 * g + 8 → 8 * g < d + n → (whole → k.sets.getD g 0 = set) ∧ (¬whole → k.sets.getD g 0 = x.k.sets.getD g 0 ||| set))

/-- R91 to R93, R98: the integer values of ADD, SUB, MUL, MAD, MULH, MULHU, MIN, MAX, MINU and MAXU, each operand at its own width,
and the six compares of integers, which give all ones or all zeros. -/
def Obligations.IntegerArithmetic : Prop :=
  (∀ (w : Width) (d a : BitVec 8) (b : BitVec 7) (h : Hints) (v : Widths) (z x y : Nat),
    v.d.isInt = true → x < 2 ^ v.a.bits → y < 2 ^ v.b.bits → z < 2 ^ v.d.bits →
    let A := (BitVec.ofNat v.a.bits x).toInt
    let B := (BitVec.ofNat v.b.bits y).toInt
    let D := (BitVec.ofNat v.d.bits z).toInt
    let is (i : Instr) (n : Nat) : Prop := ∀ r, laneRow i = some r → r.value h v z x y = n
    let low (e : Int) : Nat := (BitVec.ofInt v.d.bits e).toNat
    is (.add w d a b) (low (A + B)) ∧ is (.sub w d a b) (low (A - B)) ∧ is (.mul w d a b) (low (A * B)) ∧
    is (.mad w d a b) (low (A * B + D)) ∧
    is (.mulh w d a b) ((BitVec.ofInt (2 * v.d.bits) (A * B)).extractLsb' v.d.bits v.d.bits).toNat ∧
    is (.mulhu w d a b) ((BitVec.ofNat (2 * v.d.bits) (x * y)).extractLsb' v.d.bits v.d.bits).toNat ∧
    is (.min w d a b) (low (if A ≤ B then A else B)) ∧ is (.max w d a b) (low (if A ≤ B then B else A)) ∧
    is (.minu w d a b) (low (if x ≤ y then x else y)) ∧ is (.maxu w d a b) (low (if x ≤ y then y else x))) ∧
  ∀ (w : Width) (d a : BitVec 8) (b : BitVec 7) (h : Hints) (v : Widths) (z x y : Nat),
    v.d.isInt = true → x < 2 ^ v.a.bits → y < 2 ^ v.b.bits →
    let A := (BitVec.ofNat v.a.bits x).toInt
    let B := (BitVec.ofNat v.b.bits y).toInt
    let is (i : Instr) (q : Prop) : Prop := ∀ r, laneRow i = some r →
      (q → r.value h v z x y = 2 ^ v.d.bits - 1) ∧ (¬q → r.value h v z x y = 0)
    is (.cmpeq w d a b) (A = B) ∧ is (.cmpne w d a b) (A ≠ B) ∧ is (.cmplt w d a b) (A < B) ∧
    is (.cmple w d a b) (A ≤ B) ∧ is (.cmpltu w d a b) (x < y) ∧ is (.cmpleu w d a b) (x ≤ y)

/-- R94, R95, R96: ADDS, SUBS, ADDUS and SUBUS clamp the exact result to the range of wd; AND, OR, XOR and ANDN work bit by bit on
zero-extended sources and keep the low wd bits; SHL, SHR, SAR and ROT take the amount modulo wd. -/
def Obligations.SaturationLogicAndShifts : Prop :=
  (∀ (w : Width) (d a : BitVec 8) (b : BitVec 7),
    let row (lo hi : Nat → Int) (f : Widths → Nat → Nat → Int) : LaneRow :=
      rowT w d a b false fun v _ x y =>
        let n := v.d.bits
        (BitVec.ofInt n (if f v x y < lo n then lo n else if hi n < f v x y then hi n else f v x y)).toNat
    let sxt (u : Width) (x : Nat) : Int := (BitVec.ofNat u.bits x).toInt
    let lo (n : Nat) : Int := -2 ^ (n - 1)
    let hi (n : Nat) : Int := 2 ^ (n - 1) - 1
    (row lo hi fun v x y => sxt v.a x + sxt v.b y).Gives (.adds w d a b) ∧
    (row lo hi fun v x y => sxt v.a x - sxt v.b y).Gives (.subs w d a b) ∧
    (row (fun _ => 0) (fun n => 2 ^ n - 1) fun _ x y => (x : Int) + y).Gives (.addus w d a b) ∧
    (row (fun _ => 0) (fun n => 2 ^ n - 1) fun _ x y => (x : Int) - y).Gives (.subus w d a b)) ∧
  (∀ (w : Width) (d a : BitVec 8) (b : BitVec 7),
    let row (f : Bool → Bool → Bool) : LaneRow :=
      rowT w d a b false fun v _ x y => (BitVec.ofFnLE (n := v.d.bits) fun j => f (x.testBit j) (y.testBit j)).toNat
    (row fun x y => x && y).Gives (.and w d a b) ∧ (row fun x y => x || y).Gives (.or w d a b) ∧
    (row fun x y => x ^^ y).Gives (.xor w d a b) ∧ (row fun x y => x && !y).Gives (.andn w d a b)) ∧
  ∀ (w : Width) (d a : BitVec 8) (b : BitVec 7),
    (rowT w d a b false fun v _ x y => (BitVec.ofNat v.d.bits x <<< (y % v.d.bits)).toNat).Gives (.shl w d a b) ∧
    (rowT w d a b false fun v _ x y => (BitVec.ofNat v.d.bits x >>> (y % v.d.bits)).toNat).Gives (.shr w d a b) ∧
    (rowT w d a b false fun v _ x y =>
      (((BitVec.ofNat v.a.bits x).signExtend v.d.bits).sshiftRight (y % v.d.bits)).toNat).Gives (.sar w d a b) ∧
    (rowT w d a b false fun v _ x y => ((BitVec.ofNat v.d.bits x).rotateLeft (y % v.d.bits)).toNat).Gives (.rot w d a b)

/-- R102, R61, R74: what the ten rows of format I give, with the immediate sign-extended for ADDI, CMPEQI, CMPLTI and MOVI
and zero-extended for the others. -/
def Obligations.ImmediateRows : Prop :=
  ∀ (w : Width) (d a : BitVec 8) (imm : BitVec 7),
    let rowS (f : Widths → Nat → Int → Nat) := rowI w d a imm true f
    let rowZ (f : (v : Widths) → Nat → Nat → BitVec v.d.bits) := rowI w d a imm false fun v x n => (f v x n.toNat).toNat
    let sxt (u : Width) (x : Nat) : Int := (BitVec.ofNat u.bits x).toInt
    (rowS fun v x n => (BitVec.ofInt v.d.bits (sxt v.a x + n)).toNat).Gives (.addi w d a imm) ∧
    (rowZ fun v x n => BitVec.ofNat v.d.bits x &&& BitVec.ofNat v.d.bits n).Gives (.andi w d a imm) ∧
    (rowZ fun v x n => BitVec.ofNat v.d.bits x ||| BitVec.ofNat v.d.bits n).Gives (.ori w d a imm) ∧
    (rowZ fun v x n => BitVec.ofNat v.d.bits x ^^^ BitVec.ofNat v.d.bits n).Gives (.xori w d a imm) ∧
    (rowZ fun v x n => BitVec.ofNat v.d.bits x <<< (n % v.d.bits)).Gives (.shli w d a imm) ∧
    (rowZ fun v x n => BitVec.ofNat v.d.bits x >>> (n % v.d.bits)).Gives (.shri w d a imm) ∧
    (rowZ fun v x n => ((BitVec.ofNat v.a.bits x).signExtend v.d.bits).sshiftRight (n % v.d.bits)).Gives (.sari w d a imm) ∧
    (rowS fun v x n => if BitVec.ofNat v.a.bits x = BitVec.ofInt v.a.bits n then 2 ^ v.d.bits - 1 else 0).Gives
      (.cmpeqi w d a imm) ∧
    (rowS fun v x n => if sxt v.a x < n then 2 ^ v.d.bits - 1 else 0).Gives (.cmplti w d a imm) ∧
    ∀ (s : State) (k : Skein) (p : Split) (x : Iss), Starts (.movi w d imm) s k p →
      (Iss.start s k p).operands [opdOut d.toNat w.slices] = .ok x →
      Completes (.movi w d imm) s k p
        (x.put (x.wr d.toNat w.slices (fun _ => (BitVec.ofInt w.bits (x.h.imm imm true)).toNat) p.co))

/-- R89, R97, R100, R101, R103, R105: the bit and sign functions of integers, and the two extensions; MOV, NEG and ABS on floating
widths, which copy, invert and clear bits and keep the pattern of a NaN; the field that BFX takes out of a
and that BFI puts into d; what SEL keeps; and the two integer dot products. That BFI takes a source narrower than its field
with zeros above is the model's choice (log 42). -/
def Obligations.BitFunctions : Prop :=
  (∀ (w : Width) (d a : BitVec 8) (src : BitVec 2) (h : Hints) (v : Widths) (z x y : Nat), w.isInt = true →
    x < 2 ^ w.bits →
    let X := BitVec.ofNat w.bits x
    let is (i : Instr) (n : Nat) : Prop := ∀ r, laneRow i = some r → r.value h v z x y = n
    is (.mov w d a) x ∧ is (.not w d a) (~~~X).toNat ∧ is (.neg w d a) (-X).toNat ∧
    is (.abs w d a) (if X.msb then -X else X).toNat ∧
    (∀ n, n ≤ w.bits → (∀ j, w.bits - n ≤ j → j < w.bits → X.getLsbD j = false) →
      (n < w.bits → X.getLsbD (w.bits - 1 - n) = true) → is (.clz w d a) n) ∧
    (∀ n, n ≤ w.bits → (∀ j, j < n → X.getLsbD j = false) → (n < w.bits → X.getLsbD n = true) → is (.ctz w d a) n) ∧
    is (.popc w d a) ((List.range w.bits).countP X.getLsbD) ∧ is (.brev w d a) X.reverse.toNat ∧
    (∀ r, laneRow (.bswap w d a) = some r → ∀ j, j < w.bits → w ≠ .i4 →
      (r.value h v z x y).testBit j = X.getLsbD (8 * (w.bits / 8 - 1 - j / 8) + j % 8)) ∧
    (x < 2 ^ (extWidth src).bits →
      is (.sxt w d a src) ((BitVec.ofNat (extWidth src).bits x).signExtend w.bits).toNat ∧ is (.zxt w d a src) x)) ∧
  (∀ (w : Width) (d a : BitVec 8) (h : Hints) (v : Widths) (z x y : Nat), w.isFloat = true → x < 2 ^ w.bits →
    let gives (i : Instr) (f : Nat → Bool) : Prop := ∀ r, laneRow i = some r → r.value h v z x y < 2 ^ w.bits ∧
      ∀ j, j < w.bits → (r.value h v z x y).testBit j = f j
    gives (.mov w d a) x.testBit ∧ gives (.neg w d a) (fun j => x.testBit j ^^ decide (j = w.bits - 1)) ∧
    gives (.abs w d a) (fun j => x.testBit j && decide (j ≠ w.bits - 1))) ∧
  ∀ (w : Width) (d a : BitVec 8) (b : BitVec 7) (h : Hints) (v : Widths) (z x y : Nat),
    x < 2 ^ v.a.bits → y < 2 ^ v.b.bits → z < 2 ^ v.d.bits →
    let is (i : Instr) (n : Nat) : Prop := ∀ r, laneRow i = some r → r.value h v z x y = n
    let bits (i : Instr) (f : Nat → Bool) : Prop := ∀ r, laneRow i = some r → r.value h v z x y < 2 ^ v.d.bits ∧
      ∀ j, j < v.d.bits → (r.value h v z x y).testBit j = f j
    let pos := y % 128
    let len := y / 128 % 128
    bits (.bfx w d a b) (fun j => if len = 0 then false
      else if j < len then x.testBit (pos + j) else y.testBit 14 && x.testBit (pos + len - 1)) ∧
    bits (.bfi w d a b) (fun j => if pos ≤ j ∧ j < pos + len then x.testBit (j - pos) else z.testBit j) ∧
    is (.sel w d a b) (if y.testBit 0 = true then x else z) ∧
    let dot (n m : Nat) : Nat := (BitVec.ofInt 32 ((z : Int) + ((List.range m).map fun i =>
      (BitVec.ofNat n (x / 2 ^ (n * i))).toInt * (BitVec.ofNat n (y / 2 ^ (n * i))).toInt).sum)).toNat
    is (.dot8I4 d a b) (dot 4 8) ∧ is (.dot4I8 d a b) (dot 8 4)

/-- R89, R91, R101, R106 to R111, R258: SQRT, RCP and RSQ give the exact root, reciprocal and reciprocal root rounded once to nearest
even; EXP2, LOG2, SIN and COS do so where R106 names a result or the exact one is rational: EXP2 of an integer, LOG2 of a power of two,
SIN and COS of multiples of a half; and every special value of R106. Rounding a value that a pattern of a format already holds gives the pattern back, with
subnormals, infinities and signed zeros kept and every NaN the canonical one; the rounding of a fraction m / 2^s is the nearest
integer, of two equally near the even one; a rounded finite value is the multiple of its last place that the mode names, or
what R111 and R110 put past the largest finite one. ADD, SUB, MUL, MAD and DOT2.B16 round the exact sum of their terms once,
FLOOR, CEIL, TRUNC and RINT give the integral value of their mode, and the conversions give what R109 to R111 say. -/
def Obligations.FloatingRounding : Prop :=
  (∀ (f : Fmt) (r : Rnd) (bits : Nat), f = fmtF16 ∨ f = fmtB16 ∨ f = fmtF32 → bits < 2 ^ (1 + f.eb + f.mb) →
    (f.value bits = .nan → f.round r (f.value bits) = f.nan) ∧
    (f.value bits ≠ .nan → f.round r (f.value bits) = bits)) ∧
  (∀ (neg : Bool) (m s : Nat),
    let q := roundShift .rne neg m s
    2 * (q * 2 ^ s) ≤ 2 * m + 2 ^ s ∧ 2 * m ≤ 2 * (q * 2 ^ s) + 2 ^ s ∧
    (2 * (q * 2 ^ s) = 2 * m + 2 ^ s ∨ 2 * m = 2 * (q * 2 ^ s) + 2 ^ s → 1 ≤ s → q % 2 = 0)) ∧
  (∀ (f : Fmt) (r : Rnd) (neg : Bool) (m n : Nat) (e : Int), f = fmtF16 ∨ f = fmtB16 ∨ f = fmtF32 → m ≠ 0 →
    let q := f.place m e
    let sgn (b : Nat) : Nat := if neg then b + 2 ^ (f.eb + f.mb) else b
    let inf := (2 ^ f.eb - 1) * 2 ^ f.mb
    r.gives neg ((m : Rat) * 2 ^ (e - q)) n →
      ((n : Rat) * 2 ^ q < 2 ^ ((f.bias : Int) + 1) →
        ∃ m' e', f.value (f.round r (.fin neg m e)) = .fin neg m' e' ∧ (m' : Rat) * 2 ^ e' = n * 2 ^ q) ∧
      ((2 : Rat) ^ ((f.bias : Int) + 1) ≤ n * 2 ^ q → f.round r (.fin neg m e) = sgn (match r with
        | .rne => inf | .rz => inf - 1 | .rm => if neg then inf else inf - 1 | .rp => if neg then inf - 1 else inf))) ∧
  (∀ (w : Width) (d a : BitVec 8) (b : BitVec 7) (h : Hints) (v : Widths) (z x y : Nat), v.d.isFloat = true →
    let A := (fmtOf v.a).value x
    let B := (fmtOf v.b).value y
    let D := (fmtOf v.d).value z
    let is (i : Instr) (f : Fmt) (X : Fl) : Prop := ∀ r, laneRow i = some r → r.value h v z x y = f.round .rne X
    (∀ X, Fl.isSum [A, B] X → is (.add w d a b) (fmtOf v.d) X) ∧ (∀ X, Fl.isSum [A, B.neg] X → is (.sub w d a b) (fmtOf v.d) X) ∧
    (∀ P, Fl.isProduct A B P → is (.mul w d a b) (fmtOf v.d) P ∧ ∀ X, Fl.isSum [P, D] X → is (.mad w d a b) (fmtOf v.d) X) ∧
    ∀ P Q X, Fl.isProduct (fmtB16.value (x % 2 ^ 16)) (fmtB16.value (y % 2 ^ 16)) P →
      Fl.isProduct (fmtB16.value (x / 2 ^ 16 % 2 ^ 16)) (fmtB16.value (y / 2 ^ 16 % 2 ^ 16)) Q →
      Fl.isSum [fmtF32.value z, P, Q] X → is (.dot2B16 d a b) fmtF32 X) ∧
  (∀ (w : Width) (d a : BitVec 8) (h : Hints) (v : Widths) (z x y : Nat), w.isFloat = true →
    let f := fmtOf w
    let A := f.value x
    let is (i : Instr) (n : Nat) : Prop := ∀ r, laneRow i = some r → r.value h v z x y = n
    let near (i : Instr) (neg : Bool) (X : Real) : Prop := ∀ r, laneRow i = some r → f.isNearest neg X (r.value h v z x y)
    let zero (neg : Bool) : Nat := if neg = true then 2 ^ (f.eb + f.mb) else 0
    let inf (neg : Bool) : Nat := zero neg + (2 ^ f.eb - 1) * 2 ^ f.mb
    (A = .nan → ∀ i ∈ [Instr.sqrt w d a, .rcp w d a, .rsq w d a, .exp2 w d a, .log2 w d a, .sin w d a, .cos w d a], is i f.nan) ∧
    (∀ n, A = .inf n →
      is (.sqrt w d a) (if n then f.nan else inf false) ∧ is (.rcp w d a) (zero n) ∧ is (.rsq w d a) (if n then f.nan else zero false) ∧
      is (.exp2 w d a) (if n then zero false else inf false) ∧ is (.log2 w d a) (if n then f.nan else inf false) ∧
      is (.sin w d a) f.nan ∧ is (.cos w d a) f.nan) ∧
    (∀ n e, A = .fin n 0 e → is (.sqrt w d a) (zero n) ∧ is (.rcp w d a) (inf n) ∧ is (.rsq w d a) (inf n) ∧
      is (.log2 w d a) (inf true)) ∧
    (∀ m e, A = .fin true m e → m ≠ 0 → is (.sqrt w d a) f.nan ∧ is (.rsq w d a) f.nan ∧ is (.log2 w d a) f.nan) ∧
    ∀ n m e, A = .fin n m e →
      let X : Real := (m : Real) * 2 ^ e
      (m ≠ 0 → near (.rcp w d a) n X⁻¹ ∧ (n = false → near (.sqrt w d a) false (Real.sqrt X) ∧ near (.rsq w d a) false (Real.sqrt X)⁻¹)) ∧
      ∀ k : Int,
        ((if n then -X else X) = k → near (.exp2 w d a) false (2 ^ k) ∧ is (.sin w d a) (zero n) ∧
          near (.cos w d a) (decide (k % 2 ≠ 0)) 1) ∧
        ((if n then -X else X) = k + 1 / 2 → near (.sin w d a) (decide (k % 2 ≠ 0)) 1 ∧ is (.cos w d a) 0) ∧
        (n = false → X = 2 ^ k → (k = 0 → is (.log2 w d a) 0) ∧ (k ≠ 0 → near (.log2 w d a) (decide (k < 0)) |k|))) ∧
  (∀ (w : Width) (d a : BitVec 8) (h : Hints) (v : Widths) (z x y : Nat), w.isFloat = true →
    let A := (fmtOf w).value x
    let is (i : Instr) (n : Nat) : Prop := ∀ r, laneRow i = some r → r.value h v z x y = n
    let all (r : Rnd) (i : Instr) : Prop :=
      (A = .nan → is i (fmtOf w).nan) ∧ (∀ n, A = .inf n → is i ((fmtOf w).round .rne (.inf n))) ∧
      ∀ n m e N, A = .fin n m e → r.gives n ((m : Rat) * 2 ^ e) N → is i ((fmtOf w).round .rne (.fin n N 0))
    all .rm (.floor w d a) ∧ all .rp (.ceil w d a) ∧ all .rz (.trunc w d a) ∧ all .rne (.rint w d a) ∧
    let from8 (f : Fmt) (i : Instr) : Prop := ∀ r, laneRow i = some r →
      let R := (fmtOf w).value (r.value h v z x y)
      (f.value x = .nan → r.value h v z x y = (fmtOf w).nan) ∧ (∀ n, f.value x = .inf n → R = .inf n) ∧
      ∀ n m e, f.value x = .fin n m e → ∃ m' e', R = .fin n m' e' ∧ (m' : Rat) * 2 ^ e' = m * 2 ^ e
    let to8 (f : Fmt) (top : Rat) (past : Nat) (i : Instr) : Prop := ∀ r, laneRow i = some r →
      let R := r.value h v z x y
      let sgn (neg : Bool) (b : Nat) : Nat := if neg then b + 128 else b
      (A = .nan → R = f.nan) ∧ (∀ n, A = .inf n → R = sgn n past) ∧ (∀ n e, A = .fin n 0 e → R = sgn n 0) ∧
      ∀ n m e N, A = .fin n m e → m ≠ 0 → Rnd.rne.gives n ((m : Rat) * 2 ^ (e - f.place m e)) N →
        (top < N * 2 ^ f.place m e → R = sgn n past) ∧
        ((N : Rat) * 2 ^ f.place m e ≤ top →
          ∃ m' e', f.value R = .fin n m' e' ∧ (m' : Rat) * 2 ^ e' = N * 2 ^ f.place m e)
    from8 fmtE4M3 (.cvtFromE4M3 w d a) ∧ from8 fmtE5M2 (.cvtFromE5M2 w d a) ∧
    to8 fmtE4M3 448 0x7F (.cvtToE4M3 w d a) ∧ to8 fmtE4M3 448 0x7E (.cvtToE4M3Sat w d a) ∧
    to8 fmtE5M2 57344 0x7C (.cvtToE5M2 w d a) ∧ to8 fmtE5M2 57344 0x7B (.cvtToE5M2Sat w d a)) ∧
  ∀ (w src : Width) (d a : BitVec 8) (uns : BitVec 1) (rnd : BitVec 2) (h : Hints) (v : Widths) (z x y : Nat), x < 2 ^ src.bits →
    let is (n : Nat) : Prop := ∀ r, laneRow (.cvt w d a src uns rnd) = some r → r.value h v z x y = n
    let r := Rnd.of rnd.toNat
    let A := (fmtOf src).value x
    (src.isFloat = true → w.isFloat = true → is ((fmtOf w).round r A)) ∧
    (src.isInt = true → let V : Int := if uns = 1 then (x : Int) else (BitVec.ofNat src.bits x).toInt
      is ((fmtOf w).round r (.fin (decide (V < 0)) V.natAbs 0))) ∧
    (src.isFloat = true → w.isInt = true →
      let lo : Int := if uns = 1 then 0 else -2 ^ (w.bits - 1)
      let hi : Int := if uns = 1 then 2 ^ w.bits - 1 else 2 ^ (w.bits - 1) - 1
      let put (V : Int) : Prop := is (BitVec.ofInt w.bits (if V < lo then lo else if hi < V then hi else V)).toNat
      (A = .nan → is 0) ∧ (∀ n, A = .inf n → put (if n then lo else hi)) ∧
      ∀ n m e N, A = .fin n m e → r.gives n ((m : Rat) * 2 ^ e) N → put (if n then -(N : Int) else N))

/-- R93, R99, R104: the six compares of floating values, MIN and MAX, which choose by the number with −0 below +0 and round the
chosen value once, and the class mask. -/
def Obligations.FloatingCompares : Prop :=
  (∀ (w : Width) (d a : BitVec 8) (b : BitVec 7) (h : Hints) (v : Widths) (z x y : Nat), v.d.isFloat = true →
    let ones := 2 ^ v.d.bits - 1
    let is (i : Instr) (n : Nat) : Prop := ∀ r, laneRow i = some r → r.value h v z x y = n
    let all (eq ne lt le ltu leu : Nat) : Prop :=
      is (.cmpeq w d a b) eq ∧ is (.cmpne w d a b) ne ∧ is (.cmplt w d a b) lt ∧ is (.cmple w d a b) le ∧
      is (.cmpltu w d a b) ltu ∧ is (.cmpleu w d a b) leu
    let A := (fmtOf v.a).value x
    let B := (fmtOf v.b).value y
    let num := Fl.num
    (A = .nan ∨ B = .nan → all 0 ones 0 0 ones ones) ∧
    (∀ n m e n' m' e', A = .fin n m e → B = .fin n' m' e' →
      (num n m e < num n' m' e' → all 0 ones ones ones ones ones) ∧
      (num n m e = num n' m' e' → all ones 0 0 ones 0 ones) ∧
      (num n' m' e' < num n m e → all 0 ones 0 0 0 0)) ∧
    (A = .inf true → B = .inf false ∨ (∃ n m e, B = .fin n m e) → all 0 ones ones ones ones ones) ∧
    (A = .inf false → B = .inf true ∨ (∃ n m e, B = .fin n m e) → all 0 ones 0 0 0 0) ∧
    (∀ n, A = .inf n → B = .inf n → all ones 0 0 ones 0 ones) ∧
    (∀ n m e, A = .fin n m e → (B = .inf false → all 0 ones ones ones ones ones) ∧ (B = .inf true → all 0 ones 0 0 0 0))) ∧
  (∀ (w : Width) (d a : BitVec 8) (b : BitVec 7) (h : Hints) (v : Widths) (z x y : Nat), v.d.isFloat = true →
    let A := (fmtOf v.a).value x
    let B := (fmtOf v.b).value y
    let is (i : Instr) (X : Fl) : Prop := ∀ r, laneRow i = some r → r.value h v z x y = (fmtOf v.d).round .rne X
    let less (X Y : Fl) : Prop := X ≠ .nan ∧ Y ≠ .nan ∧ ((X = .inf true ∧ Y ≠ .inf true) ∨ (Y = .inf false ∧ X ≠ .inf false) ∨
      ∃ n m e n' m' e', X = .fin n m e ∧ Y = .fin n' m' e' ∧
        (Fl.num n m e < Fl.num n' m' e' ∨ (Fl.num n m e = Fl.num n' m' e' ∧ n = true ∧ n' = false)))
    (A = .nan → is (.min w d a b) B ∧ is (.max w d a b) B) ∧ (B = .nan → is (.min w d a b) A ∧ is (.max w d a b) A) ∧
    (less A B → is (.min w d a b) A ∧ is (.max w d a b) B) ∧ (less B A → is (.min w d a b) B ∧ is (.max w d a b) A) ∧
    (¬less A B → ¬less B A → A ≠ .nan → B ≠ .nan → is (.min w d a b) A ∧ is (.max w d a b) A)) ∧
  ∀ (w : Width) (d a : BitVec 8) (h : Hints) (v : Widths) (z x y : Nat), w.isFloat = true → x < 2 ^ w.bits →
    let f := fmtOf w
    let is (n : Nat) : Prop := ∀ r, laneRow (.fclass w d a) = some r → r.value h v z x y = 2 ^ n
    let ex := x / 2 ^ f.mb % 2 ^ f.eb
    let fr := x % 2 ^ f.mb
    let neg := x.testBit (w.bits - 1)
    let ones := 2 ^ f.eb - 1
    (ex = ones → fr ≠ 0 → is (if fr.testBit (f.mb - 1) = true then 1 else 0)) ∧
    (ex = ones → fr = 0 → is (if neg = true then 2 else 9)) ∧ (ex = 0 → fr = 0 → is (if neg = true then 5 else 6)) ∧
    (ex = 0 → fr ≠ 0 → is (if neg = true then 4 else 7)) ∧ (ex ≠ 0 → ex ≠ ones → is (if neg = true then 3 else 8))

/-- R25, R30, R88: what a lane instruction that is not stopped leaves as it was, when no write is outstanding and the step
bit is clear: every slice outside d and every inactive lane, the sets of registers that hold no slice of d, every other
skein and split, and all else but the issuing split's progress and the failed registers that a write makes sound (R349). -/
def Obligations.LaneFrame : Prop :=
  ∀ (i : Instr) (s t : State) (k k' : Skein) (p : Split) (d n : Nat), laneOut i p.hints = some (d, n) →
    s.current = some (k, p) → k.pend = [] → k.swlo.getLsbD 1 = false →
    exec i s = .next t → t.skein? k.id = some k' → k'.stop = none →
    (∀ l sl j, l < 32 → j < 4 → inMask p.em l = false ∨ sl < d ∨ d + n ≤ sl →
      (k'.lanes.getD l 0).getLsbD (4 * sl + j) = (k.lanes.getD l 0).getLsbD (4 * sl + j)) ∧
    (∀ g, g < 32 → 8 * g + 8 ≤ d ∨ d + n ≤ 8 * g → k'.sets.getD g 0 = k.sets.getD g 0) ∧
    (∀ sid, sid ≠ k.id → t.skein? sid = s.skein? sid) ∧
    t = { s with skeins := t.skeins } ∧
    k' = { k with lanes := k'.lanes, sets := k'.sets, splits := k'.splits, badRegs := k'.badRegs } ∧
    (∀ u, u ≠ p.uid → k'.split? u = k.split? u) ∧
    ∃ q, k'.split? p.uid = some q ∧
      q = { p with
        pc := q.pc, hints := Hints.empty, since := s.issueTicks, yielded := none, again := none, pushing := none, stub := q.stub }

/-! ## Memory, reset and what every step keeps -/

/-- R29: bytes written from an address upward are read back, bytes outside them are as before, and the little-endian number
of the bytes of x is x. The memory is in canonical form. -/
def Obligations.MemoryReadsBack : Prop :=
  ∀ (m : List Host.Cell) (a : Nat) (bs : List Byte), Memory.wf m = true →
    cellsRead (cellsWrite m a bs) a bs.length = bs ∧
    (∀ c, c < a ∨ a + bs.length ≤ c → cellGet (cellsWrite m a bs) c = cellGet m c) ∧
    Memory.wf (cellsWrite m a bs) = true ∧
    ∀ n x, cellsNat (cellsWrite m a (bytesLE n x)) a n = x % 2 ^ (8 * n)

/-- Every step keeps every memory of the machine in canonical form: physical memory, scratchpads, cluster windows, and the
scratchpads of saved blocks. -/
def Obligations.MemoryStaysCanonical : Prop := ∀ (s t : State), s.memOk → step s = .next t → t.memOk

/-- R123, R397, R434: every step keeps the 192 clusters, 1,536 cores, 24 dies and 16 partitions. -/
def Obligations.PartsStay : Prop := ∀ (s t : State), s.shapeOk → step s = .next t → t.shapeOk

/-- R296, R342, R430, R434: after module reset the memories are canonical, all parts exist and are offline or unused, every
cycle counter is 0, every basket slot is FREE with generation 0, and the module is BOOTING with an empty fault log. The
generation of a slot and the cycle counters are values that the model names (logs 12 and 37). -/
def Obligations.ResetState : Prop :=
  State.reset.memOk ∧ State.reset.shapeOk ∧ State.reset.modSt = .booting ∧ State.reset.log = [] ∧
  State.reset.loghead = 0 ∧ State.reset.skeins = [] ∧
  (∀ c ∈ State.reset.clusters, c.online = false ∧ c.part = none ∧ c.counter = 0 ∧ c.baskets.length = 64 ∧
    ∀ b ∈ c.baskets, b.st = .free ∧ b.gen = 0) ∧
  (∀ c ∈ State.reset.parts, c.used = false) ∧ core.reset = State.reset ∧ core.step = step

/-- R15, R124 to R128, R141, R168: a skein as it is placed, and its block. -/
def Obligations.Placement : Prop :=
  (∀ (id ctx grid blk num window tenant : Nat) (pc : Addr) (em : Mask) (co : OSet) (now : Nat),
    let k := Skein.fresh id ctx grid blk num window tenant pc em co now
    (∀ l sl j, (k.lanes.getD l 0).getLsbD (4 * sl + j) = false) ∧ (∀ r, r < 32 → k.sets.getD r 0 = 1#16 <<< tenant) ∧
    k.swlo = 0 ∧ k.lfm = 0 ∧ k.stack = [] ∧ k.pend = [] ∧ k.stop = none ∧
    ∃ p, k.splits = [p] ∧ p.pc = pc ∧ p.members = em ∧ p.em = em ∧ p.fr = 0 ∧ p.co = co ∧ p.st = .ready) ∧
  ∀ (g : Grid) (num core : Nat) (slots : List Nat),
    let b := Block.fresh g num core slots
    b.ks.length = 64 ∧ b.bars.length = 16 ∧ b.cells = [] ∧
    (∀ n, n < 64 → ∃ r, b.ks[n]? = some r ∧ r.vals = [g.kinit.getD n 0] ∧ r.set = g.kset ∧ r.writer = none) ∧
    ∀ x ∈ b.bars, x.phase = 0 ∧ x.e = g.skeins ∧ x.a = 0

/-! ## Traps -/

/-- R35, R72, R73, R125, R137, R140, R193, R202, R344: a stop writes its record to the cluster's mender and to the skein, puts
every split at its group's first word without hints and in the state it held, completes what was issued, and writes `lfm`
for causes 0, 2, 3 and 6 only. A stop for a pre-emption, of cause 5, also ends the skein's streams and frees its
fault-buffer entries, whose splits are READY again, as R202 lets the mender do and the model always does (log 35). A replay still to come
stays so, but for the one whose word met the trap, unless a poll performs that word again: the model's choices (logs 41 and 26). A skein with no waiting store leaves memory as it was. A precise trap
is a stop whose record carries the group's address, the word, the code, `em`, the faulting lanes, and the skein's grid,
block, core and slot. -/
def Obligations.StopEntry : Prop :=
  (∀ (s : State) (k : Skein) (uid : Nat) (r : Record) (lset : OSet) (redo : Option Pend),
    s.skein? k.id = some k → k.cluster < s.clusters.length →
    let t := s.takeStop k uid r lset redo
    (t.cluster k.cluster).records = (s.cluster k.cluster).records ++ [r] ∧
    (t.cluster k.cluster).fbuf =
      (s.cluster k.cluster).fbuf.filter (fun e => !(decide (r.cause = 5) && decide (e.sid = k.id))) ∧
    (k.stores = [] → t.mem = s.mem) ∧
    (∀ sid, sid ≠ k.id → t.skein? sid = s.skein? sid) ∧
    ∃ k', t.skein? k.id = some k' ∧ k'.stop = some ⟨r, uid, redo, false, false⟩ ∧ k'.cur = some uid ∧ k'.pend = [] ∧
      k'.lanes = k.pend.foldl (fun f q => mergeLanes f q.img q.masks) k.lanes ∧ k'.sets = k.sets ∧
      k'.stack = k.stack ∧ k'.streams = (if r.cause = 5 then [] else k.streams) ∧
      k'.lfm = (if r.cause = 0 ∨ r.cause = 2 ∨ r.cause = 3 ∨ r.cause = 6 then r.lfm else k.lfm) ∧
      k'.splits = k.splits.map fun p =>
        { p with
            pc := (p.hints.gpc.getD p.pc),
            hints := Hints.empty,
            again := (if r.cause = 0 ∧ p.uid = uid ∧ p.again.map (fun x => (x.word, x.counted)) = some (r.word, false) then none
              else p.again),
            st := (match p.st with
              | .parked (.translation e q) => if r.cause = 5 then .ready else .parked (.translation e q)
              | st => st) }) ∧
  ∀ (s : State) (k : Skein) (p : Split) (gpc word : Addr) (code : BitVec 16) (lfm : Mask) (addrs : List (Nat × Nat))
    (set : OSet),
    s.trapStop k p gpc word code lfm addrs set =
      s.takeStop k p.uid
        { pc := gpc, word := word, code := code, cause := 0, flags := (if addrs = [] then 0 else 1), em := p.em, lfm := lfm,
          followers := 0, cmdclass := 0, batch := 0, imm := 0, grid := k.grid, core := k.id / 128, slot := k.id % 128,
          skein := k.num, block := k.block, addrs := addrs, ctx := k.ctx } set none

/-- R137, R247, R296, R352, R370, R373: resuming a stopped skein removes its stop; every split is in the state it held, with
STALLED becoming READY, and one with a replay to perform stands at its instruction. That one which a QPUSH held stays counted
at its basket until it has issued the QPUSH again is the model's choice (log 23), as is what a replay keeps (log 41). The split
that stopped at a TRAP or a BRK, or at a TACK that names a recipe, goes on at the next word, or at its resume address where the next word is the end of its
recipe stub; no other split moves; memory does not change. With the step bit set, the skein stops once its group has
issued, with cause 4 and at the address of the next group; with it clear nothing is added. -/
def Obligations.Resumption : Prop :=
  (∀ (s : State) (k : Skein) (st : Stop), s.skein? k.id = some k → k.stop = some st →
    (s.resumeSkein k.id).mem = s.mem ∧
    ∃ k', (s.resumeSkein k.id).skein? k.id = some k' ∧ k' = { k with stop := none, splits := k'.splits, acquired := s.past.length } ∧
      k'.splits.length = k.splits.length ∧
      ∀ (n : Nat) (p : Split), k.splits[n]? = some p → ∃ q, k'.splits[n]? = some q ∧
        let back (x : Split) : Split := { x with
          st := (match x.st with | .stalled _ => .ready | y => y),
          pushing := (match x.st with | .stalled (.basket cl slot _) => some (cl, slot) | _ => x.pushing) }
        let redo (x : Split) : Split := match p.again with
          | some r => { x with pc := r.word, hints := r.hints }
          | none => x
        let next := st.record.word + 4
        let moves := p.uid = st.uid ∧
          (st.record.cause = 2 ∨ st.record.cause = 3 ∨ (st.record.cause = 5 ∧ st.record.imm ≠ 0xFFFFFFFF#32))
        (¬moves → q = redo (back p)) ∧
        (moves → (∀ r, p.stub = some (next, r) → q = redo (back { p with pc := r, stub := none })) ∧
          ((∀ r, p.stub ≠ some (next, r)) → q = redo (back { p with pc := next })))) ∧
  (∀ (s : State) (sid uid : Nat), s.stepStop sid uid false = s) ∧
  ∀ (s : State) (k : Skein) (p : Split) (uid : Nat), s.skein? k.id = some k → k.stop = none → k.split? uid = some p →
    s.stepStop k.id uid true = s.takeStop k uid { k.record p.pc p.pc p.em with cause := 4 } 0 none

/-! ## The checks of words -/

/-- R14, R18, R22, R24, R32, R33, R87, R349: what the operand checks answer, in their order: an operand beyond the window, then a
misaligned one, then under `sw.lkchk` one that meets a write inside its lookahead window, then a failed register of the
register file, counted on its core; otherwise the word goes on with the sets of what it reads joined. Every pending write that
binds the split, that the operands meet and that is not inside its lookahead window lands first, in program order; a slice that is
still pending reads old or new, and its register's older set joins where an operand reads that slice, and only there. A replay makes
none of these checks and reads what its instruction read at issue. That each check looks at every operand before
the next one, that the traps name every lane of `em`, and that the failed register comes before the word's own causes are
the model's choices (logs 11 and 25), as is what a replay keeps (log 41). -/
def Obligations.OperandChecks : Prop :=
  (∀ (x y : Iss) (ops : List Opd), x.operands ops = .ok y →
    let lands (q : Pend) : Bool := q.hits ops x.p.em && q.binds x.p && !q.exempt x.p
    let bit (f : List LaneFile) (l j : Nat) : Bool := (f.getD l 0).getLsbD j
    y.p = x.p ∧ y.h = x.h ∧ y.k = { x.k with lanes := y.k.lanes, pend := y.k.pend, badRegs := y.k.badRegs } ∧
    y.k.lanes = (x.k.pend.filter lands).foldl (fun f q => mergeLanes f q.img q.masks) x.k.lanes ∧
    (∀ q ∈ y.k.pend, lands q = false ∧ ∃ o ∈ x.k.pend, q = { o with masks := q.masks }) ∧
    (∀ z, x.kept = some z → y.files = z.files ∧ y.rd = z.rd) ∧
    (x.kept = none →
      (∀ l j, l < 32 → j < 1024 → ((∀ q ∈ y.k.pend, bit q.masks l j = false) → bit y.files l j = bit y.k.lanes l j) ∧
        (bit y.files l j = bit y.k.lanes l j ∨ ∃ q ∈ y.k.pend, bit q.masks l j = true ∧ bit y.files l j = bit q.img l j)) ∧
      ∀ t, t < 16 → (y.rd.getLsbD t = true ↔ x.rd.getLsbD t = true ∨ ∃ o ∈ ops, o.reads = true ∧ ∃ r ∈ regsOf o.start o.n,
        (x.k.sets.getD r 0).getLsbD t = true ∨ ∃ q ∈ y.k.pend, ∃ l sl j, l < 32 ∧ j < 4 ∧ o.lanes.getLsbD l = true ∧
          o.start ≤ sl ∧ sl < o.start + o.n ∧ sl / 8 = r ∧ bit q.masks l (4 * sl + j) = true ∧
          ∃ e, q.old.find? (·.1 == r) = some e ∧ e.2.getLsbD t = true))) ∧
  (∀ (x : Iss) (ops : List Opd), x.kept ≠ none → ∃ y, x.operands ops = .ok y) ∧
  ∀ (x : Iss) (ops : List Opd), x.kept = none →
    let sets (o : Opd) : OSet := (regsOf o.start o.n).foldl (fun a r => a ||| x.k.sets.getD r 0) 0
    let rd := ops.foldl (fun a o => a ||| if o.reads then sets o else 0) x.rd
    let trap (code : BitVec 16) : Prop := x.operands ops = .error (.trap code x.p.em [] (rd ||| x.p.co))
    let out := ∃ o ∈ ops, x.k.window < o.start + o.n
    let skew := ∃ o ∈ ops, o.start % o.align ≠ 0
    let early := x.k.swlo.getLsbD 0 = true ∧ ∃ q ∈ x.k.pend, q.exempt x.p = true ∧ q.hits ops x.p.em = true
    let fails (l : Nat) : Prop := ∃ r, (l, r) ∈ x.k.badRegs ∧ ∃ o ∈ ops, o.reads = true ∧ o.lanes.getLsbD l = true ∧
      r ∈ regsOf o.start o.n
    (out → trap 0x8201) ∧ (¬out → skew → trap 0x8202) ∧ (¬out → ¬skew → early → trap 0x8700) ∧
    (¬out → ¬skew → ¬early →
      (x.k.badRegs = [] → ∃ y, x.operands ops = .ok y) ∧
      (x.k.pend = [] →
        ((∀ l, ¬fails l) → ∃ y, x.operands ops = .ok y ∧ y.rd = rd ∧ y.p = x.p ∧ y.h = x.h ∧ y.k = x.k ∧ y.s = x.s) ∧
        ((∃ l, fails l) → ∃ lfm, x.operands ops =
            .error (.dataError 0xCC06 lfm [] (rd ||| x.p.co) (x.s.countError x.k.coreId 0 6)) ∧
          ∀ l, lfm.getLsbD l = true ↔ fails l)))

/-- R27: a store's D is the join of the sets of its data register, its address register and `co`, with the older sets of a write
still pending where it is read (R24, R32), or for a replay the sets that its instruction read (R21, log 41). If some active lane's page
or block has a set that D is no subset of, the store writes nothing and raises ORIGIN with those lanes in `lfm`;
otherwise it goes on to its location, before which it waits in the skein: the model's form of R226 to R248 (log 6). -/
def Obligations.StoreOrigin : Prop :=
  ∀ (i : Instr) (r : StoreRow) (s : State) (k : Skein) (p : Split) (x y : Iss) (q : BitVec 32) (as : List LaneAcc),
    storeRow i = some r → Starts i s k p →
    (Iss.start s k p).operands [opdPair (8 * r.n.toNat) p.em, opdIn r.d.toNat (memSlices r.w) p.em] = .ok x →
    x.policy r.pol true = .ok (q, y) → y.aligned (memBytes r.w) (y.ea r.n) = .ok () →
    y.map r.sp 2 needStore (y.lanesAt r.n (memBytes r.w)) = .ok as →
    let D := x.rd ||| p.co
    let sets (start n : Nat) : OSet := (regsOf start n).foldl (fun a g => a ||| k.sets.getD g 0) 0
    (p.again = none → k.pend = [] → D = sets (8 * r.n.toNat) 16 ||| sets r.d.toNat (memSlices r.w) ||| p.co) ∧
    let fails (a : LaneAcc) : Prop := ∃ b ∈ a.parts, ∃ e ∈ b.sets, D &&& ~~~e ≠ 0
    ((∃ a ∈ as, fails a) → ∃ lfm addrs, Traps i s k p 0x8500 lfm addrs D ∧
      ∀ l, l < 32 → (lfm.getLsbD l = true ↔ ∃ a ∈ as, a.lane = l ∧ fails a)) ∧
    ((∀ a ∈ as, ¬fails a) → y.hold true as = .ok () →
      Completes i s k p (y.put (y.store 16 as fun l => bytesLE (memBytes r.w) (y.raw l r.d.toNat (memSlices r.w)))))

/-- R25, R26, R31, R118, R120, R185, R197, R200, R201, R207, R210, R443: a load whose lanes are aligned, mapped and permitted, and whose lines are free, sound and present,
completes: the bytes read, the lowest first, wait as a long-latency write of d in the active lanes; the join of the sets of the pages
or blocks read, the address register and `co` joins d's registers, or replaces the set of one written whole in all 32 lanes; LDG
also moves the skein's streams. With no older copy in the core and no store of the skein waiting, each byte is the one of memory. That a rejected policy comes before a misaligned address
is the model's choice (log 25), and so is which of the copies that R189 and R192 allow is read (log 40); that the sets of d change at
the issue, while the write is pending, is its reading (log 5). A load, a store and an atomic whose operands have passed stop with the
lanes and addresses concerned: at a misaligned address; in S and C, out of range and then in the storage of a basket; in G, at a page
that is not mapped, where the split parks with one entry of the fault buffer or, with the buffer full, is STALLED, then without a
permission, and then at a page that the read mask forbids. -/
def Obligations.LoadsComplete : Prop :=
  (∀ (i : Instr) (r : LoadRow) (s : State) (k : Skein) (p : Split) (x y : Iss) (q : BitVec 32) (as : List LaneAcc)
    (v : ReadView),
    loadRow i = some r → Starts i s k p →
    (Iss.start s k p).operands [opdPair (8 * r.n.toNat) p.em, opdOut r.d.toNat (memSlices r.w)] = .ok x →
    x.policy r.pol false = .ok (q, y) → y.aligned (memBytes r.w) (y.ea r.n) = .ok () →
    y.map r.sp 1 needLoad (y.lanesAt r.n (memBytes r.w)) = .ok as → y.load q as = .ok v →
    let late := v.write (y.h.look r.la) r.d.toNat (memSlices r.w) as
    let d := r.d.toNat
    let n := memSlices r.w
    Completes i s k p (v.i.put (if r.sp = .g then late.touch (y.lanesAt r.n (memBytes r.w)) else late)) ∧
    (∃ D : OSet, (∀ t, t < 16 → (D.getLsbD t = true ↔ x.rd.getLsbD t = true ∨ p.co.getLsbD t = true ∨
        ∃ a ∈ as, ∃ b ∈ a.parts, ∃ e ∈ b.sets, e.getLsbD t = true)) ∧
      ∀ g, g < 32 → d + n ≤ k.window →
        let whole := p.em = 0xFFFFFFFF#32 ∧ ∀ sl, 8 * g ≤ sl → sl < 8 * g + 8 → sl < k.window → d ≤ sl ∧ sl < d + n
        (8 * g + 8 ≤ d ∨ d + n ≤ 8 * g → late.sets.getD g 0 = k.sets.getD g 0) ∧
        (d < 8 * g + 8 → 8 * g < d + n →
          (whole → late.sets.getD g 0 = D) ∧ (¬whole → late.sets.getD g 0 = k.sets.getD g 0 ||| D))) ∧
    (p.em ≠ 0 → d + n ≤ 256 → ∃ q, late.pend = v.i.k.pend ++ [q] ∧ q.wins = [(p.uid, y.h.look r.la + 1)] ∧
      (∀ l, l < 32 → q.masks.getD l 0 = if p.em.getLsbD l = true then sliceMask d n else 0) ∧
      ∀ a ∈ as, ∀ m l, m < memBytes r.w → a.locs[m]? = some l →
        (q.img.getD a.lane 0).toNat / 2 ^ (4 * d + 8 * m) % 256 = (v.byte l).toNat) ∧
    (k.stores = [] → ∀ a ∈ as, ∀ l ∈ a.locs,
      r.sp ≠ .g ∨ (l.pcie = false ∧ q.getLsbD 16 = false ∧ (∀ z ∈ (s.core k.coreId).l1, z.line ≠ l.addr / 64) ∧
        ∀ z ∈ (s.die k.die).pcie, paType (z.line * 64) = 2) →
      v.byte l = s.peek l)) ∧
  ∀ (i : Instr) (r : AccessRow) (s : State) (k : Skein) (p : Split) (x y : Iss) (q : BitVec 32), accessRow i = some r → Starts i s k p →
    (Iss.start s k p).operands (r.ops p.em) = .ok x → x.policy r.pol r.store = .ok (q, y) →
    let ea (l : Nat) : Nat := y.ea r.n l
    let some' (bad : Nat → Prop) : Prop := ∃ l, l < 32 ∧ p.em.getLsbD l = true ∧ bad l
    let stops (code : BitVec 16) (bad : Nat → Prop) : Prop := some' bad → ∃ lfm addrs set, Traps i s k p code lfm addrs set ∧
      (∀ l, l < 32 → (lfm.getLsbD l = true ↔ p.em.getLsbD l = true ∧ bad l)) ∧
      ∀ v, v ∈ addrs ↔ v.1 < 32 ∧ p.em.getLsbD v.1 = true ∧ bad v.1 ∧ v.2 = ea v.1
    let skew (l : Nat) : Prop := ea l % r.bytes ≠ 0
    stops 0x8202 skew ∧
    (¬some' skew → r.sp ≠ .g →
      let out (l : Nat) : Prop := 2 ^ 32 ≤ ea l ∨ y.s.spaceSize y.k r.sp < ea l + r.bytes
      stops 0x8403 out ∧ (¬some' out → stops 0x8406 fun l => y.s.hitsBasket y.k r.sp (ea l) r.bytes = true)) ∧
    (¬some' skew → r.sp = .g →
      let c := y.s.ctxOf y.k
      let walk (l : Nat) : Walk := y.s.translate c (ea l)
      let gone (l : Nat) : Prop := ∀ e, walk l ≠ .leaf e
      let lacks (l : Nat) : Prop := ∃ e, walk l = .leaf e ∧
        ((r.need.rd = true ∧ e.rd = false) ∨ (r.need.wr = true ∧ e.wr = false))
      let veiled (l : Nat) : Prop := ∃ e, walk l = .leaf e ∧ r.need.mask = true ∧ e.set &&& ~~~c.readMask ≠ 0
      let full := 64 ≤ (s.cluster k.cluster).fbuf.length
      (some' gone → full → exec i s = .next (s.stallOn k p .buffer)) ∧
      (some' gone → ¬full → k.cluster < s.clusters.length → k.swlo.getLsbD 1 = false →
        ∃ (t : State) (vas : List (Nat × Nat)) (bad : Bool), exec i s = .next t ∧
          (t.cluster k.cluster).fbuf = (s.cluster k.cluster).fbuf ++
            [⟨s.nextId, k.id, p.uid, k.ctx, p.hints.gpc.getD p.pc, r.kind, vas, bad⟩] ∧
          (∀ v, v ∈ vas ↔ v.1 < 32 ∧ p.em.getLsbD v.1 = true ∧ gone v.1 ∧ v.2 = ea v.1) ∧
          (bad = true ↔ some' fun l => walk l = .malformed) ∧
          ∃ j e redo, t.skein? k.id = some j ∧ j.stop = none ∧ j.lanes = k.lanes ∧ j.split? p.uid = some e ∧
            e.pc = p.hints.gpc.getD p.pc ∧ e.st = .parked (.translation s.nextId (some redo)) ∧ redo.instr = i ∧ redo.word = p.pc) ∧
      (¬some' gone → stops 0x8401 (fun l => some' lacks ∧ (lacks l ∨ veiled l)) ∧ (¬some' lacks → stops 0x8402 veiled)))

/-- R228, R248: with the step bit clear, a store that is not stopped changes no byte of memory as it issues, no slice of any
lane and no set. Its bytes wait behind the skein's earlier stores, at the locations its checks found. That a store waits in
its skein until a later move performs it is the model's form of R226 to R248 (log 6). -/
def Obligations.StoreFrame : Prop :=
  ∀ (i : Instr) (r : StoreRow) (s t : State) (k k' : Skein) (p : Split) (x y : Iss) (q : BitVec 32) (as : List LaneAcc),
    storeRow i = some r → Starts i s k p → k.swlo.getLsbD 1 = false → k.pend = [] →
    (Iss.start s k p).operands [opdPair (8 * r.n.toNat) p.em, opdIn r.d.toNat (memSlices r.w) p.em] = .ok x →
    x.policy r.pol true = .ok (q, y) → y.map r.sp 2 needStore (y.lanesAt r.n (memBytes r.w)) = .ok as →
    exec i s = .next t → t.skein? k.id = some k' → k'.stop = none →
    t.mem = s.mem ∧ t.clusters = s.clusters ∧ t.dieSt = s.dieSt ∧
    (∀ l : Loc, t.peek l = s.peek l) ∧
    k'.lanes = k.lanes ∧ k'.sets = k.sets ∧ k'.lfm = k.lfm ∧ k'.stack = k.stack ∧
    ∃ new, k'.stores = k.stores ++ new ∧
      ∀ e ∈ new, ∀ l ∈ e.locs, ∃ a ∈ as, l ∈ a.locs

/-- R231, R248: a waiting store that no engine holds and that stands behind no earlier one of its skein to the same bytes is
performed, and every byte outside its own keeps its value, in every space; otherwise nothing changes. A store to PCIe memory
stays in the die's L2, which may write back another line of that memory to make room (R2, R214): every byte of other
memory keeps its value. That a store waits, and behind every earlier one of its skein to the same bytes, also of another split, is the
model's choice (log 6). -/
def Obligations.StorePerformedFrame : Prop :=
  ∀ (s : State) (k : Skein) (e : PStore) (n : Nat), s.skein? k.id = some k → k.stores[n]? = some e →
    let t := (s.setSkein { k with stores := k.stores.eraseIdx n }).perform k.coreId e
    let lines := ∀ x ∈ (s.die k.die).pcie, paType (x.line * 64) = 2
    (s.blocked e = false → (∀ f ∈ k.stores.take n, f.meets e = false) → exec (.storePerformed k.id n) s = .next t) ∧
    (s.blocked e = true ∨ (∃ f ∈ k.stores.take n, f.meets e = true) → exec (.storePerformed k.id n) s = .next s) ∧
    ∀ l : Loc, (∀ q ∈ e.locs, ¬q.same l) → (∀ q ∈ e.locs, q.pcie = false) ∨ (l.pcie = false ∧ lines) → t.peek l = s.peek l

/-! ## Hints, transfers, divergence -/

/-- R69 to R79: a hint word only joins the group of its split: the split stands at the next word with the hint's payload pending,
and nothing else of the machine changes. A kind that the group already has, a PERM that R76 rejects and a reserved kind or
payload are kept with their address as the group's fault. The consumer of a group with such a fault traps with the address
and the detail kept; else it traps at the first hint that does not fit it, with detail 1, or that breaks R76, R78 or R79
for it, with detail 0. That the fault is raised with the consumer, after the group's fetch faults, that a misfit comes before
what is illegal in the consumer itself, and that the trap names every lane of `em` are the model's choices (logs 9, 10 and
25). -/
def Obligations.HintWords : Prop :=
  (∀ (s : State) (k : Skein) (p : Split), s.current = some (k, p) →
    let after (kind : Nat) (ok : Bool) (h : Hints) : Host.Outcome State Fault Refusal :=
      .next (s.setSkein (k.setSplit { p with
        pc := p.pc + 4, since := s.issueTicks, yielded := none,
        hints := { h with
          gpc := some (p.hints.gpc.getD p.pc),
          kinds := p.hints.kinds ++ [kind],
          bad := (match p.hints.bad with
            | some b => some b
            | none => if kind ∈ p.hints.kinds then some (p.pc, 1) else if ok then none else some (p.pc, 0)) } }))
    (∀ v, exec (.ximm v) s = after 0 true { p.hints with ximm := some v }) ∧
    (∀ v, exec (.offs v) s = after 1 true { p.hints with offs := some v }) ∧
    (∀ v, exec (.perm v) s = after 2 (accepts (.perm v)) { p.hints with perm := some v }) ∧
    (∀ v, exec (.mixw v) s = after 3 true { p.hints with mixw := some v }) ∧
    (∀ v, exec (.lka v) s = after 4 true { p.hints with lka := some v }) ∧
    ∀ (w : Word) (e : Reject), decode w = .error e → fMajor w = 0x3F →
      exec (instrOf w) s = after (w.extractLsb' 23 3).toNat false p.hints) ∧
  (∀ (i : Instr) (s : State) (k : Skein) (p : Split) (word : Addr) (detail : Nat), s.current = some (k, p) →
    isWord i = true → fMajor (wordOf i) ≠ 0x3F → p.hints.bad = some (word, detail) →
    exec i s = .next (s.trapStop k p (p.hints.gpc.getD p.pc) word (BitVec.ofNat 16 (0x8100 + detail)) p.em [] p.co)) ∧
  ∀ (i : Instr) (s : State) (k : Skein) (p : Split) (w : Word), s.current = some (k, p) → p.hints.bad = none →
    encode i = some w → fMajor w ≠ 0x3F →
    let gpc := p.hints.gpc.getD p.pc
    ∀ (n kd : Nat), p.hints.kinds[n]? = some kd →
      (∀ m e, m < n → p.hints.kinds[m]? = some e → hintFits e w = true ∧ hintSuits e p.hints w = true) →
      let traps (code : BitVec 16) : Prop :=
        exec i s = .next (s.trapStop k p gpc (gpc + 4 * BitVec.ofNat 64 n) code p.em [] p.co)
      (hintFits kd w = false → traps 0x8101) ∧
      (hintFits kd w = true → hintSuits kd p.hints w = false → traps 0x8100)

/-- R113 to R115, R117: BRA goes to its target. BZ and BNZ go there when bit 0 of a predicate that is the same in every active
lane is 0 or 1, and else fall through; the predicate's set joins every `co` of the skein. NOP only moves past itself. A
predicate that differs among the active lanes is an illegal operand, with `lfm` the active lanes whose bit is 1. -/
def Obligations.BranchesComplete : Prop :=
  ((∀ (disp : BitVec 18) (s : State) (k : Skein) (p : Split), Starts (.bra disp) s k p →
    Completes (.bra disp) s k p
      ((Iss.start s k p).put ((Iss.start s k p).k.jump p.uid (p.pc + 4 * disp.signExtend 64)))) ∧
  (∀ (s : State) (k : Skein) (p : Split), Starts .nop s k p → Completes .nop s k p (Iss.start s k p).s) ∧
  ∀ (q : BitVec 8) (disp : BitVec 18) (s : State) (k : Skein) (p : Split) (x : Iss) (v : Bool),
    (Iss.start s k p).operands [opdIn q.toNat 1 p.em] = .ok x →
    (∀ l, l < 32 → p.em.getLsbD l = true → x.bit0 l q.toNat = v) →
    let there := (x.k.joinCo x.rd).jump p.uid (p.pc + 4 * disp.signExtend 64)
    (Starts (.bz q disp) s k p →
      Completes (.bz q disp) s k p (x.put (if p.em ≠ 0 ∧ v = false then there else x.k.joinCo x.rd))) ∧
    (Starts (.bnz q disp) s k p →
      Completes (.bnz q disp) s k p (x.put (if p.em ≠ 0 ∧ v = true then there else x.k.joinCo x.rd)))) ∧
  ∀ (i : Instr) (q : BitVec 8) (disp : BitVec 18) (s : State) (k : Skein) (p : Split) (x : Iss) (l m : Nat),
    i = .bz q disp ∨ i = .bnz q disp → Starts i s k p → (Iss.start s k p).operands [opdIn q.toNat 1 p.em] = .ok x →
    l < 32 → m < 32 → p.em.getLsbD l = true → p.em.getLsbD m = true → x.bit0 l q.toNat = true → x.bit0 m q.toNat = false →
    ∃ lfm, Traps i s k p 0x8203 lfm [] (x.rd ||| p.co) ∧
      ∀ j, j < 32 → lfm.getLsbD j = (p.em.getLsbD j && x.bit0 j q.toNat)

/-- R116: CALL writes the address of the next word to its link pair in every active lane and goes to its target; with all 32
lanes active both registers' sets become `co`. (A replay makes no operand checks; CALL never has one.) -/
def Obligations.CallLinks : Prop :=
  ∀ (d : BitVec 8) (disp : BitVec 18) (s : State) (k : Skein) (p : Split) (x : Iss), Starts (.call d disp) s k p →
    (Iss.start s k p).operands [opdOut d.toNat 16] = .ok x →
    let k1 := x.wr d.toNat 16 (fun _ => (p.pc + 4).toNat) p.co
    Completes (.call d disp) s k p (x.put (k1.jump p.uid (p.pc + 4 * disp.signExtend 64))) ∧
    (p.again = none → ∀ l, l < 32 → p.em.getLsbD l = true →
      (k1.lanes.getD l 0).toNat / 2 ^ (4 * d.toNat) % 2 ^ 64 = (p.pc + 4).toNat) ∧
    (p.again = none → p.em = 0xFFFFFFFF#32 → k1.sets.getD (d.toNat / 8) 0 = p.co ∧ k1.sets.getD (d.toNat / 8 + 1) 0 = p.co)

/-- R117: RET, JMPI and CALLI go to the aligned address that every active lane holds in the pair, CALLI with a link; with no
active lane they fall through and write no link. A target that is not the same in all active lanes traps with the lanes that differ from
the lowest active one, one that is no multiple of 4 with the active lanes, and nothing is transferred or written; that the first of the
two comes first is the model's choice (log 25). -/
def Obligations.RegisterTransfersComplete : Prop :=
  ∀ (i : Instr) (d : Option Nat) (a : BitVec 8) (s : State) (k : Skein) (p : Split) (x : Iss),
    (i = .ret a ∧ d = none) ∨ (i = .jmpi a ∧ d = none) ∨ (∃ e : BitVec 8, i = .calli e a ∧ d = some e.toNat) →
    Starts i s k p →
    (Iss.start s k p).operands (opdIn a.toNat 16 p.em :: (match d with | some e => [opdOut e 16] | none => [])) = .ok x →
    (p.em = 0 → Completes i s k p (x.put (x.k.joinCo x.rd))) ∧
    (∀ t, p.em ≠ 0 → t % 4 = 0 → (∀ l, l < 32 → p.em.getLsbD l = true → x.raw l a.toNat 16 = t) →
      let k1 := match d with
        | some e => x.wr e 16 (fun _ => (p.pc + 4).toNat) (x.rd ||| p.co)
        | none => x.k
      Completes i s k p (x.put ((k1.joinCo x.rd).jump p.uid (BitVec.ofNat 64 t)))) ∧
    ∀ low, low < 32 → p.em.getLsbD low = true → (∀ l, l < low → p.em.getLsbD l = false) →
      let t := x.raw low a.toNat 16
      let differs (l : Nat) : Prop := l < 32 ∧ p.em.getLsbD l = true ∧ x.raw l a.toNat 16 ≠ t
      ((∃ l, differs l) → ∃ lfm, Traps i s k p 0x8203 lfm [] (x.rd ||| p.co) ∧ ∀ l, l < 32 → (lfm.getLsbD l = true ↔ differs l)) ∧
      ((∀ l, ¬differs l) → t % 4 ≠ 0 → Traps i s k p 0x8202 p.em [] (x.rd ||| p.co))

/-- R131 to R135, R154 to R157, R170: SPLIT divides the split on its predicate, or traps with `em` where all 256 slots are occupied; JOIN
arrives at the innermost entry and completes it when its paths have all come, or traps with the members where there is no entry; EXIT
removes the split and its members from every entry and barrier, with a release of all that the skein has stored where that makes an
arrival (R172), and YIELD lets the other splits that are READY on its port go first, for at most 64 issue cycles. That EXIT releases the
whole skein's stores, and where a split stands that waits at a JOIN, are the model's readings (log 24). -/
def Obligations.DivergenceCompletes : Prop :=
  (∀ (q : BitVec 8) (disp : BitVec 18) (s : State) (k : Skein) (p : Split) (x : Iss) (taken : Mask),
    Starts (.split q disp) s k p → (Iss.start s k p).operands [opdIn q.toNat 1 p.em] = .ok x → x.k.stack.length < 256 →
    (∀ l, l < 32 → taken.getLsbD l = (p.em.getLsbD l && x.bit0 l q.toNat)) →
    Completes (.split q disp) s k p
      (x.put (x.k.divide x.p taken (p.pc + 4 * disp.signExtend 64) x.rd s.issueTicks))) ∧
  (∀ (q : BitVec 8) (disp : BitVec 18) (s : State) (k : Skein) (p : Split) (x : Iss),
    Starts (.split q disp) s k p → (Iss.start s k p).operands [opdIn q.toNat 1 p.em] = .ok x → 256 ≤ k.stack.length →
    Traps (.split q disp) s k p 0x8205 p.em [] (x.rd ||| p.co)) ∧
  (∀ (s : State) (k : Skein) (p : Split), Starts .join s k p → p.inner = none → Traps .join s k p 0x8205 p.members [] p.co) ∧
  (∀ (s : State) (k : Skein) (p : Split) (n : Nat) (e : StackSlot), Starts .join s k p → p.inner = some n →
    k.stack[n]? = some e →
    let x := Iss.start s k p
    let here := e.opened = true ∨ e.pc = p.pc
    let waits (b : Bool) := x.k.modSplit p.uid fun q => { q with st := .joinWait b }
    (¬here → Completes .join s k p (x.put (waits false))) ∧
    (here → Completes .join s k p (x.put (Skein.complete
      { (waits true) with
          stack := k.stack.set n { e with opened := false, pc := p.pc, arrived := e.arrived ||| p.members } }
      s.issueTicks n)))) ∧
  (∀ (s : State) (k : Skein) (p : Split), Starts .exit s k p →
    let x := Iss.start s k p
    let left (y : Iss) : Skein := y.k.exit y.p y.s.issueTicks
    let done (y : Iss) : Prop := Completes .exit s k p ((y.put (left y)).exitBars (left y))
    (x.s.exitArrives (left x) = false → done x) ∧
    (x.s.exitArrives (left x) = true → ∀ y, x.releaseIf (fun _ => true) true = .ok y → done y)) ∧
  ∀ (s : State) (k : Skein) (p : Split), Starts .yieldI s k p →
    let x := Iss.start s k p
    Completes .yieldI s k p
      (x.put (x.k.modSplit p.uid fun q => { q with yielded := some (x.others, s.issueTicks + 64) })) ∧
    ∀ sid uid, (sid, uid) ∈ x.others ↔ ∃ j ∈ x.s.skeins, j.id = sid ∧ j.port = k.port ∧ j.stop = none ∧
      ∃ q ∈ j.splits, q.uid = uid ∧ q.st = .ready ∧ (sid ≠ k.id ∨ uid ≠ p.uid)

/-- R132, R134: SPLIT pushes an entry with an open rejoin PC, the members as rejoin mask, no lane arrived, the saved `em`, `fr` and
`co`, the taken mask, the target, and the parent. The lanes that it sends to the target and those that fall through share out
the members, each side with the predicate's set in `co` and the new entry as its innermost, and a side with no lanes makes no
split; when an entry's last path arrives, one split of its arrived
lanes continues after the JOIN with the `em`, `fr`, `co` and parent saved at the SPLIT. -/
def Obligations.SplitAndJoin : Prop :=
  (∀ (k : Skein) (p : Split) (taken : Mask) (target : Addr) (x : OSet) (now : Nat),
    (∃ e, (k.divide p taken target x now).stack = k.stack ++ [e] ∧ e.used = true ∧ e.opened = true ∧ e.rejoin = p.members ∧
      e.arrived = 0 ∧ e.em = p.em ∧ e.fr = p.fr ∧ e.co = p.co ∧ e.taken = taken ∧ e.takenPc = target ∧ e.parent = p.inner) ∧
    ∃ f t, (k.divide p taken target x now).splits = k.splits.filter (·.uid != p.uid) ++
        (if p.members &&& ~~~taken = 0 then [] else [f]) ++ (if taken = 0 then [] else [t]) ∧
      f.st = p.st ∧ t.st = .ready ∧ f.uid = p.uid ∧ f.pc = p.pc ∧ f.members = p.members &&& ~~~taken ∧ f.em = p.em &&& (p.members &&& ~~~taken) ∧
      t.uid = k.nextUid ∧ t.pc = target ∧ t.members = taken ∧ t.em = taken ∧ t.fr = p.fr ∧ f.fr = p.fr ∧
      f.co = p.co ||| x ∧ t.co = p.co ||| x ∧ f.inner = some k.stack.length ∧ t.inner = some k.stack.length) ∧
  ∀ (k : Skein) (now n : Nat) (e : StackSlot), k.stack[n]? = some e → e.used = true → e.arrived = e.rejoin → e.rejoin ≠ 0 →
    ∃ m, (k.complete now n).splits =
        k.splits.filter (fun p => !(p.inner == some n && p.st == .joinWait true)) ++ [m] ∧
      m.pc = e.pc + 4 ∧ m.members = e.arrived ∧ m.em = e.em &&& e.arrived ∧ m.fr = e.fr ∧ m.co = e.co ∧
      m.inner = e.parent ∧ m.st = .ready ∧ m.uid = k.nextUid

/-! ## Cross-lane words and special registers -/

/-- R151 to R153, R158 to R161: BALLOT, EQMASK, ANY, ALL and SHFL, with no active lane writing nothing. That slices of another
lane that an older load has pending are read old or new by a free choice is R32's; that no other write is ever pending is
the model's choice (log 4). -/
def Obligations.CrossLaneComplete : Prop :=
  ∀ (w : Width) (d a : BitVec 8) (b : BitVec 7) (s : State) (k : Skein) (p : Split) (x : Iss),
    let o := Iss.start s k p
    let src (n : Nat) := opdIn a.toNat n (routed p.em p.hints.srcA)
    let out (y : Iss) (n : Nat) (v : Nat → Nat) : State := if p.em = 0 then y.s else y.put (y.wr d.toNat n v y.rset)
    let ones (m : Mask) : Prop := ∀ l, l < 32 → m.getLsbD l = (p.em.getLsbD l && x.bit0 (p.hints.srcA l) a.toNat)
    (∀ m, Starts (.ballot d a) s k p → o.operands [src 1, opdOut d.toNat 8] = .ok x → ones m →
      Completes (.ballot d a) s k p (out x 8 fun _ => m.toNat)) ∧
    (∀ m, Starts (.any w d a) s k p → o.operands [src 1, opdOut d.toNat w.slices] = .ok x → ones m →
      Completes (.any w d a) s k p (out x w.slices fun _ => if m ≠ 0 then 2 ^ w.bits - 1 else 0)) ∧
    (∀ m, Starts (.all w d a) s k p → o.operands [src 1, opdOut d.toNat w.slices] = .ok x → ones m →
      Completes (.all w d a) s k p (out x w.slices fun _ => if m = p.em then 2 ^ w.bits - 1 else 0)) ∧
    (∀ f : Nat → Mask, Starts (.eqmask w d a) s k p → o.operands [src w.slices, opdOut d.toNat 8] = .ok x →
      (∀ l j, j < 32 → (f l).getLsbD j = (p.em.getLsbD j &&
        decide (x.raw (p.hints.srcA j) a.toNat w.slices = x.raw (p.hints.srcA l) a.toNat w.slices))) →
      Completes (.eqmask w d a) s k p (out x 8 fun l => (f l).toNat)) ∧
    ∀ y, Starts (.shfl w d a b) s k p →
      o.operands [opdIn a.toNat w.slices 0, opdIn b.toNat 2 (routed p.em p.hints.srcB), opdOut d.toNat w.slices] = .ok x →
      let lane (l : Nat) : Nat := p.hints.srcA (x.raw (p.hints.srcB l) b.toNat 2 % 32)
      x.operands [opdIn a.toNat w.slices (routed p.em lane)] = .ok y →
      Completes (.shfl w d a b) s k p (out y w.slices fun l => y.raw (lane l) a.toNat w.slices)

/-- R88, R121, R122, R142 to R144, R162 to R167: the words on special and block registers, the cycle counter and the origin-set
queries. LBLR waits for the writes to the register it asks about before its operands are looked at. What the words of chapter
06 leave undone with no active lane beyond R153 is the model's choice (log 18), and a k register read may give an older
value by a free choice (R144). -/
def Obligations.RegisterWordsComplete : Prop :=
  ∀ (s : State) (k : Skein) (p : Split) (x : Iss),
    let o := Iss.start s k p
    let out (y : Iss) (d : BitVec 8) (n : Nat) (v : Nat → Nat) (set : OSet) : State :=
      if p.em = 0 then y.s else y.put (y.wr d.toNat n v set)
    let top (a : BitVec 8) : Nat := x.raw (p.hints.srcA (highest p.em)) a.toNat 8
    let one (a : BitVec 8) := o.operands [opdIn a.toNat 8 (topLane p.em p.hints.srcA)] = .ok x
    (∀ (w : Width) (d num : BitVec 8), Starts (.rds w d num) s k p → o.operands [opdOut d.toNat w.slices] = .ok x →
      let g := s.gridOf k
      let obj (f : CodeObj → Nat) : Nat := match (s.ctxOf k).objs.find?
          (fun c => decide (c.code ≤ g.entry) && decide (g.entry < c.code + c.codeLen)) with
        | some c => f c
        | none => 0
      let table (l : Nat) : List Nat := [p.em.toNat, p.members.toNat, k.lfm.toNat,
        g.level * 2 ^ 17 + k.stack.length * 2 ^ 8 + k.swlo.toNat, p.co.toNat, l, k.num, (s.blockOf k).n, k.block, g.g, k.slotId,
        k.coreId, k.window, g.tenant, k.grid, obj (·.rodata), obj (·.data)]
      Completes (.rds w d num) s k p (out x d w.slices (fun l => (table l).getD num.toNat 0)
        (if num = 2 then k.lfmSet ||| p.co else p.co))) ∧
    (∀ a, Starts (.wrsEm a) s k p → one a → Completes (.wrsEm a) s k p (if p.em = 0 then x.s else
      x.put (x.k.modSplit p.uid fun q => { q with em := BitVec.ofNat 32 (top a) &&& q.members, co := q.co ||| x.rd }))) ∧
    (∀ a, Starts (.wrsSw a) s k p → one a →
      Completes (.wrsSw a) s k p (if p.em = 0 then x.s else x.put { x.k with swlo := BitVec.ofNat 2 (top a) })) ∧
    (∀ d, Starts (.rdcyc d) s k p → o.operands [opdOut d.toNat 16] = .ok x →
      Completes (.rdcyc d) s k p (out x d 16 (fun _ => (s.cluster k.cluster).counter) p.co)) ∧
    (∀ d n, Starts (.krd d n) s k p → o.operands [opdOut d.toNat 8] = .ok x →
      let b := s.blockOf k
      let r := b.ks.getD n.toNat default
      let v := r.read k.num x.s.free
      let t := out x d 8 (fun _ => v.1.toNat) (r.set ||| p.co)
      Completes (.krd d n) s k p (if p.em = 0 then t else
        { t.setBlock { b with ks := b.ks.set n.toNat v.2.1 } with free := if v.2.2 then t.free + 1 else t.free })) ∧
    (∀ n a, Starts (.kwr n a) s k p → one a →
      let b := s.blockOf k
      let r := b.ks.getD n.toNat default
      (p.em = 0 → Completes (.kwr n a) s k p x.s) ∧
      (p.em ≠ 0 → r.writer = none ∨ r.writer = some k.num →
        let r1 := { r with vals := r.vals ++ [BitVec.ofNat 32 (top a)], set := x.rd ||| p.co, writer := some k.num }
        Completes (.kwr n a) s k p (x.s.setBlock { b with ks := b.ks.set n.toNat r1 })) ∧
      (p.em ≠ 0 → r.writer ≠ none → r.writer ≠ some k.num →
        Traps (.kwr n a) s k p (BitVec.ofNat 16 (0x8B00 + n.toNat)) p.em [] (x.rd ||| p.co))) ∧
    (∀ d a, Starts (.lblr d a) s k p →
      (o.landReg (a.toNat / 8)).operandsBut false [⟨a.toNat, 1, 1, 0, false, false⟩, opdOut d.toNat 4] = .ok x →
      Completes (.lblr d a) s k p (x.put (x.wr d.toNat 4 (fun _ => (k.sets.getD (a.toNat / 8) 0).toNat) p.co))) ∧
    ∀ d a, Starts (.lblq d a) s k p → o.operands [opdIn a.toNat 16 p.em, opdOut d.toNat 4] = .ok x →
      Completes (.lblq d a) s k p
        (x.put (x.wr d.toNat 4 (fun l => (x.s.pageSetAt (x.s.ctxOf x.k) (x.raw l a.toNat 16)).toNat) (x.rd ||| p.co)))

/-! ## Atomics and barriers -/

/-- R208, R210: the value that each operation puts into memory, for an old value m, a data value x and a swap value t of w bits;
and the operations of an atomic change no byte outside the lanes' own locations, whose memory types are those of their
addresses. -/
def Obligations.AtomicOperations : Prop :=
  (∀ (w m x t : Nat), m < 2 ^ w → x < 2 ^ w →
    let S (v : Nat) : Int := (BitVec.ofNat w v).toInt
    AtomOp.new .add w m x t = (BitVec.ofNat w m + BitVec.ofNat w x).toNat ∧
    AtomOp.new .min w m x t = (if S x < S m then x else m) ∧ AtomOp.new .max w m x t = (if S x > S m then x else m) ∧
    AtomOp.new .minu w m x t = min m x ∧ AtomOp.new .maxu w m x t = max m x ∧
    AtomOp.new .and w m x t = (BitVec.ofNat w m &&& BitVec.ofNat w x).toNat ∧
    AtomOp.new .or w m x t = (BitVec.ofNat w m ||| BitVec.ofNat w x).toNat ∧
    AtomOp.new .xor w m x t = (BitVec.ofNat w m ^^^ BitVec.ofNat w x).toNat ∧
    AtomOp.new .xchg w m x t = x ∧ AtomOp.new .cas w m x t = (if m = x then t else m)) ∧
  ∀ (s : State) (core n : Nat) (new : Nat → Nat → Nat) (as : List LaneAcc) (l : Loc),
    (∀ a ∈ as, ∀ q, a.parts.head? = some q → ∀ e ∈ q.loc.span n, ¬e.same l ∧ (e.pcie = true → q.type = 2)) →
    (s.atomics core n new as).1.peek l = s.peek l

/-- R209 to R211, R394: an atomic whose lanes are aligned, mapped, permitted, of an allowed memory type, within D, free and sound
performs its lanes one at a time in a free order, returns the old values but under COMM, and orders as its suffix says. Its
release and the split's own stores to the locations come first; one to PCIe memory then sends its requests once no copy of
a line is left, waits, and traps with the lanes that were refused, or with HOST-TIMEOUT where no completion came in time. With no active lane it does nothing. That it traps as a whole
with the refused lanes in `lfm` and leaves the others unperformed is the model's choice (log 13). -/
def Obligations.AtomicsComplete : Prop :=
  ∀ (i : Instr) (op : AtomOp) (f : AtomF) (s : State) (k : Skein) (p : Split) (x : Iss), atomRow i = some (op, f) →
    Starts i s k p → (Iss.start s k p).operands (f.opds op p.em) = .ok x →
    let n := f.bits / 4
    let g := 8 * f.g.toNat
    (p.em = 0 → Completes i s k p x.s) ∧
    ∀ (as : List LaneAcc) (y z : Iss), p.em ≠ 0 → x.aligned (f.bits / 8) (x.ea f.n) = .ok () →
      x.map f.space 3 needAtomic (x.lanesAt f.n (f.bits / 8)) = .ok as → x.atomType op f as = .ok () →
      x.origin (x.rd ||| p.co) as = .ok () → x.hold true as = .ok () → x.sound as = .ok () →
      (if f.releases then x.release (decide (1 ≤ f.scope)) else .ok x) = .ok y →
      y.flush (as.flatMap LaneAcc.locs) = .ok z →
      let on := as.filter LaneAcc.onPcie
      let late := z.request.elim false (·.expired) = true
      (on ≠ [] → late → exec i s = .next (z.consume.s.trapStop (z.consume.s.withSplit k p) p (p.hints.gpc.getD p.pc) p.pc 0x1500
        (maskOfLanes (on.map (·.lane))) [] p.co)) ∧
      (on ≠ [] → ¬late → z.completion = none →
        let t := z.dropCopies on
        exec i s = .next (t.stallOn (t.withSplit k p) p (.pcie (maskOfLanes (on.map (·.lane))) []))) ∧
      (∀ st, on ≠ [] → ¬late → z.completion = some st → (∃ a ∈ on, st.testBit a.lane = true) →
        ∃ lfm addrs set, Traps i s k p 0x8405 lfm addrs set ∧
          ∀ l, l < 32 → (lfm.getLsbD l = true ↔ ∃ a ∈ on, a.lane = l ∧ st.testBit l = true)) ∧
      ∀ v, z.atomPcie as = .ok v →
        let r := v.s.atomics v.k.coreId (f.bits / 8) (fun l m => op.new f.bits m (v.raw l g n) (v.raw l (g + n) n))
          (shuffle 32 v.s.free as)
        let late := if f.comm then v.k else
          v.wrLate (v.h.look f.la) g n (fun l => (match r.2.find? (·.1 == l) with | some m => m.2 | none => 0))
            (v.rset ||| accSet as) []
        let t := { r.1 with free := r.1.free + 32 }.setSkein
          (if f.space = Space.g then late.touch (x.lanesAt f.n (f.bits / 8)) else late)
        Completes i s k p (if f.acquires then t.acquire k.id f.scope else t)

/-- R169 to R172: the four words on block barriers. BAR arrives and waits, BARARR arrives and returns the phase, BARDROP arrives
for the last time; BARWAIT waits while the phase is the token of some active lane, and leaves with an acquire; that with no
active lane it goes on without one is the model's choice (log 24). A phase completes when as many skeins
have arrived as are expected: it advances modulo 2^16, the count starts again, and the drops take effect; every split of the
block that is HELD for it, and one HELD at a BARWAIT whose tokens the new phase is none of, becomes READY with an acquire, and a
k epoch starts. An over-arrival traps and changes nothing: with the members of the split where its skein takes no part any more or has
arrived in this phase, else with those that have arrived. -/
def Obligations.BlockBarriersComplete : Prop :=
  (∀ (b : BitVec 4) (y : BitVec 8) (la : BitVec 4) (s : State) (k : Skein) (p : Split) (x z : Iss),
    let o := Iss.start s k p
    let n := b.toNat
    (Starts (.bar b) s k p → s.overArrives k n p.members = 0 →
      let k1 := o.k.modSplit p.uid fun q => { q with st := .held (.bar n) }
      Iss.release { o with k := k1, s := o.put k1 } true = .ok z →
      Completes (.bar b) s k p (z.s.arrive z.k n p.members false)) ∧
    (Starts (.bararr b y la) s k p → o.operands [opdOut y.toNat 4] = .ok x → x.s.overArrives x.k n p.members = 0 →
      let ph := ((s.blockOf k).bars.getD n default).phase
      let k1 := if p.em = 0 then x.k else x.wrLate (p.hints.look la) y.toNat 4 (fun _ => ph.toNat) p.co []
      Iss.release { x with k := k1, s := x.put k1 } true = .ok z →
      Completes (.bararr b y la) s k p (z.s.arrive z.k n p.members false)) ∧
    (Starts (.bardrop b) s k p → s.overArrives k n p.members = 0 → o.release true = .ok z →
      Completes (.bardrop b) s k p (z.s.arrive z.k n p.members true)) ∧
    (Starts (.barwait b y) s k p → o.operands [opdIn y.toNat 4 p.em] = .ok x →
      let ph := ((s.blockOf k).bars.getD n default).phase.toNat
      let toks := x.active.map fun l => x.raw l y.toNat 4
      (ph ∈ toks → Completes (.barwait b y) s k p
        (x.put (x.k.modSplit p.uid fun q => { q with st := .held (.barwait n toks) }))) ∧
      (ph ∉ toks → toks ≠ [] → Completes (.barwait b y) s k p (x.s.acquire k.id 1)) ∧
      (toks = [] → Completes (.barwait b y) s k p x.s))) ∧
  (∀ (i : Instr) (b : BitVec 4) (s : State) (k : Skein) (p : Split) (x : Iss), Starts i s k p →
    (i = .bar b ∧ x = Iss.start s k p) ∨ (i = .bardrop b ∧ x = Iss.start s k p) ∨
      (∃ (y : BitVec 8) (la : BitVec 4), i = .bararr b y la ∧ (Iss.start s k p).operands [opdOut y.toNat 4] = .ok x) →
    let q := ((s.blockOf k).bars.getD b.toNat default).partOf k.num
    let traps (lfm : Mask) : Prop := Traps i s k p (BitVec.ofNat 16 (0x8A00 + b.toNat)) lfm [] (x.rd ||| p.co)
    (q.participant = false ∨ q.arrived = true → p.members ≠ 0 → traps p.members) ∧
    (q.participant = true → q.arrived = false → q.lanes &&& p.members ≠ 0 → traps (q.lanes &&& p.members))) ∧
  (∀ (s : State) (k : Skein) (n : Nat) (lanes : Mask) (drop : Bool) (b : Block), s.block? k.grid k.block = some b →
    n < b.bars.length →
    let x := b.bars.getD n default
    let q := x.partOf k.num
    let all := q.lanes ||| lanes
    let x1 : Bar := { x with parts := x.parts.set k.num { q with lanes := all, drop := q.drop || drop } }
    let t := s.arrive k n lanes drop
    let y := x1.skeinArrives k.num
    (all ≠ k.living → t = s.setBlock { b with bars := b.bars.set n x1 }) ∧
    (all = k.living → y.2 = false → t = s.setBlock { b with bars := b.bars.set n y.1 }) ∧
    (all = k.living → y.2 = true →
      let ends (st : SplitSt) : Prop := st = .held (.bar n) ∨ ∃ toks, st = .held (.barwait n toks) ∧ y.1.phase.toNat ∉ toks
      (∃ c, t.block? k.grid k.block = some c ∧ c.bars = b.bars.set n y.1 ∧
        c.ks.map (fun r => (r.vals, r.set, r.writer)) = b.ks.map fun r => ([r.vals.getLastD 0], r.set, none)) ∧
      ∀ slot ∈ b.slots, ∀ j, s.skein? (b.core * 128 + slot) = some j → ∃ j', t.skein? j.id = some j' ∧
        j' = { j with splits := j'.splits } ∧ j'.splits.length = j.splits.length ∧
        (∀ (m : Nat) (p : Split), j.splits[m]? = some p → ∃ p', j'.splits[m]? = some p' ∧
          (ends p.st → p' = { p with st := .ready }) ∧ (¬ends p.st → p' = p)) ∧
        ((∃ p ∈ j.splits, ends p.st) → ∀ z ∈ (t.core j.coreId).l1, paType (z.line * 64) = 2))) ∧
  ∀ (x : Bar) (n : Nat),
    let q := x.partOf n
    let e' := if q.drop then x.e' - 1 else x.e'
    (x.a + 1 = x.e → x.skeinArrives n = ({ x with
      phase := x.phase + 1, a := 0, e := e', e' := e',
      parts := (x.parts.set n ⟨q.participant && !q.drop, true, false, 0⟩).map fun z => { z with arrived := false } }, true)) ∧
    (x.a + 1 ≠ x.e → x.skeinArrives n = ({ x with
      a := x.a + 1, e' := e', parts := x.parts.set n ⟨q.participant && !q.drop, true, false, 0⟩ }, false))

/-- R222 to R225: the five words on scratchpad barriers, once their checks have passed: SBINIT makes an object without reading one (R349), SBARR, SBEXP
and SBDROP update it, SBWAIT waits for its phase. With no active lane nothing happens. The checks of R224 trap in their order: offsets
that differ, with the lanes that do; an offset that is no multiple of 16; one out of range; an object that is not initialised, or a
count of 0; a block whose set does not take the word's; and an over-arrival, at an object with no arrival outstanding. -/
def Obligations.ScratchpadBarriersComplete : Prop :=
  ∀ (i : Instr) (r : SbRow) (s : State) (k : Skein) (p : Split) (x : Iss), sbRow i = some r → Starts i s k p →
    (Iss.start s k p).operands (opdIn r.y.toNat 8 p.em :: r.ops p.em) = .ok x →
    (x.sbOffset r.y.toNat = .ok none → Completes i s k p x.s) ∧
    (x.sbOffset r.y.toNat = .ok none ↔ p.em = 0) ∧
    (∀ low, low < 32 → p.em.getLsbD low = true → (∀ l, l < low → p.em.getLsbD l = false) →
      let off := x.raw low r.y.toNat 8
      let differs (l : Nat) : Prop := l < 32 ∧ p.em.getLsbD l = true ∧ x.raw l r.y.toNat 8 ≠ off
      ((∃ l, differs l) → ∃ lfm, Traps i s k p 0x8203 lfm [] (x.rd ||| p.co) ∧ ∀ l, l < 32 → (lfm.getLsbD l = true ↔ differs l)) ∧
      ((∀ l, ¬differs l) → off % 16 ≠ 0 → Traps i s k p 0x8202 p.em [] (x.rd ||| p.co)) ∧
      ((∀ l, ¬differs l) → off % 16 = 0 → x.s.spaceSize x.k .s < off + 16 →
        ∃ addrs, Traps i s k p 0x8403 p.em addrs (x.rd ||| p.co))) ∧
    (∀ (off : Nat) (y : Iss), x.sbOffset r.y.toNat = .ok (some off) →
      let acc : LaneAcc := ⟨lowest x.p.em, off, [⟨x.k.loc .s off, 16, 0, x.s.blockSets (x.k.loc .s off) 16⟩]⟩
      x.hold r.store [acc] = .ok () → (r.init = false → x.sound [acc] = .ok ()) → x.flush acc.locs = .ok y →
      let o := (y.s.blockOf y.k).sbRead off
      let takes := r.store = true → y.rset.subset (y.s.rangeSet ((y.s.blockOf y.k).sloc off) 16) = true
      let traps (code : BitVec 16) : Prop := Traps i s k p code p.em [] (x.rd ||| p.co)
      (r.ok y o = false → traps 0x8204) ∧ (r.ok y o = true → ¬takes → traps 0x8500) ∧
      (r.ok y o = true → takes → r.arrival = true → o.out = 0 → traps 0x8A10)) ∧
    ∀ (off : Nat) (y z : Iss), x.sbOffset r.y.toNat = .ok (some off) →
      let acc : LaneAcc := ⟨lowest x.p.em, off, [⟨x.k.loc .s off, 16, 0, x.s.blockSets (x.k.loc .s off) 16⟩]⟩
      x.hold r.store [acc] = .ok () → (r.init = false → x.sound [acc] = .ok ()) → x.flush acc.locs = .ok y →
      let o := (y.s.blockOf y.k).sbRead off
      r.ok y o = true → (r.store = true → y.rset.subset (y.s.rangeSet ((y.s.blockOf y.k).sloc off) 16) = true) →
      (r.arrival = true → o.out ≠ 0) → (if r.arrival then y.release true else .ok y) = .ok z →
      Completes i s k p (r.effect z (z.s.blockOf z.k) off o)

/-! ## Fences, caches, streams, spills -/

/-- R204, R212 to R217, R394: FENCE lands the split's loads, performs its stores and acquires as its suffix says, FENCE.SY also
awaiting the split's write-backs, which is the model's choice (log 6), or ending in HOST-TIMEOUT with a request that expired. CLEAN and INVAL maintain each line of the ranges, ICINV drops instruction lines, IBAR
empties the port's fetch buffer, PREF and IPREF fetch ahead, each line of their ranges' union once: the model's reading of R213
with R215 (log 27). -/
def Obligations.FencesAndCachesComplete : Prop :=
  ∀ (s : State) (k : Skein) (p : Split) (x y : Iss),
    let o := Iss.start s k p
    (∀ ord sc, Starts (.fence ord sc) s k p → o.landOwn.release (ord.getLsbD 1 && decide (1 ≤ sc.toNat)) = .ok x →
      let fin (j : Iss) : State := if ord.getLsbD 0 then j.s.acquire j.k.id sc.toNat else j.s
      (sc ≠ 4 ∨ p.uid ∉ x.k.wbs → Completes (.fence ord sc) s k p (fin x)) ∧
      (∀ r, sc = 4 → p.uid ∈ x.k.wbs → x.request = some r → r.expired = true →
        Ends (.fence ord sc) s k p (.dataError 0x1500 x.p.em [] x.p.co x.consume.s)) ∧
      (sc = 4 → p.uid ∈ x.k.wbs → (∀ r, x.request = some r → r.expired = false) → x.completion ≠ none →
        let w := { x.consume.k with wbs := x.consume.k.wbs.filter (· != p.uid) }
        Completes (.fence ord sc) s k p (fin { x.consume with k := w, s := x.consume.put w }))) ∧
    (∀ (a b : BitVec 8) (inval : Bool) (i : Instr) (as : List LaneAcc), i = (if inval then Instr.inval a b else Instr.clean a b) → Starts i s k p →
      o.rangeOperands a b = .ok x → x.mapG 4 needLoad (x.ranges a.toNat b.toNat) = .ok as →
      let ls := (as.flatMap LaneAcc.lines).eraseDups
      (x.flushIf fun e => e.loc.sp == .g && ls.any fun n => e.loc.addr / 64 == n.1) = .ok y →
      let k1 := if ∃ n ∈ ls, n.2 = 2 ∧ y.s.pdirty y.k.die n.1 = true then { y.k with wbs := p.uid :: y.k.wbs } else y.k
      Completes i s k p (ls.foldl (fun t n => t.maintain y.k.coreId n.1 n.2 inval) (y.put k1))) ∧
    (∀ (a b : BitVec 8) (as : List LaneAcc), Starts (.icinv a b) s k p → o.rangeOperands a b = .ok x →
      x.mapG 4 needCode (x.ranges a.toNat b.toNat) = .ok as →
      let kept (l : List CLine) := l.filter fun q => q.line ∉ (as.flatMap LaneAcc.lines).map (·.1)
      Completes (.icinv a b) s k p (x.s.modCore x.k.coreId fun c => { c with ic := kept c.ic, fills := kept c.fills })) ∧
    (Starts .ibar s k p → Completes .ibar s k p
      (o.s.modCore k.coreId fun c => if k.slotId % 2 = 0 then { c with fetch0 := [] } else { c with fetch1 := [] })) ∧
    ∀ (a b : BitVec 8) (code : Bool) (i : Instr), i = (if code then Instr.ipref a b else Instr.pref a b) → Starts i s k p → o.rangeOperands a b = .ok x →
      let spans := ((x.ranges a.toNat b.toNat).map (·.2)).eraseDups
      Completes i s k p (x.s.fetchRanges (x.s.ctxOf x.k) x.k.coreId (if code then needCode else needLoad) [] spans)

/-- R193, R218, R219: STREAM arms a stream in the lowest free slot of its core under the skein's lowest free handle, or
answers 0xF; STREAMX ends one. With no active lane nothing happens: the model's choice (log 18). -/
def Obligations.StreamsComplete : Prop :=
  ∀ (a b : BitVec 8) (la : BitVec 4) (s : State) (k : Skein) (p : Split) (x : Iss),
    let o := Iss.start s k p
    let h := highest p.em
    (Starts (.stream a b la) s k p →
      o.operands [⟨a.toNat, 32, 32, topLane p.em id, true, false⟩, opdOut b.toNat 1] = .ok x →
      (p.em = 0 → Completes (.stream a b la) s k p x.s) ∧
      ∀ (y : Iss) (pol : BitVec 32),
        let stride := signed 32 (x.raw h (a.toNat + 16) 8)
        let ctl := x.raw h (a.toNat + 24) 8
        p.em ≠ 0 → streamOk stride ctl = true → x.policy (bitsOf ctl 16 4) false = .ok (pol, y) →
        let used := y.s.streamSlots y.k.coreId
        let write (v : Nat) : Skein := y.wrLate (y.h.look la) b.toNat 1 (fun _ => v) y.rset []
        (∀ n m, n < 32 → m < 2 → n ∉ used → (∀ q ∈ y.k.streams, q.handle ≠ m) →
          (∀ n', n' < n → n' ∈ used) → (∀ m', m' < m → ∃ q ∈ y.k.streams, q.handle = m') →
          Completes (.stream a b la) s k p (y.put { write m with
            streams := y.k.streams ++ [⟨m, n, x.raw h a.toNat 16 / 64 * 64, stride, bitsOf ctl 0 16, 0, -1, pol⟩] })) ∧
        ((∀ n, n < 32 → n ∈ used) ∨ (∀ m, m < 2 → ∃ q ∈ y.k.streams, q.handle = m) →
          Completes (.stream a b la) s k p (y.put (write 15)))) ∧
    (Starts (.streamx b) s k p → o.operands [opdIn b.toNat 1 (topLane p.em id)] = .ok x →
      (p.em = 0 ∨ x.raw h b.toNat 1 = 15 → Completes (.streamx b) s k p x.s) ∧
      (p.em ≠ 0 → x.raw h b.toNat 1 ≤ 1 → Completes (.streamx b) s k p
        (x.put { x.k with streams := x.k.streams.filter (·.handle != x.raw h b.toNat 1) })))

/-- R220, R221: SPILL stores, and FILL loads, c slices of each active lane with the sets of the registers that hold them; a SPILL
performed again stores the sets that it read at its issue (R21). With no active lane nothing happens: the model's choice (log 18),
as are which lane's run the checks before the control word look at and what a replay keeps (logs 11 and 41). -/
def Obligations.SpillAndFillComplete : Prop :=
  ∀ (a b : BitVec 8) (la : BitVec 4) (s : State) (k : Skein) (p : Split) (x y : Iss) (sp : Space) (c : Nat)
    (as : List LaneAcc),
    let o := Iss.start s k p
    let store := o.spillOperands b.toNat fun c => ⟨a.toNat, c, 1, p.em, true, false⟩
    let load := o.spillOperands b.toNat fun c => ⟨a.toNat, c, 1, 0, false, true⟩
    (p.em = 0 → (Starts (.spill a b) s k p → store = .ok x → Completes (.spill a b) s k p x.s) ∧
      (Starts (.fill a b la) s k p → load = .ok x → Completes (.fill a b la) s k p x.s)) ∧
    (p.em ≠ 0 → y.spillCtl b.toNat = .ok (sp, c) →
      (Starts (.spill a b) s k p → store = .ok y →
        y.map sp 2 needStore (y.records a.toNat b.toNat c) = .ok as → y.origin y.rset as = .ok () →
        y.hold true as = .ok () →
        let sets : List OSet := match p.again.bind (·.kept) with
          | some r => r.regs
          | none => (regsOf a.toNat c).map (y.k.readSet ⟨a.toNat, c, 1, p.em, true, false⟩)
        Completes (.spill a b) s k p (y.put (y.store 8 as fun l => bytesLE (spillBytes c) (y.raw l a.toNat c) ++
          sets.flatMap fun u => bytesLE 2 u.toNat))) ∧
      ∀ v : ReadView, Starts (.fill a b la) s k p → load = .ok y →
        y.map sp 1 needLoad (y.records a.toNat b.toNat c) = .ok as → y.load 0 as = .ok v →
        let val (l : Nat) : Nat := match as.find? (·.lane == l) with
          | some q => ofBytesLE ((v.bytes q).take (spillBytes c))
          | none => 0
        let set (r : Nat) : OSet :=
          v.i.rset ||| accSet as ||| fillSet (as.map v.bytes) (spillBytes c) (r - a.toNat / 8)
        let late := v.i.k.writeLater p.uid v.i.gpc v.i.pc (v.i.h.look la) v.i.p.em (regsOf a.toNat c) (sliceMask a.toNat c)
          (imageOf a.toNat c val) set (as.map LaneAcc.src)
        Completes (.fill a b la) s k p
          (v.i.put (if sp = .g then late.touch (y.records a.toNat b.toNat c) else late)))

/-! ## Spawning, launching, waiting for bits -/

/-- R147, R173 to R176, R193: SPAWN releases, puts each active lane's thread into its entry's bin, one lane after another, and returns a
status in each: 2 at nest level 9, 0 where a bin of the entry exists or a bin is free, else 1; a bin that then has 32 threads launches.
An entry that is no kernel of one skein traps with its lanes. LAUNCH reads each active lane's descriptor, which moves the skein's streams, releases, accepts or refuses the children in lane order, and returns a status in
each lane: 1 at nest level 9, 2 while the partition drains, 3 with 16 children, 4 for a refused descriptor or retire
word, 0 when accepted. -/
def Obligations.SpawnAndLaunchComplete : Prop :=
  (∀ (a b : BitVec 8) (la : BitVec 4) (s : State) (k : Skein) (p : Split) (x y : Iss), Starts (.spawn a b la) s k p →
    (Iss.start s k p).operands [⟨a.toNat, 32, 32, p.em, true, false⟩, opdOut b.toNat 1] = .ok x →
    (p.em = 0 → Completes (.spawn a b la) s k p x.s) ∧
    (p.em ≠ 0 → (∀ l, l < 32 → p.em.getLsbD l = true → x.s.spawnable x.k (x.raw l (a.toNat + 16) 16) = true) →
      x.release true = .ok y →
      let r := y.s.placeThreads y.k.cluster (y.s.spawner y.k) (k.grid, k.block) y.rset y.p.co
        (y.active.map fun l => (l, y.raw l (a.toNat + 16) 16, y.raw l a.toNat 16))
      Completes (.spawn a b la) s k p (r.1.setSkein (y.wrLate (y.h.look la) b.toNat 1
        (fun l => (match r.2.find? (·.1 == l) with | some q => q.2 | none => 0)) y.rset []))) ∧
    ((∃ l, l < 32 ∧ p.em.getLsbD l = true ∧ x.s.spawnable x.k (x.raw l (a.toNat + 16) 16) = false) →
      ∃ lfm, Traps (.spawn a b la) s k p 0x8204 lfm [] (x.rd ||| p.co) ∧ ∀ l, l < 32 →
        (lfm.getLsbD l = true ↔ p.em.getLsbD l = true ∧ x.s.spawnable x.k (x.raw l (a.toNat + 16) 16) = false))) ∧
  (∀ (s : State) (cl entry arg lane : Nat) (g : Grid) (giver : Nat × Nat) (vset coset : OSet) (rest : List (Nat × Nat × Nat)),
    let bins := (s.cluster cl).bins
    let r := s.placeThread cl g giver entry arg vset coset
    let mine (b : Bin) : Prop := b.entry = entry ∧ b.grid = g.id
    s.placeThreads cl g giver vset coset [] = (s, []) ∧
    (∀ q, q = r.1.placeThreads cl g giver vset coset rest →
      s.placeThreads cl g giver vset coset ((lane, entry, arg) :: rest) = (q.1, (lane, r.2) :: q.2)) ∧
    (g.level = 9 → r = (s, 2)) ∧
    (g.level ≠ 9 → (∀ b ∈ bins, ¬mine b) → (64 ≤ bins.length → r = (s, 1)) ∧
      (bins.length < 64 → r = (s.modCluster cl fun c => { c with
        bins := c.bins ++ [⟨entry, g.id, [BitVec.ofNat 64 arg], vset, coset, s.ticks, [giver]⟩] }, 0))) ∧
    ∀ pre b post, g.level ≠ 9 → bins = pre ++ b :: post → (∀ c ∈ pre, ¬mine c) → mine b → (∀ c ∈ post, ¬mine c) →
      cl < s.clusters.length →
      let b' : Bin := { b with
        args := b.args ++ [BitVec.ofNat 64 arg], vset := b.vset ||| vset, coset := b.coset ||| coset, givers := giver :: b.givers }
      let t := s.modCluster cl fun c => { c with bins := pre ++ b' :: post }
      r = (if b.args.length < 31 then t else t.launchBin cl b', 0)) ∧
  (∀ (a : BitVec 8) (disp : BitVec 18) (s : State) (k : Skein) (p : Split) (x y : Iss) (as : List LaneAcc) (v : ReadView),
    let i : Instr := .launch a disp
    let entry := (p.pc + 4 * disp.signExtend 64).toNat
    Starts i s k p →
    (Iss.start s k p).operands [⟨a.toNat, 32, 1, p.em, true, false⟩, ⟨a.toNat, 8, 1, 0, false, true⟩] = .ok x →
    k.num = 0 → (∃ o, x.s.objOf x.k = some o ∧ ∃ q ∈ o.kernels, o.code + q.entry = entry) → a.toNat % 32 = 0 →
    (p.em = 0 → Completes i s k p x.s) ∧
    (p.em ≠ 0 →
      (∀ l, l < 32 → p.em.getLsbD l = true → x.raw l a.toNat 16 % 64 = 0 ∧ x.raw l (a.toNat + 16) 16 % 4 = 0) →
      x.mapG 1 needLoad (x.active.map fun l => (l, x.raw l a.toNat 16, 128)) = .ok as → x.load 0 as = .ok v →
      v.i.release true = .ok y →
      let r := y.s.launchLanes y.k entry (y.rset ||| accSet as)
        (as.map fun q => (q.lane, v.bytes q, x.raw q.lane (a.toNat + 16) 16))
      Completes i s k p (r.1.setSkein ((y.wr a.toNat 8
        (fun l => (match r.2.find? (·.1 == l) with | some q => q.2 | none => 0)) (y.rset ||| accSet as)).touch
          (x.active.map fun l => (l, x.raw l a.toNat 16, 128)))))) ∧
  ∀ (s : State) (k : Skein) (entry : Nat) (d : List Byte) (w : Nat) (set : OSet),
    let g := s.gridOf k
    let parsed := s.parseDesc (s.ctxOf k) (.launch entry g.tenant (g.level + 1) g.prio) (.child k.grid k.block w set) d
    let r := s.launchLane k entry d w set
    (g.level = 9 → r = (s, 1)) ∧ (g.level ≠ 9 → s.drains g.part = true → r = (s, 2)) ∧
    (g.level ≠ 9 → s.drains g.part = false →
      (16 ≤ s.childCount k.grid k.block → r = (s, 3)) ∧
      (s.childCount k.grid k.block < 16 →
        (parsed = none → r = (s, 4)) ∧
        ∀ q, parsed = some q → (s.retireOk (s.ctxOf k) w g.tenant = false → r = (s, 4)) ∧
          (s.retireOk (s.ctxOf k) w g.tenant = true → r = ((s.accept q).2, 0))))

/-- R177, R193, R394: BITWAIT passes with an acquire once every active lane's bit reads 1, with the sets of the words read in `co`, and is
HELD until then; its poll reads the words again with their translations, permissions and errors, adds their sets, and ends the wait of a
running skein. Each read moves the skein's streams. That every bit must read 1 in one poll, and that at a word which can no longer be
read, one of PCIe memory that needs a request among them, the split performs the instruction again with what it read at its issue and
meets the cause there, are the model's choices (log 26). -/
def Obligations.BitwaitCompletes : Prop :=
  let ends (t : State) (k : Skein) (uid : Nat) (set : OSet) : State :=
    (t.setSkein ((k.joinCo set).modSplit uid fun q => { q with st := .ready })).acquire k.id 3
  (∀ (a b : BitVec 8) (s : State) (k : Skein) (p : Split) (x w y : Iss) (as : List LaneAcc), Starts (.bitwait a b) s k p →
    (Iss.start s k p).operands [opdPair a.toNat p.em, opdIn b.toNat 8 p.em] = .ok x →
    (p.em = 0 → Completes (.bitwait a b) s k p x.s) ∧
    (p.em ≠ 0 → (x.aligned 4 fun l => x.raw l a.toNat 16) = .ok () →
      x.mapG 1 needLoad (x.active.map fun l => (l, (x.raw l a.toNat 16 + 4 * (x.raw l b.toNat 8 / 32)) % 2 ^ 64, 4)) =
        .ok as →
      x.sound as = .ok () → x.pcieReady as = .ok w → w.flush (as.flatMap LaneAcc.locs) = .ok y →
      let bits := as.map fun q => (q.lane, q.addr, x.raw q.lane b.toNat 8 % 32)
      let one (q : LaneAcc) : Prop := y.s.bitSet y.k.die q.first (x.raw q.lane b.toNat 8 % 32) = true
      ∃ (r : Redo) (sets : OSet),
        (∀ t, t < 16 → (sets.getLsbD t = true ↔ x.rd.getLsbD t = true ∨ (∃ u ∈ x.regs, u.getLsbD t = true) ∨
          ∃ q ∈ as, q.set.getLsbD t = true)) ∧
        r.instr = .bitwait a b ∧ r.word = p.pc ∧ r.counted = true ∧ r.read = sets ∧ (∃ z, r.kept = some z ∧ z.files = x.files) ∧
        let j := y.k.touch (bits.map fun v => (v.1, v.2.1, 4))
        ((∀ q ∈ as, one q) → Completes (.bitwait a b) s k p (x.shed (ends y.s j p.uid sets))) ∧
        ((∃ q ∈ as, ¬one q) → Completes (.bitwait a b) s k p
          (x.shed (y.s.setSkein (j.modSplit p.uid fun q => { q with st := .held (.bitwait r bits) })))))) ∧
  ∀ (s : State) (k : Skein) (p : Split) (uid : Nat) (r : Redo) (bits : List (Nat × Nat × Nat)),
    s.skein? k.id = some k → k.split? uid = some p → p.st = .held (.bitwait r bits) → k.stop = none →
    let pages := s.bitPages k bits
    let does (t : State) : Prop := exec (.bitwaitPoll k.id uid) s = .next t
    let j := k.touch (bits.map fun v => (v.1, v.2.1, 4))
    (∀ ls : List (Loc × OSet), pages = ls.map some →
      let r' := r.join (ls.foldl (fun u q => u ||| q.2) 0)
      let ones := ∀ q ∈ ls.zip bits, s.bitSet k.die q.1.1 q.2.2.2 = true
      (ones → does (ends s j uid r'.read)) ∧
      (¬ones → does (s.setSkein (j.modSplit uid fun q => { q with st := .held (.bitwait r' bits) })))) ∧
    (none ∈ pages → does (s.setSkein (k.modSplit uid fun q =>
      { q with st := .ready, again := some r, pc := r.word, hints := r.hints }))) ∧
    (k.flaw = none → ∀ (n : Nat) (v : Nat × Nat × Nat) (l : Loc) (set : OSet), bits[n]? = some v → (pages[n]? = some (some (l, set)) ↔
      ∃ f, s.translate (s.ctxOf k) v.2.1 = .leaf f ∧ f.rd = true ∧ f.set &&& ~~~(s.ctxOf k).readMask = 0 ∧ l = locG f.pa ∧ set = f.set ∧
        ∀ m ∈ (locG f.pa).span 4, s.failedAt m = false ∧ (f.type = 2 → s.pbyte? k.die m.addr ≠ none)))

/-! ## Service words -/

/-- R247, R347, R352 to R354: TRAP and BRK stop the skein at their group with codes of classes 0x12 and 0x11, `lfm` the active lanes,
and the immediate in the record. TACK goes on, or, when a pre-emption of the context on the cluster is pending, stops
with its recipe index. SYSCALL releases every access of the skein, parks the split with one call for each active lane that carries v0 to v3, and
sends one record; with no active lane it only moves past itself, and in a window of less than 32 slices it traps. -/
def Obligations.ServiceWordsComplete : Prop :=
  (∀ (s : State) (k : Skein) (p : Split),
    let o := Iss.start s k p
    let gpc := p.hints.gpc.getD p.pc
    let halt (code : BitVec 16) (cause : Nat) (lfm : Mask) (imm : BitVec 32) : State :=
      o.s.takeStop (o.k.modSplit p.uid fun q => { q with pc := gpc }) p.uid
        { k.record gpc p.pc p.em with code := code, cause := cause, lfm := lfm, imm := imm } p.co none
    (∀ imm, Starts (.trap imm) s k p → let n := (p.hints.imm imm false).toNat
      Completes (.trap imm) s k p (halt (BitVec.ofNat 16 (0x9200 + n % 256)) 2 p.em (BitVec.ofNat 32 n))) ∧
    (∀ imm, Starts (.brk imm) s k p → let n := (p.hints.imm imm false).toNat
      Completes (.brk imm) s k p (halt (BitVec.ofNat 16 (0x9100 + n % 256)) 3 p.em (BitVec.ofNat 32 n))) ∧
    ∀ idx, Starts (.tack idx) s k p →
      let n := match (s.ctxOf k).objAt p.pc.toNat with | some q => q.nrec | none => 0
      (idx.toNat < n → s.preempting k = false → Completes (.tack idx) s k p o.s) ∧
      (idx.toNat < n → s.preempting k = true → Completes (.tack idx) s k p (halt 0 5 0 (BitVec.ofNat 32 idx.toNat))) ∧
      (n ≤ idx.toNat → Traps (.tack idx) s k p 0x8204 p.em [] p.co)) ∧
  (∀ (imm : BitVec 7) (s : State) (k : Skein) (p : Split), Starts (.syscall imm) s k p → k.window < 32 →
    Traps (.syscall imm) s k p 0x8201 p.em [] p.co) ∧
  ∀ (imm : BitVec 7) (s : State) (k : Skein) (p : Split) (x y : Iss), Starts (.syscall imm) s k p → 32 ≤ k.window →
    (p.em = 0 → Completes (.syscall imm) s k p (Iss.start s k p).s) ∧
    (p.em ≠ 0 → (Iss.start s k p).operands [opdIn 0 32 p.em] = .ok x → x.releaseIf (fun _ => true) true = .ok y →
      let n := (p.hints.imm imm false).toNat
      let gpc := p.hints.gpc.getD p.pc
      let call (l : Nat) : Call := ⟨l, n, (List.range 4).map fun r => BitVec.ofNat 32 (y.raw l (8 * r) 8), none⟩
      Completes (.syscall imm) s k p ((y.put (y.k.modSplit p.uid fun q =>
        { q with st := .parked (.syscall (y.active.map call) y.rset (p.pc + 4) p.pc) })).receive k.cluster
          { k.record gpc p.pc p.em with cause := 1, imm := BitVec.ofNat 32 n }))

/-- R360, R361: UINT releases, raises each active lane's interrupt in lane order and returns the statuses; one lane's
interrupt sets its bit in the pending record and reports delivered, with an interrupt to the core on which the target's
thread runs, or posted, or reports a bad handle or a denied record and changes nothing. -/
def Obligations.UserInterruptsComplete : Prop :=
  (∀ (d a : BitVec 8) (s : State) (k : Skein) (p : Split) (x y : Iss), Starts (.uint d a) s k p →
    (Iss.start s k p).operands [opdPair a.toNat p.em, opdOut d.toNat 1] = .ok x → x.release true = .ok y →
    let args := y.active.map fun l => (l, y.raw l a.toNat 8, y.raw l (a.toNat + 8) 8)
    (∀ q ∈ args, ∀ t, y.s.uints.find? (·.handle == q.2.1) = some t → ∀ f, y.s.recordPage t = some f →
      ∀ l ∈ (locG f.pa).span 8, y.s.owned l = false ∧ y.s.pinned l = false) →
    y.sound (y.s.records y.rset args) = .ok () →
    let r := y.s.interrupts y.k.coreId y.rset args
    Completes (.uint d a) s k p (r.1.setSkein (y.wr d.toNat 1
      (fun l => (match r.2.find? (·.1 == l) with | some q => q.2 | none => 0)) y.rset))) ∧
  ∀ (s : State) (core h v : Nat) (D : OSet),
    ((∀ t ∈ s.uints, t.handle ≠ h) ∨ 64 ≤ v → s.interrupt core h v D = (s, 2)) ∧
    ∀ t f, s.uints.find? (·.handle == h) = some t → v < 64 → s.recordPage t = some f →
      (D &&& ~~~f.set ≠ 0 → s.interrupt core h v D = (s, 3)) ∧
      (D &&& ~~~f.set = 0 → Memory.wf s.mem = true →
        (s.interrupt core h v D).2 = (if t.kind = 0 ∧ t.core ≠ none then 0 else 1) ∧
        (s.interrupt core h v D).1.appInts =
          s.appInts ++ (match t.core with | some n => if t.kind = 0 then [(n, h)] else [] | none => []) ∧
        cellsNat (s.interrupt core h v D).1.mem f.pa 8 = cellsNat s.mem f.pa 8 ||| 2 ^ v)

/-! ## Engines, batches, baskets -/

/-- R274, R278, R279 to R284, R290, R298 to R305: an engine command with no active lane does nothing; with 64 commands in the core's
Wringer or 32 of the skein, or 64 in the skein's Mangle queue, the split is STALLED. A Wringer command whose arguments,
regions, barrier and origin sets pass their checks is queued in the open batch, once the split's stores are released,
with the lines it owns and writes, its uncorrectable source errors counted and the first of them its fault. Else the first cause ends
the word: an operand, a limit, the regions and pages in their order, the barrier object, an origin set. That a full
queue comes before every other check, what a failed source leaves unwritten, and how the traps that keep a command from
being queued are ordered are the model's choices (logs 19 and 20). -/
def Obligations.WringerCommandsComplete : Prop :=
  (∀ (i : Instr) (s : State) (k : Skein) (p : Split), Starts i s k p →
    (isWringer i = true ∨ isMangleCommand i = true → p.em = 0 → Completes i s k p (Iss.start s k p).s) ∧
    (isWringer i = true → p.em ≠ 0 → 64 ≤ (Iss.start s k p).s.wringerLoad k.coreId ∨ 32 ≤ k.cmds.length →
      exec i s = .next (s.stallOn k p .wringer)) ∧
    (isMangleCommand i = true → p.em ≠ 0 → 64 ≤ k.mq.length → exec i s = .next (s.stallOn k p .mangle))) ∧
  (∀ (x : Iss) (sp : Space) (need : Need) (addr n : Nat),
    let hi := highest x.p.em
    let c := x.s.ctxOf x.k
    let ends (code : BitVec 16) (va : Nat) : Prop := x.region sp need addr n = .error (.trap code x.p.em [(hi, va)] x.rset)
    x.narrow sp addr = (if sp = .g ∨ addr < 2 ^ 32 then .ok () else .error (.trap 0x8403 x.p.em [] x.rset)) ∧
    (n = 0 → x.region sp need addr n = (x.narrow sp addr).map fun _ => ⟨[], []⟩) ∧
    (n ≠ 0 → sp ≠ .g →
      let size := x.s.spaceSize x.k sp
      (2 ^ 32 ≤ addr ∨ size < addr + n → ends 0x8403 addr) ∧
      (addr < 2 ^ 32 → addr + n ≤ size →
        (x.s.hitsBasket x.k sp addr n = true → ends 0x8406 addr) ∧
        (x.s.hitsBasket x.k sp addr n = false → ∃ E, x.region sp need addr n = .ok E ∧ E.locs = (x.k.loc sp addr).span n))) ∧
    (n ≠ 0 → sp = .g →
      let pages := (addr % 65536 + n + 65535) / 65536
      let va (i : Nat) : Nat := if i = 0 then addr else (addr / 65536 + i) * 65536 % 2 ^ 64
      let walk (i : Nat) : Walk := x.s.translate c (va i)
      let taken (e : Leaf) : Prop := e.permits need = true ∧ (need.mask = true → e.set &&& ~~~c.readMask = 0)
      ((∀ i, i < pages → ∃ e, walk i = .leaf e ∧ taken e) → ∃ E, x.region sp need addr n = .ok E) ∧
      ∀ i, i < pages → (∀ m, m < i → ∃ e, walk m = .leaf e ∧ taken e) →
        ((∀ e, walk i ≠ .leaf e) → x.region sp need addr n = .error (.park 4 [(hi, va i)] (walk i == .malformed) none)) ∧
        ∀ e, walk i = .leaf e → (e.permits need = false → ends 0x8401 (va i)) ∧
          (e.permits need = true → ¬taken e → ends 0x8402 (va i)))) ∧
  (∀ (x y : Iss) (off : Nat),
    let hi := highest x.p.em
    let at_ := x.k.loc .s off
    let acc : LaneAcc := ⟨hi, off, [⟨at_, 16, 0, x.s.blockSets at_ 16⟩]⟩
    let object := (y.s.blockOf y.k).sbRead off
    x.checkBarrier none = .ok () ∧
    (off % 16 ≠ 0 → x.checkBarrier (some off) = .error (.trap 0x8202 x.p.em [] x.rset)) ∧
    (off % 16 = 0 → (∀ c, x.region .s needAtomic off 16 = .error c → x.checkBarrier (some off) = .error c) ∧
      (∀ E, x.region .s needAtomic off 16 = .ok E → x.hold false [acc] = .ok () → x.sound [acc] = .ok () →
        x.flush (at_.span 16) = .ok y →
        x.checkBarrier (some off) = (if object.flags = 1 ∧ object.rest = 0 then .ok () else .error (.trap 0x8204 x.p.em [] x.rset))))) ∧
  ∀ (s : State) (k : Skein) (p : Split) (x j : Iss) (a b : BitVec 8) (sp : BitVec 3) (bar : Option Nat),
    let arg (r n : Nat) : Nat := x.arg a.toNat r n
    let begins (i : Instr) (regs other : List (Nat × Nat)) (r : Res Iss) : Prop := Starts i s k p ∧ p.em ≠ 0 ∧
      (Iss.start s k p).s.wringerLoad k.coreId < 64 ∧ k.cmds.length < 32 ∧
      (Iss.start s k p).operands (argOpds a.toNat regs other p.em) = r
    let ready (i : Instr) (regs other : List (Nat × Nat)) : Prop := begins i regs other (.ok x) ∧ x.release true = .ok j
    let small (n : Nat) : Prop := n ≤ 1048576 ∧ n % 4 = 0
    let word : Nat := x.raw (highest p.em) b.toNat 8
    let wordOk : Prop := bitsOf word 19 12 = 0 ∧ (bitsOf word 31 1 = 0 → bitsOf word 0 19 = 0)
    let named : Option Nat := if bitsOf word 31 1 = 1 then some (bitsOf word 0 19) else none
    let one (r : Res Extent) : Res Unit := r.map fun _ => ()
    let all (r : Res (List Extent)) : Res Unit := r.map fun _ => ()
    let list (r : Res (Extent × List (Option Nat))) : Res Unit := r.map fun _ => ()
    let stops (i : Instr) (args : Prop) (checks : List (Res Unit)) (fits : Prop) : Prop :=
      (¬args → Traps i s k p 0x8204 p.em [] x.rset) ∧
      (args → (∀ pre c post, checks = pre ++ .error c :: post → (∀ r ∈ pre, r = .ok ()) → Ends i s k p c) ∧
        ((∀ r ∈ checks, r = .ok ()) → ¬fits → Traps i s k p 0x8500 p.em [] x.rset))
    let ext : Nat := arg 4 8
    let count : Nat := bitsOf (arg 5 8) 0 17
    let lz : Nat := bitsOf (arg 5 8) 24 4
    let z : Nat := 2 ^ lz
    let limits : Prop := bitsOf (arg 5 8) 17 7 = 0 ∧ bitsOf (arg 5 8) 28 4 = 0 ∧ 1 ≤ count ∧ count ≤ 65536 ∧ 2 ≤ lz ∧ lz ≤ 10 ∧
      count * z ≤ 1048576 ∧ 1 ≤ ext ∧ ext * z ≤ 2 ^ 32 ∧ arg 6 8 % 4 = 0 ∧ arg 0 16 % 4 = 0 ∧ arg 2 16 % 4 = 0
    let fault (ext : Nat) (idx : List (Option Nat)) : Option (BitVec 16) :=
      if ∃ n ∈ idx.filterMap id, ext ≤ n then some 0x8403 else none
    let both : List Space := [(pairSpaces sp).1, (pairSpaces sp).2]
    (∀ c i regs other, (i, regs, other) ∈ [(.wcopy a b sp, [(0, 16), (2, 16), (4, 8)], [(b.toNat, 8)]),
        (.wfill a b sp, [(0, 16), (4, 8), (5, 8)], [(b.toNat, 8)]), (.wsend a, [(0, 16), (2, 16), (4, 8), (5, 8)], []),
        (.wgath a b sp, [(0, 16), (2, 16), (4, 8), (5, 8), (6, 8)], [(b.toNat, 8)]),
        (.wscat a b sp, [(0, 16), (2, 16), (4, 8), (5, 8), (6, 8)], [(b.toNat, 8)]),
        (.wcollSumF32 a, [(0, 16), (2, 16), (4, 8), (5, 8), (6, 8)], []), (.wcollSumB16 a, [(0, 16), (2, 16), (4, 8), (5, 8), (6, 8)], []),
        (.wcollSumI32 a, [(0, 16), (2, 16), (4, 8), (5, 8), (6, 8)], []), (.wcollGather a, [(0, 16), (2, 16), (4, 8), (5, 8), (6, 8)], []),
        (.wcollBcast a, [(0, 16), (2, 16), (4, 8), (5, 8), (6, 8)], [])] → begins i regs other (.error c) → Ends i s k p c) ∧
    (begins (.wcopy a b sp) [(0, 16), (2, 16), (4, 8)] [(b.toNat, 8)] (.ok x) → stops (.wcopy a b sp)
      (small (arg 4 8) ∧ arg 0 16 % 4 = 0 ∧ arg 2 16 % 4 = 0 ∧ wordOk)
      [one (x.region (pairSpaces sp).1 needLoad (arg 0 16) (arg 4 8)),
        one (x.region (pairSpaces sp).2 needStore (arg 2 16) (arg 4 8)), x.checkBarrier named]
      (∀ A B, x.region (pairSpaces sp).1 needLoad (arg 0 16) (arg 4 8) = .ok A →
        x.region (pairSpaces sp).2 needStore (arg 2 16) (arg 4 8) = .ok B → B.takes (A.set ||| x.rset) = true)) ∧
    (begins (.wfill a b sp) [(0, 16), (4, 8), (5, 8)] [(b.toNat, 8)] (.ok x) → stops (.wfill a b sp)
      (small (arg 4 8) ∧ arg 0 16 % 4 = 0 ∧ wordOk)
      [one (x.region (fillSpace sp) needStore (arg 0 16) (arg 4 8)), x.checkBarrier named]
      (∀ B, x.region (fillSpace sp) needStore (arg 0 16) (arg 4 8) = .ok B → B.takes x.rset = true)) ∧
    (begins (.wgath a b sp) [(0, 16), (2, 16), (4, 8), (5, 8), (6, 8)] [(b.toNat, 8)] (.ok x) →
      stops (.wgath a b sp) (limits ∧ wordOk) [list (x.indexList (arg 6 8) count)] True ∧
      ∀ L idx, limits → wordOk → x.indexList (arg 6 8) count = .ok (L, idx) →
        let elements := x.regions (pairSpaces sp).1 needLoad z ((indexed ext idx).map fun e => (arg 0 16 + e.2 * z) % 2 ^ 64)
        let dest := x.region (pairSpaces sp).2 needStore (arg 2 16) (count * z)
        stops (.wgath a b sp) True [x.narrow (pairSpaces sp).1 (arg 0 16), all elements, one dest, x.checkBarrier named]
          (∀ es B, elements = .ok es → dest = .ok B → B.takes (es.foldl (fun u e => u ||| e.set) (L.set ||| x.rset)) = true)) ∧
    (begins (.wscat a b sp) [(0, 16), (2, 16), (4, 8), (5, 8), (6, 8)] [(b.toNat, 8)] (.ok x) →
      stops (.wscat a b sp) (limits ∧ wordOk) [list (x.indexList (arg 6 8) count)] True ∧
      ∀ L idx, limits → wordOk → x.indexList (arg 6 8) count = .ok (L, idx) →
        let source := x.region (pairSpaces sp).1 needLoad (arg 0 16) (count * z)
        let elements := x.regions (pairSpaces sp).2 needStore z ((indexed ext idx).map fun e => (arg 2 16 + e.2 * z) % 2 ^ 64)
        stops (.wscat a b sp) True [one source, x.narrow (pairSpaces sp).2 (arg 2 16), all elements, x.checkBarrier named]
          (∀ A es, source = .ok A → elements = .ok es → ∀ e ∈ es, e.takes (A.set ||| L.set ||| x.rset) = true)) ∧
    (begins (.wsend a) [(0, 16), (2, 16), (4, 8), (5, 8)] [] (.ok x) → stops (.wsend a)
      (small (arg 4 8) ∧ arg 0 16 % 4 = 0 ∧ arg 2 16 % 4 = 0 ∧ bitsOf (arg 5 8) 10 22 = 0 ∧
        arg 5 8 < (x.s.part (x.s.ctxOf x.k).part).modules.length)
      [one (x.region .g needLoad (arg 0 16) (arg 4 8))] True) ∧
    (∀ (i : Instr) (kind : Nat),
      (i, kind) ∈ [(.wcollSumF32 a, 0), (.wcollSumB16 a, 1), (.wcollSumI32 a, 2), (.wcollGather a, 3), (.wcollBcast a, 4)] →
      begins i [(0, 16), (2, 16), (4, 8), (5, 8), (6, 8)] [] (.ok x) →
      let group := x.s.groups.find? (fun g => g.handle == arg 5 8 && g.ctx == x.k.ctx && g.ready)
      (group = none → Traps i s k p 0x8204 p.em [] x.rset) ∧
      ∀ g, group = some g →
        let total := if kind = 3 then g.members.length * arg 4 8 else arg 4 8
        let source : Res Extent :=
          if kind = 4 ∧ arg 6 8 ≠ g.self then .ok ⟨[], []⟩ else x.region .g needLoad (arg 0 16) (arg 4 8)
        let dest := x.region .g needStore (arg 2 16) total
        stops i (bitsOf (arg 6 8) 10 22 = 0 ∧ arg 6 8 < g.members.length ∧ 4 ≤ arg 4 8 ∧ small (arg 4 8) ∧ total ≤ 1048576 ∧
            arg 0 16 % 4 = 0 ∧ arg 2 16 % 4 = 0) [one source, one dest]
          (∀ A B, source = .ok A → dest = .ok B → (A.set ||| x.rset).subset g.set = true ∧ B.takes g.set = true)) ∧
    (∀ A B : Extent, ready (.wcopy a b sp) [(0, 16), (2, 16), (4, 8)] [(b.toNat, 8)] →
      small (arg 4 8) → arg 0 16 % 4 = 0 → arg 2 16 % 4 = 0 → x.control b.toNat = .ok bar →
      x.region (pairSpaces sp).1 needLoad (arg 0 16) (arg 4 8) = .ok A →
      x.region (pairSpaces sp).2 needStore (arg 2 16) (arg 4 8) = .ok B → x.checkBarrier bar = .ok () →
      B.takes (A.set ||| x.rset) = true →
      Completes (.wcopy a b sp) s k p (j.queued {
        minor := 0, sel := sp.toNat, spaces := both, owns := B.locs,
        moves := moves B.locs A.locs, barrier := bar, pages := A.pages ++ B.pages })) ∧
    (∀ B : Extent, ready (.wfill a b sp) [(0, 16), (4, 8), (5, 8)] [(b.toNat, 8)] →
      small (arg 4 8) → arg 0 16 % 4 = 0 → x.control b.toNat = .ok bar →
      x.region (fillSpace sp) needStore (arg 0 16) (arg 4 8) = .ok B → x.checkBarrier bar = .ok () →
      B.takes x.rset = true →
      Completes (.wfill a b sp) s k p (j.queued {
        minor := 3, sel := sp.toNat, spaces := [fillSpace sp], owns := B.locs,
        moves := B.locs.mapIdx (fun n l => ⟨l, .inr ((bytesLE 4 (arg 5 8)).getD (n % 4) 0)⟩), barrier := bar,
        pages := B.pages })) ∧
    (∀ (ext count z : Nat) (list B : Extent) (idx : List (Option Nat)) (es : List Extent),
      ready (.wgath a b sp) [(0, 16), (2, 16), (4, 8), (5, 8), (6, 8)] [(b.toNat, 8)] →
      x.gatherLimits a.toNat = .ok (ext, count, z) → x.control b.toNat = .ok bar →
      x.indexList (arg 6 8) count = .ok (list, idx) →
      ((pairSpaces sp).1 = .g ∨ arg 0 16 < 2 ^ 32) →
      x.regions (pairSpaces sp).1 needLoad z ((indexed ext idx).map fun e => (arg 0 16 + e.2 * z) % 2 ^ 64) = .ok es →
      x.region (pairSpaces sp).2 needStore (arg 2 16) (count * z) = .ok B → x.checkBarrier bar = .ok () →
      B.takes (es.foldl (fun u e => u ||| e.set) (list.set ||| x.rset)) = true →
      Completes (.wgath a b sp) s k p (j.queued {
        minor := 1, sel := sp.toNat, spaces := both, owns := B.locs,
        moves := ((indexed ext idx).zip es).flatMap (fun q => moves ((B.locs.drop (q.1.1 * z)).take z) q.2.locs),
        srcs := list.locs, pins := wholeLines (es.flatMap (·.locs)), barrier := bar, fault := fault ext idx,
        pages := es.flatMap (·.pages) ++ B.pages })) ∧
    (∀ (ext count z : Nat) (list A : Extent) (idx : List (Option Nat)) (es : List Extent),
      ready (.wscat a b sp) [(0, 16), (2, 16), (4, 8), (5, 8), (6, 8)] [(b.toNat, 8)] →
      x.gatherLimits a.toNat = .ok (ext, count, z) → x.control b.toNat = .ok bar →
      x.indexList (arg 6 8) count = .ok (list, idx) →
      x.region (pairSpaces sp).1 needLoad (arg 0 16) (count * z) = .ok A →
      ((pairSpaces sp).2 = .g ∨ arg 2 16 < 2 ^ 32) →
      x.regions (pairSpaces sp).2 needStore z ((indexed ext idx).map fun e => (arg 2 16 + e.2 * z) % 2 ^ 64) = .ok es →
      x.checkBarrier bar = .ok () → (∀ e ∈ es, e.takes (A.set ||| list.set ||| x.rset) = true) →
      Completes (.wscat a b sp) s k p (j.queued {
        minor := 2, sel := sp.toNat, spaces := both,
        owns := wholeLines (es.flatMap (·.locs)),
        moves := ((indexed ext idx).zip es).flatMap (fun q => moves q.2.locs ((A.locs.drop (q.1.1 * z)).take z)),
        srcs := list.locs, pins := A.locs, barrier := bar, fault := fault ext idx, pages := es.flatMap (·.pages) ++ A.pages })) ∧
    (∀ A : Extent, ready (.wsend a) [(0, 16), (2, 16), (4, 8), (5, 8)] [] →
      small (arg 4 8) → arg 0 16 % 4 = 0 → arg 2 16 % 4 = 0 → bitsOf (arg 5 8) 10 22 = 0 →
      arg 5 8 < (x.s.part (x.s.ctxOf x.k).part).modules.length → x.region .g needLoad (arg 0 16) (arg 4 8) = .ok A →
      Completes (.wsend a) s k p (j.queued {
        minor := 4, sel := 0, spaces := [.g], owns := [], moves := [],
        srcs := A.locs, pages := A.pages,
        kind := fun t n => if arg 4 8 = 0 then .local
          else .wsend (arg 5 8) (arg 2 16) (A.locs.map (t.sendByte k.die n)) (A.set ||| x.rset) })) ∧
    ∀ (i : Instr) (kind : Nat) (g : Group) (A B : Extent),
      (i, kind) ∈ [(.wcollSumF32 a, 0), (.wcollSumB16 a, 1), (.wcollSumI32 a, 2), (.wcollGather a, 3), (.wcollBcast a, 4)] →
      ready i [(0, 16), (2, 16), (4, 8), (5, 8), (6, 8)] [] →
      x.s.groups.find? (fun g => g.handle == arg 5 8 && g.ctx == x.k.ctx && g.ready) = some g →
      let total := if kind = 3 then g.members.length * arg 4 8 else arg 4 8
      bitsOf (arg 6 8) 10 22 = 0 → arg 6 8 < g.members.length → 4 ≤ arg 4 8 → small (arg 4 8) → total ≤ 1048576 →
      arg 0 16 % 4 = 0 → arg 2 16 % 4 = 0 →
      (if kind = 4 ∧ arg 6 8 ≠ g.self then A = ⟨[], []⟩ else x.region .g needLoad (arg 0 16) (arg 4 8) = .ok A) →
      x.region .g needStore (arg 2 16) total = .ok B → (A.set ||| x.rset).subset g.set = true → B.takes g.set = true →
      Completes i s k p (j.queued {
        minor := 5, sel := kind, spaces := [.g], owns := B.locs,
        moves := B.locs.map (fun l => ⟨l, .inr 0⟩), srcs := A.locs, pages := A.pages ++ B.pages, dst := B.locs,
        kind := fun t n => .wcoll kind (arg 5 8) (arg 4 8) (arg 6 8) (A.locs.map (t.sendByte k.die n)) })

/-- R262, R265 to R271, R285 to R288, R307 to R313: MBAY claims the lowest free run or answers that there is none, MFREE returns claims, and
MWLOAD, MMA, MDRAIN and MZERO, their arguments, regions and sets checked, join the skein's queue, and else the first cause that is
met ends the word; the set of the bay or
tile is that of the command from its issue on, and an MDRAIN under DITHER advances the phase of `fr`. Performed, an MMA adds
its products to every element of its tile as R265 to R269 say, and an MDRAIN writes every element of its tile as R270 and R271
say. -/
def Obligations.MangleWordsComplete : Prop :=
  (∀ (s : State) (k : Skein) (c : MCmd) (b : Block) (tile : Nat) (T : Tile),
    let word (t : Tile) (r n : Nat) : Nat := (t.vals.extractLsb' ((r * 32 + n) * 32) 32).toNat
    s.block? k.grid k.block = some b → b.tiles[tile]? = some T →
    (∀ bay rows afmt (Y : Bay), c.kind = .mma bay tile rows afmt → b.bays[bay]? = some Y → afmt ≤ 2 →
      ∃ b' T', (s.performM k c).block? k.grid k.block = some b' ∧ b'.tiles[tile]? = some T' ∧ ∀ r n, r < 32 → n < 32 →
        isAccumulated afmt (rows.map s.resolveSrc) (r * (if afmt = 2 then 256 else 128))
          (fun kk => (Y.cells.extractLsb' ((n * 128 + kk) * 4) 4).toInt)
          (fun b => (Y.scales.extractLsb' ((n * (128 / Y.grp) + 32 * b / Y.grp) * 16) 16).toNat) (word T r n) (word T' r n)) ∧
    ∀ base stride ofmt rnd sat phase, c.kind = .mdrain tile base stride ofmt rnd sat phase → ofmt ≤ 4 → rnd ≤ 2 →
      Memory.wf b.cells = true → 32 * outBytes ofmt ≤ stride → ∀ r n, r < 32 → n < 32 →
        isDrained ofmt rnd sat r n phase (word T r n) (ofBytesLE (((⟨.s, (k.grid, k.block),
          base + r * stride + n * outBytes ofmt⟩ : Loc).span (outBytes ofmt)).map (s.performM k c).peek))) ∧
  ∀ (s : State) (k : Skein) (p : Split) (x j : Iss) (a b : BitVec 8) (la : BitVec 4),
    let o := Iss.start s k p
    let hi := highest p.em
    (∀ (acc : Bool) (i : Instr), i = (if acc then .mbayAcc a b la else .mbayBay a b la) → Starts i s k p →
      (p.em = 0 → Completes i s k p o.s) ∧
      (p.em ≠ 0 → o.operands [opdIn b.toNat 8 (topLane p.em id), opdOut a.toNat 8] = .ok x →
        let c := x.raw hi b.toNat 8
        let write (v : Nat) : State := x.put (x.wrLate (x.h.look la) a.toNat 8 (fun _ => v) x.rset [])
        (c = 0 ∨ (if acc then 256 else 2048) < c → Traps i s k p 0x8204 p.em [] x.rset) ∧
        (1 ≤ c → c ≤ (if acc then 256 else 2048) →
        (∀ f, freeRun ((s.blockOf k).claims acc) c = some f →
          Completes i s k p ((write f).setBlock ((s.blockOf k).claim acc f c (some k.num) p.co))) ∧
        (freeRun ((s.blockOf k).claims acc) c = none → Completes i s k p (write 0xFFFFFFFF))))) ∧
    (∀ (acc : Bool) (i : Instr), i = (if acc then .mfreeAcc a b else .mfreeBay a b) → Starts i s k p →
      (p.em = 0 → Completes i s k p o.s) ∧
      (p.em ≠ 0 → o.operands [opdIn a.toNat 8 (topLane p.em id), opdIn b.toNat 8 (topLane p.em id)] = .ok x →
        let f := x.raw hi a.toNat 8
        let c := x.raw hi b.toNat 8
        let held : Prop := 1 ≤ c ∧ c ≤ (if acc then 256 else 2048) ∧ f + c ≤ ((s.blockOf k).claims acc).length ∧
          (∀ n, f ≤ n → n < f + c → ((s.blockOf k).claims acc)[n]? = some (some k.num)) ∧
          ∀ q ∈ k.mq, ∀ n ∈ q.kind.names acc, n < f ∨ f + c ≤ n
        (held → Completes i s k p (x.s.setBlock ((s.blockOf k).claim acc f c none 0))) ∧
        (¬held → Traps i s k p 0x8204 p.em [] x.rset))) ∧
    (let arg (r n : Nat) : Nat := x.marg a.toNat r n
     let c := arg 5 8
     let bay := bitsOf c 0 11
     let tile := bitsOf c 16 8
     let blk := s.blockOf k
     let begins (i : Instr) (regs : List (Nat × Nat)) (r : Res Iss) : Prop := Starts i s k p ∧ p.em ≠ 0 ∧ k.mq.length < 64 ∧
       o.operands (argOpds a.toNat regs [] p.em) = r
     let ready (i : Instr) (regs : List (Nat × Nat)) : Prop := begins i regs (.ok x) ∧ x.release true = .ok j
     let sp (n : Nat) : Space := if bitsOf c n 1 = 1 then .c else .g
     let one (r : Res Extent) : Res Unit := r.map fun _ => ()
     let stops (i : Instr) (args : Prop) (checks : List (Res Unit)) (fits : Prop) : Prop :=
       (¬args → Traps i s k p 0x8204 p.em [] x.rset) ∧
       (args → (∀ pre c post, checks = pre ++ .error c :: post → (∀ r ∈ pre, r = .ok ()) → Ends i s k p c) ∧
         ((∀ r ∈ checks, r = .ok ()) → ¬fits → Traps i s k p 0x8500 p.em [] x.rset))
     let rowsOf (need : Need) (n : Nat) : Res (List Extent) :=
       x.regions .s need n ((List.range 32).map fun r => arg 0 16 + r * arg 4 8)
     (∀ c i regs, (i, regs) ∈ [(.mwload a, [(0, 16), (2, 16), (5, 8)]), (.mma a, [(0, 16), (4, 8), (5, 8)]),
         (.mdrain a, [(0, 16), (4, 8), (5, 8)]), (.mzero a, [(5, 8)])] → begins i regs (.error c) → Ends i s k p c) ∧
     (begins (.mwload a) [(0, 16), (2, 16), (5, 8)] (.ok x) → stops (.mwload a)
       (arg 0 16 % 16 = 0 ∧ arg 2 16 % 16 = 0 ∧ bitsOf c 11 13 = 0 ∧ bitsOf c 26 6 = 0 ∧ x.claimed false bay = true)
       [one (x.region (sp 24) needLoad (arg 0 16) (weightBytes (frWfmt p.fr))),
         one (x.region (sp 25) needLoad (arg 2 16) (scaleBytes (groupOf (frGrp p.fr))))] True) ∧
     (begins (.mma a) [(0, 16), (4, 8), (5, 8)] (.ok x) → stops (.mma a)
       (arg 0 16 % 16 = 0 ∧ strideOk (arg 4 8) (128 * actBytes (frAfmt p.fr)) = true ∧ bitsOf c 11 5 = 0 ∧ bitsOf c 24 8 = 0 ∧
         x.claimed false bay = true ∧ x.claimed true tile = true)
       [(rowsOf needLoad (128 * actBytes (frAfmt p.fr))).map fun _ => ()] True) ∧
     (begins (.mdrain a) [(0, 16), (4, 8), (5, 8)] (.ok x) → stops (.mdrain a)
       (arg 0 16 % 16 = 0 ∧ strideOk (arg 4 8) (32 * outBytes (frOfmt p.fr)) = true ∧ bitsOf c 0 16 = 0 ∧ bitsOf c 24 8 = 0 ∧
         x.claimed true tile = true)
       [(rowsOf needStore (32 * outBytes (frOfmt p.fr))).map fun _ => ()]
       (∀ rows, rowsOf needStore (32 * outBytes (frOfmt p.fr)) = .ok rows →
         ∀ r ∈ rows, r.takes ((blk.tiles.getD tile default).set ||| x.rset) = true)) ∧
     (begins (.mzero a) [(5, 8)] (.ok x) →
       stops (.mzero a) (bitsOf c 0 16 = 0 ∧ bitsOf c 24 8 = 0 ∧ x.claimed true tile = true) [] True) ∧
     (∀ A B : Extent, ready (.mwload a) [(0, 16), (2, 16), (5, 8)] → arg 0 16 % 16 = 0 → arg 2 16 % 16 = 0 →
       bitsOf c 11 13 = 0 → bitsOf c 26 6 = 0 → x.claimed false bay = true →
       x.region (sp 24) needLoad (arg 0 16) (weightBytes (frWfmt p.fr)) = .ok A →
       x.region (sp 25) needLoad (arg 2 16) (scaleBytes (groupOf (frGrp p.fr))) = .ok B →
       Completes (.mwload a) s k p ((j.queuedM (fun t n => .mwload bay (A.locs.map (t.srcByte k.die n))
         (B.locs.map (t.srcByte k.die n)) (frWfmt p.fr) (groupOf (frGrp p.fr))
         (arg 0 16, arg 2 16, bitsOf c 24 1 == 1, bitsOf c 25 1 == 1))
         (A.set ||| B.set ||| x.rset) (A.locs ++ B.locs) (A.pages ++ B.pages)).setBay bay (A.set ||| B.set ||| x.rset))) ∧
     (∀ rows : List Extent, ready (.mma a) [(0, 16), (4, 8), (5, 8)] → arg 0 16 % 16 = 0 →
       strideOk (arg 4 8) (128 * actBytes (frAfmt p.fr)) = true → bitsOf c 11 5 = 0 → bitsOf c 24 8 = 0 →
       x.claimed false bay = true → x.claimed true tile = true →
       x.regions .s needLoad (128 * actBytes (frAfmt p.fr)) ((List.range 32).map fun r => arg 0 16 + r * arg 4 8) =
         .ok rows →
       let set := rows.foldl (fun u r => u ||| r.set)
         ((blk.tiles.getD tile default).set ||| (blk.bays.getD bay default).set ||| x.rset)
       Completes (.mma a) s k p ((j.queuedM (fun t n => .mma bay tile ((rows.flatMap (·.locs)).map (t.srcByte k.die n))
         (frAfmt p.fr)) set (rows.flatMap (·.locs)) []).setTile tile set)) ∧
     (∀ rows : List Extent, ready (.mdrain a) [(0, 16), (4, 8), (5, 8)] → arg 0 16 % 16 = 0 →
       strideOk (arg 4 8) (32 * outBytes (frOfmt p.fr)) = true → bitsOf c 0 16 = 0 → bitsOf c 24 8 = 0 →
       x.claimed true tile = true →
       x.regions .s needStore (32 * outBytes (frOfmt p.fr)) ((List.range 32).map fun r => arg 0 16 + r * arg 4 8) =
         .ok rows →
       (∀ r ∈ rows, r.takes ((blk.tiles.getD tile default).set ||| x.rset) = true) →
       let q := j.queuedM (fun _ _ => .mdrain tile (arg 0 16) (arg 4 8) (frOfmt p.fr) (frRnd p.fr) (frSat p.fr)
         (frPhase p.fr)) (blk.tiles.getD tile default).set [] []
       Completes (.mdrain a) s k p (if frRnd p.fr = 2 then q.put (q.k.modSplit p.uid fun e => { e with
         fr := (p.fr &&& ~~~(63#32 <<< 12)) ||| (BitVec.ofNat 32 ((frPhase p.fr + 1) % 64) <<< 12) }) else q.s)) ∧
     (ready (.mzero a) [(5, 8)] → bitsOf c 0 16 = 0 → bitsOf c 24 8 = 0 → x.claimed true tile = true →
       Completes (.mzero a) s k p ((j.queuedM (fun _ _ => .mzero tile) x.rset [] []).setTile tile x.rset)))

/-- R263, R276, R277, R314 to R317, R324 to R326: CLOSE returns and closes the next batch of its class; WAITB acquires once
its commands are complete and is HELD until then; TESTB returns whether they are; a batch 32,768 off the last closed one raises
BATCH-RANGE in both; CLOSE is STALLED while it would leave an incomplete batch too far behind; SETFR and GETFR write and read `fr`.
With no active lane none of them does anything: the model's choice where R153 does not say it (log 18). -/
def Obligations.BatchesAndFormatsComplete : Prop :=
  ∀ (a b : BitVec 8) (cls : BitVec 3) (la : BitVec 4) (s : State) (k : Skein) (p : Split) (x : Iss),
    let o := Iss.start s k p
    let hi := highest p.em
    let top (n : Nat) : Opd := opdIn b.toNat n (topLane p.em id)
    let late (d n v : Nat) (set : OSet) : Skein := x.wrLate (x.h.look la) d n (fun _ => v) set []
    (Starts (.close a cls la) s k p → o.operands [opdOut a.toNat 4] = .ok x →
      let n := k.last cls.toNat + 1
      let w := late a.toNat 4 n.toNat p.co
      (p.em = 0 → Completes (.close a cls la) s k p x.s) ∧
      (p.em ≠ 0 → k.closeBlocked cls.toNat = false → Completes (.close a cls la) s k p
        (x.put (if cls = 0 then { w with lastW := n } else { w with lastM := n }))) ∧
      (p.em ≠ 0 → k.closeBlocked cls.toNat = true → exec (.close a cls la) s = .next (s.stallOn k p (.close cls.toNat)))) ∧
    (Starts (.waitb b cls) s k p → o.operands [top 4] = .ok x →
      let n := x.raw hi b.toNat 4
      let cs := k.asked cls.toNat (BitVec.ofNat 16 n)
      (p.em = 0 → Completes (.waitb b cls) s k p x.s) ∧
      (p.em ≠ 0 → BitVec.ofNat 16 n - k.last cls.toNat ≠ 0x8000#16 →
        (cs = [] → Completes (.waitb b cls) s k p (x.s.acquire k.id 4)) ∧
        (cs ≠ [] → Completes (.waitb b cls) s k p
          (x.put (x.k.modSplit p.uid fun q => { q with st := .held (.waitb cls.toNat n cs) })))) ∧
      (p.em ≠ 0 → BitVec.ofNat 16 n - k.last cls.toNat = 0x8000#16 →
        Traps (.waitb b cls) s k p (BitVec.ofNat 16 (0x8800 + cls.toNat)) p.em [] x.rset)) ∧
    (Starts (.testb a b cls la) s k p → o.operands [top 4, opdOut a.toNat 1] = .ok x →
      let n := BitVec.ofNat 16 (x.raw hi b.toNat 4)
      (p.em = 0 → Completes (.testb a b cls la) s k p x.s) ∧
      (p.em ≠ 0 → n - k.last cls.toNat ≠ 0x8000#16 →
        (k.asked cls.toNat n = [] →
          Completes (.testb a b cls la) s k p ((x.put (late a.toNat 1 15 x.rset)).acquire k.id 4)) ∧
        (k.asked cls.toNat n ≠ [] → Completes (.testb a b cls la) s k p (x.put (late a.toNat 1 0 x.rset)))) ∧
      (p.em ≠ 0 → n - k.last cls.toNat = 0x8000#16 →
        Traps (.testb a b cls la) s k p (BitVec.ofNat 16 (0x8800 + cls.toNat)) p.em [] x.rset)) ∧
    (Starts (.setfr b) s k p → o.operands [top 8] = .ok x →
      let v := BitVec.ofNat 32 (x.raw hi b.toNat 8)
      (p.em = 0 → Completes (.setfr b) s k p x.s) ∧
      (p.em ≠ 0 → frOk v = true →
        Completes (.setfr b) s k p (x.put (x.k.modSplit p.uid fun q => { q with fr := v, co := q.co ||| x.rd }))) ∧
      (p.em ≠ 0 → frOk v = false → Traps (.setfr b) s k p 0x8204 p.em [] x.rset)) ∧
    (Starts (.getfr a la) s k p → o.operands [opdOut a.toNat 8] = .ok x →
      Completes (.getfr a la) s k p (if p.em = 0 then x.s else x.put (late a.toNat 8 p.fr.toNat p.co)))

/-- R293 to R297, R318 to R323: a handle with a reserved bit, a stale generation, of a FREE slot or out of its basket's scope raises SCOPE in
QPUSH and QPOP, and QTRY answers STALE or SCOPE. On a handle in scope of an OPEN basket QPUSH appends its entry, or
gives it to the split that waits longest; QPOP and QTRY take the oldest entry and acquire; with none, QPOP is HELD and
QTRY answers EMPTY. On a RETIRING basket all three answer GONE. That a skein which is stopped takes no entry, and which of
two splits HELD since the same cycle takes it, are the model's choices (logs 23 and 43). -/
def Obligations.BasketWordsComplete : Prop :=
  ∀ (i : Instr) (a b : BitVec 8) (la : BitVec 4) (s : State) (k : Skein) (p : Split) (x y : Iss) (q : Basket),
    i = .qpush a b la ∨ i = .qpop a b la ∨ i = .qtry a b la → Starts i s k p →
    (Iss.start s k p).basketOperands b.toNat = .ok x →
    (p.em = 0 → Completes i s k p x.s) ∧
    (p.em ≠ 0 →
      let v := x.raw (highest p.em) b.toNat 8
      let cl := hCluster v
      let slot := hSlot v
      let status (j : Iss) (code : Nat) (set : OSet) : State := j.put (j.qstatus (j.h.look la) b.toNat code set)
      let c := x.s.basket cl slot
      let stale := v / 64 % 4 ≠ 0 ∨ 192 ≤ cl ∨ c.gen.toNat ≠ v / 256 % 65536 ∨ c.st = .free
      let outside := c.ctx ≠ k.ctx ∨ (c.scope = 0 ∧ c.owner ≠ (k.grid, k.block)) ∨ (c.scope = 1 ∧ k.cluster ≠ cl)
      (stale ∨ outside → i ≠ .qtry a b la → Traps i s k p 0x8900 p.em [] x.rset) ∧
      (stale → i = .qtry a b la → Completes i s k p (status x 5 x.rset)) ∧
      (¬stale → outside → i = .qtry a b la → Completes i s k p (status x 4 x.rset)) ∧
      (¬stale → ¬outside → q = c →
      (i = .qpush a b la → x.operands [⟨a.toNat, q.perLane, 1, 0xFFFFFFFF, true, false⟩] = .ok y →
        y.rset.subset q.set = true →
        (q.st = .retiring → Completes i s k p ((status y 2 x.rset).settleBasket cl slot)) ∧
        (q.st = .opened → y.s.waiters cl slot = [] → q.n ≤ q.ring.length →
          exec i s = .next (s.stallOn k p (.basket cl slot q.gen.toNat))) ∧
        ∀ z, q.st = .opened → y.s.waiters cl slot ≠ [] ∨ q.ring.length < q.n → y.release true = .ok z →
          Completes i s k p ((status z 0 x.rset).pushEntry cl slot
            (laneIds.foldl (fun e l => e + z.raw l a.toNat q.perLane * 2 ^ (4 * q.perLane * l)) 0, z.rset))) ∧
      (i = .qpush a b la → x.operands [⟨a.toNat, q.perLane, 1, 0xFFFFFFFF, true, false⟩] = .ok y →
        y.rset.subset q.set = false → Traps i s k p 0x8500 p.em [] y.rset) ∧
      (i ≠ .qpush a b la → x.operands [⟨a.toNat, q.perLane, 1, 0, false, true⟩] = .ok y →
        (q.st = .retiring → Completes i s k p (status y 2 y.rset)) ∧
        (q.st = .opened →
          (∀ e rest, q.ring = e :: rest → Completes i s k p (y.popNow (y.h.look la) v a.toNat b.toNat q e)) ∧
          (q.ring = [] → i = .qtry a b la → Completes i s k p (status y 1 y.rset)) ∧
          (q.ring = [] → i = .qpop a b la → Completes i s k p (y.put (y.k.modSplit p.uid fun r => { r with
            st := .held (.qpop cl slot q.gen.toNat a.toNat b.toNat y.rset (y.h.look la)) })))))))

/-! ## Events of skeins, engines, fetching, the dispatcher and pre-emption -/

/-- R32, R34, R136, R157, R225, R247, R316, R348, R349, R356: the oldest write lands; a JOIN that cannot complete traps; a wait whose
condition holds ends; YIELD's turn passes; a stopped skein that may go on resumes; the lanes of a mask with results
resume; an error in the data of the load that it fits stops the skein at that load, with the followers that have issued; an
error that no outstanding load fits waits for the next demand read, and one in the register file for the read of its
register. When a write lands, which register fails, that the lines of a level which held an error are dropped at the stop,
that a stopped skein's QPOP looks again at the resumption, and that an SBWAIT on an object which holds an error is performed again, with
what it read at its issue, to meet it are the model's choices (logs 4, 7, 23, 25 and 26). -/
def Obligations.SkeinEventsComplete : Prop :=
  ∀ (s : State) (k : Skein) (p : Split), s.skein? k.id = some k → k.split? p.uid = some p →
    (∀ q ∈ k.splits, q.uid = p.uid → q = p) →
    let freed (j : Skein) : Skein := j.modSplit p.uid fun q => { q with st := .ready }
    (∀ q rest, k.pend = q :: rest → exec (.longLatencyWriteLands k.id) s =
      .next (s.setSkein { k with
        lanes := mergeLanes k.lanes q.img q.masks, badRegs := mendRegs q.masks k.badRegs, pend := rest })) ∧
    (k.stop = none → p.st = .joinWait false → (∀ q ∈ k.splits, ∃ b, q.st = .joinWait b) →
      (∀ q ∈ k.splits, q.st = .joinWait false → q ≠ p → lowest p.members < lowest q.members) →
      ∃ lfm, exec (.joinDeadlock k.id) s = .next (s.trapStop
          (k.modSplit p.uid fun q => { q with pc := q.pc - 4, st := .ready }) { p with pc := p.pc - 4 }
          (p.pc - 4) (p.pc - 4) 0x8600 lfm [] p.co) ∧
        ∀ l, l < 32 → (lfm.getLsbD l = true ↔ ∃ q ∈ k.splits, q.st = .joinWait false ∧ q.members.getLsbD l = true)) ∧
    (∀ (again : Redo) off toks, p.st = .held (.sbwait again off toks) → k.stop = none →
      let b := s.blockOf k
      (∀ l ∈ (b.sloc off).span 16, s.owned l = false) →
      ((∃ l ∈ (b.sloc off).span 16, s.failedAt l = true) → exec (.sbwaitPoll k.id p.uid) s =
        .next (s.setSkein (k.modSplit p.uid fun q =>
          { q with st := .ready, again := some again, pc := again.word, hints := again.hints }))) ∧
      ((∀ l ∈ (b.sloc off).span 16, s.failedAt l = false) → k.flaw = none →
        ((b.sbRead off).phase ∉ toks → exec (.sbwaitPoll k.id p.uid) s =
          .next ((s.setSkein (freed (k.joinCo (again.read ||| s.rangeSet (b.sloc off) 16)))).acquire k.id 1)) ∧
        ((b.sbRead off).phase ∈ toks → exec (.sbwaitPoll k.id p.uid) s = .next s))) ∧
    (∀ others till, p.yielded = some (others, till) →
      till ≤ s.issueTicks ∨ (∀ x ∈ others, s.leftOrIssued (till - 64) x = true) →
      exec (.yieldRelease k.id p.uid) s =
        .next (s.setSkein (k.modSplit p.uid fun q => { q with yielded := none }))) ∧
    (∀ cls n cs, p.st = .held (.waitb cls n cs) → k.stop = none → (∀ c ∈ k.outstanding cls, c.1 ∉ cs) →
      exec (.waitbReturn k.id p.uid) s = .next ((s.setSkein (freed k)).acquire k.id 4)) ∧
    (∀ st, k.stop = some st → st.go = true → s.mayResume k = true →
      exec (.skeinResume k.id) s = .next ((s.resumeSkein k.id).recheckPops k.id)) ∧
    (∀ (mask : Mask) calls argset resume word, p.st = .parked (.syscall calls argset resume word) →
      mask ≠ 0 → mask &&& ~~~p.em = 0 → (s.ctxOf k).over = false →
      (∀ l, l < 32 → mask.getLsbD l = true → ∃ c ∈ calls, c.lane = l ∧ c.result ≠ none) →
      exec (.resumeMask k.id p.uid mask) s = .next ((s.setSkein
        ((k.results mask calls argset).resumePart p mask calls argset resume word s.issueTicks)).acquire k.id 4)) ∧
    ∀ (lanes : Mask) (level : BitVec 8) (clean : Bool), lanes ≠ 0 → k.stop = none →
      (level = 6 → ∃ r, r < 32 ∧ exec (.loadDataError k.id lanes level clean) s = .next (State.setSkein
        { s with free := s.free + 1 } { k with badRegs := (lanesOf lanes).map (fun l => (l, r)) ++ k.badRegs })) ∧
      (1 ≤ level.toNat → level.toNat ≤ 5 →
        ((∀ q ∈ k.pend, q.loads lanes level.toNat = false) → k.flaw = none →
          exec (.loadDataError k.id lanes level clean) s =
            .next (s.setSkein { k with flaw := some (lanes, level.toNat, clean) })) ∧
        ∀ (pre post : List Pend) (q : Pend), k.pend = pre ++ q :: post →
          (∀ e ∈ pre, e.loads lanes level.toNat = false) → q.loads lanes level.toNat = true →
          k.splits.find? q.counts = some p →
          ∃ (t : State) (r : Record) (redo : Pend), exec (.loadDataError k.id lanes level clean) s =
              .next (t.takeStop { k with pend := pre ++ post } p.uid r p.co (some redo)) ∧
            t.skeins = s.skeins ∧
            (∀ x ∈ q.src, inMask lanes x.1 = true → clean = false → t.failedAt x.2.2 = true) ∧
            (clean = true → t.failedUnits = s.failedUnits) ∧
            r.code = BitVec.ofNat 16 ((if clean then 0x0C00 else 0xCC00) + level.toNat) ∧ r.cause = 0 ∧
            r.lfm = lanes &&& q.lanes ∧ r.pc = q.pc ∧ r.word = q.word ∧ r.em = p.em ∧
            (∀ w, q.wins.find? (·.1 == p.uid) = some w → r.followers = q.look - w.2) ∧
            r.addrs = (q.src.filter (fun x => inMask lanes x.1)).map (fun x => (x.1, x.2.1)) ∧ redo.img = q.img)

/-- R243, R275, R278, R281, R283 to R284, R290 to R292, R303 to R304, R347, R349, R358, R396 to R397, R399: at its turn an engine's
command makes a decrement that it owes, advances by one destination line, or reports its fault; a send does so by one line,
which leaves by a hem port or is performed in this module's memory, as is one that arrives from another module; a collective
joins the members' contributions, or ends where one was reset, a route is lost or the members differ; a Mangle command starts
in its skein's turn of the round and completes after its cycles; a source that an earlier command was to write and that has
failed is met as an error; a failed route faults the commands on it and stays lost; a timeout ends the context. Which port a
message takes, how the far side of a send and of a collective is given, what a failed source prevents, that a lost byte is a free one
to a collective, and when commands may start are the model's choices (logs 7, 20, 21 and 22). -/
def Obligations.EngineEventsComplete : Prop :=
  (∀ (s : State) (k : Skein) (c : Cmd), s.skein? k.id = some k → k.cmds.find? (·.order == c.order) = some c →
    let gone (t : State) := t.modCmd k.id c.order fun _ => none
    let fails (t : State) (code : BitVec 16) := (gone t).commandFault k.id (k.cmdRecord code 1 c.batch c.minor c.sel)
    let counted (t : State) (l : Loc) := t.countError k.coreId l.addr (s.failLevel l)
    let meets (code : BitVec 16) (d : Cmd) : Cmd := if d.failed = true then d else { d with fault := some code, failed := true }
    let part := (s.ctxOf k).part
    let home := s.part part
    let reaches (m : Nat) : Prop := m ∉ home.lost ∧ home.hemPorts ≠ [] ∧ home.routes ≠ []
    let u := s.modCore k.coreId fun x => { x with wringer := some k.id }
    (c.kind = .local → s.nextWringer k.coreId = some k.id →
      (∀ code, c.fault = some code → exec (.wringerLineWrite k.id c.order) s =
        .next ((u.modCmd k.id c.order fun d => some { d with fault := none }).commandFault k.id
          (k.cmdRecord code 1 c.batch c.minor c.sel))) ∧
      (∀ n rest, c.fault = none → c.owes = n :: rest → s.decrementFree k c = true → ∀ off, c.barrier = some off →
        let paid (d : Cmd) : Cmd := { d with owes := d.owes.drop 1 }
        let object := ((s.blockOf k).sloc off).span 16
        ((∀ l ∈ object, s.failedAt l = false) → exec (.wringerLineWrite k.id c.order) s =
          .next ((u.modCmd k.id c.order fun d => some (paid d)).sbDecrement k off n)) ∧
        ∀ l, object.find? s.failedAt = some l → exec (.wringerLineWrite k.id c.order) s =
          .next ((counted u l).modCmd k.id c.order fun d => some (meets (s.errorCode l) (paid d)))) ∧
      (c.fault = none → c.lines = [] → c.owes = [] → exec (.wringerLineWrite k.id c.order) s = .next (gone u)) ∧
      ∀ pre ln post, c.fault = none → c.owes = [] ∨ s.decrementFree k c = false → c.lines = pre ++ ln :: post →
        (∀ q ∈ pre, s.lineReady c q = false) → s.lineReady c ln = true →
        (s.failedLater (ln.bytes.map (·.2)) = none → exec (.wringerLineWrite k.id c.order) s =
          .next ((u.writeBytes k.die ln.bytes).modCmd k.id c.order fun d => some { d with
            lines := d.lines.erase ln,
            owes := if ln.bytes = [] ∨ d.barrier = none then d.owes else d.owes ++ [ln.bytes.length] })) ∧
        ∀ l, s.failedLater (ln.bytes.map (·.2)) = some l → exec (.wringerLineWrite k.id c.order) s =
          .next ((counted u l).modCmd k.id c.order fun d => some (meets (s.errorCode l) { d with lines := d.lines.erase ln }))) ∧
    (∀ m dst src set, c.kind = .wsend m dst src set → c.fault = none → s.nextWringer k.coreId = some k.id →
      let line := src.take (64 - dst % 64)
      let next (t : State) (fault : Option (BitVec 16)) : State := t.modCmd k.id c.order fun d => some
        { (match fault with | some code => meets code d | none => d) with
          kind := match d.kind with
            | .wsend m' a bs q =>
              let n := (bs.take (64 - a % 64)).length
              if bs.length ≤ n then .local else .wsend m' (a + n) (bs.drop n) q
            | other => other }
      let does (ok : Bool) (t : State) : Prop := exec (.wsendRemoteWrite k.id c.order (.out ok)) s = .next t
      s.srcReady c.order (line.filterMap id) = true →
      (∀ ok l, s.failedLater (line.filterMap id) = some l → does ok (next (counted u l) (some (s.errorCode l)))) ∧
      (s.failedLater (line.filterMap id) = none →
        (∀ ok, none ∈ line → does ok (next u none)) ∧
        (none ∉ line → m ≠ home.selfIndex → ¬reaches m → ∀ ok, does ok (next u (some 0x8303))) ∧
        (none ∉ line → m ≠ home.selfIndex → reaches m →
          let t := u.leaveHem part (.send m k.ctx dst (line.map fun b => b.map s.resolveSrc) set)
          does true (next t none) ∧ does false (next t (some 0x8303))) ∧
        (none ∉ line → m = home.selfIndex → ∀ ok,
          let t := u.sendMap k.ctx dst line.length
          let ls := t.sendDst k.ctx dst line.length set
          ((gone t).sendHeld ls = true → does ok u) ∧
          ((gone t).sendHeld ls = false →
            (none ∈ ls → does ok (next t (some 0x8303))) ∧
            (none ∉ ls → does ok (next (t.sendWrite k.die ls line) none)))))) ∧
    (∀ kind handle n root src g remote, c.kind = .wcoll kind handle n root src → c.fault = none →
      s.groups.find? (·.handle == handle) = some g → s.earlierColl handle c.order = false →
      let others (m : Nat) : Prop := m < g.members.length ∧ m ≠ g.self
      let from_ (m : Nat) (q : Contribution) : Prop := remote.find? (·.member == m) = some q
      let does (t : State) : Prop := exec (.wcollMatch k.id c.order remote) s = .next t
      let lost := ∃ m q, others m ∧ from_ m q ∧ q.lost = true
      let cut := ∃ m, others m ∧ ¬reaches (g.members.getD m 0)
      ((∃ m q, others m ∧ from_ m q ∧ q.reset = true) → does (fails s 0x0F01)) ∧
      ((∀ m q, others m → from_ m q → q.reset = false) →
        (lost → does (fails s 0x0F03)) ∧
        (¬lost → cut → does (fails (s.leaveHem part (.aborted handle 0x0F03)) 0x0F03)) ∧
        (¬lost → ¬cut → s.srcReady c.order (src.filterMap id) = true → (∀ m, others m → ∃ q, from_ m q) →
          let same := ∀ m q, others m → from_ m q → q.kind = kind ∧ q.len = n ∧ q.root = root
          let sound (b : Option SrcByte) : Prop := ∃ x, b = some x ∧ s.laterFails x = false
          ∃ bytes : List Byte, bytes.length = src.length ∧
            (∀ (j : Nat) (x : SrcByte), src[j]? = some (some x) → sound (some x) → bytes[j]? = some (s.resolveSrc x)) ∧
          let data := (List.range g.members.length).map fun m =>
            if m = g.self then bytes else match remote.find? (·.member == m) with | some q => q.data | none => []
          let t := { s with free := s.free + src.length }.leaveHem part (.contribution handle kind n root bytes)
          let lost := ((List.range src.length).filter fun j => match src[j]? with
            | some (some x) => s.laterFails x
            | some none | none => true).map fun j => if kind = 3 then g.self * n + j else j
          let joined (u : State) : State := u.modCmd k.id c.order fun d => some { d with
            kind := .local, lines := fillLines d.dst (collect kind root data) lost d.lines }
          (same → (s.failedLater (src.filterMap id) = none → does (joined t)) ∧
            ∀ l, s.failedLater (src.filterMap id) = some l →
              does (((joined t).countError k.coreId l.addr (t.failLevel l)).modCmd k.id c.order fun d => some (meets (s.errorCode l) d))) ∧
          (¬same → does (fails t 0x8F02))))) ∧
    (∀ (dst : List Loc) (vals : List Byte) (gone : List Nat) (lines : List DstLine),
      (fillLines dst vals gone lines).length = lines.length ∧ ∀ (m : Nat) (ln : DstLine), lines[m]? = some ln →
        ∃ new, (fillLines dst vals gone lines)[m]? = some new ∧ new.owns = ln.owns ∧
          ((∃ j ∈ gone, ∃ l x, dst[j]? = some l ∧ x ∈ ln.bytes ∧ x.1.line = l.line) → new.bytes = []) ∧
          ((∀ j ∈ gone, ∀ l, dst[j]? = some l → ∀ x ∈ ln.bytes, x.1.line ≠ l.line) → new.bytes.map (·.1) = ln.bytes.map (·.1) ∧
            ∀ x ∈ new.bytes, ∀ (j : Nat) (v : Byte), dst[j]? = some x.1 → vals[j]? = some v →
              (∀ m, j < m → m < vals.length → dst[m]? ≠ some x.1) → x.2 = .val v)) ∧
    (∀ pre post m, s.skeins = pre ++ k :: post → k.cmds = [c] →
      (∀ j ∈ pre ++ post, (s.ctxOf j).part ≠ part ∨ ∀ d ∈ j.cmds, routeCode s m d = none) →
      let t := s.modPart part fun q => { q with lost := (m :: q.lost).eraseDups }
      (∀ dst src set, c.kind = .wsend m dst src set → exec (.routeFailure part m) s = .next (fails t 0x8303)) ∧
      ∀ kind handle n root src g, c.kind = .wcoll kind handle n root src → s.groups.find? (·.handle == handle) = some g →
        m ∈ g.members → exec (.routeFailure part m) s = .next (fails (t.leaveHem part (.aborted handle 0x0F03)) 0x0F03)) ∧
    exec (.engineTimeout k.id) s = .next (s.endContext k.ctx 0x5303)) ∧
  (∀ (s : State) (n : Nat) (msg : HemMsg),
    let q := s.part n
    (q.hemPorts = [] ∨ q.routes = [] → s.leaveHem n msg = s) ∧
    (q.hemPorts ≠ [] → q.routes ≠ [] → ∃ a ∈ q.hemPorts, ∃ b ∈ q.routes,
      s.leaveHem n msg = { s with free := s.free + 1, hem := s.hem ++ [(a, b, msg)] })) ∧
  (∀ (s : State) (ctx dst : Nat) (data : List (Option Byte)) (set : OSet), s.alive = true → s.inbound = [] →
    let m := s.sendMap ctx dst data.length
    let ls := m.sendDst ctx dst data.length set
    let t := m.sendWrite 0 ls (data.map fun b => b.map SrcByte.val)
    let n := match s.ctx? ctx with | some x => x.part | none => 0
    (m.sendHeld ls = false → exec (.wsendRemoteWrite ctx dst (.into data set)) s =
      .next { t.leaveHem n (.answer ctx (!ls.contains none)) with inbound := [] }) ∧
    (m.sendHeld ls = true → exec (.wsendRemoteWrite ctx dst (.into data set)) s =
      .next { m with inbound := [(ctx, dst, data, set)] })) ∧
  (∀ (s : State) (ctx handle : Nat), exec (.wsendRemoteWrite ctx handle .joined) s = .next { s with
    groups := s.groups.map fun g => if g.ctx = ctx ∧ g.handle = handle then { g with ready := true } else g }) ∧
  (∀ (s : State) (cl : Nat),
    let cands := s.starters cl
    let share (j : Skein) : Nat := s.weight (s.ctxOf j).part cl (s.ctxOf j).tenant
    (∀ k n c, s.nextStarter cl = some (k, n) → k.mq.find? (fun d => d.started = none) = some c →
      exec (.mangleCommandStart cl) s = .next ((s.setSkein { k with
        mq := k.mq.map fun d => if d.order = c.order then { d with started := some s.issueTicks } else d }).modCluster cl fun x =>
          { x with
            turns := some (k.id, n + 1),
            lastMma := if c.kind.occupies = 0 then x.lastMma else some (s.issueTicks, c.kind.occupies) })) ∧
    ((s.cluster cl).turns = none → ∀ k rest, cands = k :: rest → s.nextStarter cl = some (k, 0)) ∧
    ∀ id n, (s.cluster cl).turns = some (id, n) →
      (∀ k ∈ cands, k.id = id → n < share k → ∃ j ∈ cands, j.id = id ∧ s.nextStarter cl = some (j, n)) ∧
      ((∀ k ∈ cands, k.id = id → share k ≤ n) →
        (∀ pre k post, cands = pre ++ k :: post → (∀ j ∈ pre, j.id ≤ id) → id < k.id →
          s.nextStarter cl = some (k, 0)) ∧
        ∀ k rest, cands = k :: rest → (∀ j ∈ cands, j.id ≤ id) → s.nextStarter cl = some (k, 0))) ∧
  ∀ (s : State) (k : Skein) (c : MCmd) (rest : List MCmd) (t : Nat), s.skein? k.id = some k → k.mq = c :: rest →
    c.started = some t → t + c.kind.cycles ≤ s.issueTicks →
    let faulted (u : State) (code : BitVec 16) : State :=
      (u.setSkein { k with mq := rest }).commandFault k.id (k.cmdRecord code 2 c.batch c.kind.minor 0)
    (c.fault = none → s.failedLater c.laters = none →
      exec (.mangleCommandComplete k.id) s = .next ((s.performM k c).setSkein { k with mq := rest })) ∧
    (∀ code, c.fault = some code → exec (.mangleCommandComplete k.id) s = .next (faulted s code)) ∧
    ∀ l, c.fault = none → s.failedLater c.laters = some l → exec (.mangleCommandComplete k.id) s =
      .next (faulted (s.countError k.coreId l.addr (s.failLevel l)) (s.errorCode l))

/-- R193, R199, R200, R204, R211, R245, R376, R377, R394, R442: what streams and the fetch unit fetch ahead, a fill that
arrives, a translation park that the mender resolves, an invalidation that completes, and what the root complex and a
host's posted write do. Which lines a target that the fetch unit holds lets it fetch, which line of a cache makes room, the lanes that a
timeout names, that an entry with a malformed walk ends its context with 0x8302 also where an address lies in no held region, and that a
write to memory that is lost goes nowhere are the model's choices (logs 27, 29, 32, 37 and 40). -/
def Obligations.FetchAndPcieEventsComplete : Prop :=
  (∀ (s : State) (k : Skein) (core slot : Nat) (x : Stream),
    s.skeins.find? (fun j => j.coreId == core && j.streams.any (·.slot == slot)) = some k →
    k.streams.find? (·.slot == slot) = some x → x.next < x.count → (x.next : Int) ≤ x.position + 16 →
    let va := wrap 64 ((x.start : Int) + (x.next : Int) * x.stride)
    (s.aheadPa (s.ctxOf k) needLoad va = none →
      exec (.streamFetch core slot) s = .next ((s.dropAhead core).setSkein (k.streamNext slot false))) ∧
    ∀ pa, s.aheadPa (s.ctxOf k) needLoad va = some pa →
      let t := s.setSkein (k.streamNext slot true)
      (s.failedLine (pa / 64) = true → exec (.streamFetch core slot) s =
        .next ((s.countAhead core (pa / 64)).setSkein (k.streamNext slot false))) ∧
      (s.failedLine (pa / 64) = false → exec (.streamFetch core slot) s = .next (if x.policy.getLsbD 18 then t else t.fetchInto core (pa / 64) false))) ∧
  (∀ (s : State) (k : Skein) (p : Split) (va : Nat) (l : Leaf), s.skein? k.id = some k → k.split? p.uid = some p →
    k.stop = none → s.mayFetchAhead k p va = true → s.translate (s.ctxOf k) va = .leaf l → l.ex = true →
    (s.ctxOf k).mayRead l.set = true →
    s.failedLine (l.pa / 64) = false →
    exec (.fetchAhead k.id p.uid va) s = .next (s.fetchInto k.coreId (l.pa / 64) true)) ∧
  (∀ (s : State) (core line : Nat) (f : CLine), core < s.cores.length →
    (s.core core).fills.find? (·.line == line) = some f →
    exec (.instructionFetchFill core line) s = .next (s.modCore core fun c =>
      Core.addIc { c with fills := c.fills.filter (·.line != line) } f (Config.freeWay s.free line))) ∧
  (∀ (s : State) (cl : Nat) (e : FaultEntry) (c : Context), (s.cluster cl).fbuf.find? (·.id == e.id) = some e →
    s.ctx? e.ctx = some c → c.over = false →
    let t := s.freeEntry cl e.id
    let i : Instr := .translationParkResolve cl e.id
    (e.malformed = true → exec i s = .next (t.endContext e.ctx 0x8302)) ∧
    (e.malformed = false → (∃ v ∈ e.vas, c.region? v.2 = none) → exec i s = .next (t.endContext e.ctx 0x8301)) ∧
    (e.malformed = false → (∀ v ∈ e.vas, c.region? v.2 ≠ none ∧ s.walk c v.2 = .unmapped) →
      exec i s = .next ((e.vas.foldl (fun u v => u.mapPiece e.ctx v.2) t).replay e)) ∧
    (e.malformed = false → (∀ v ∈ e.vas, c.region? v.2 ≠ none ∧ ∃ l, s.walk c v.2 = .leaf l) →
      exec i s = .next (t.replay e))) ∧
  (∀ (s : State) (ctx va : Nat) (c : Context), s.ctx? ctx = some c → s.commandHolds ctx (va / 65536) = false →
    exec (.translationInvalidate ctx va) s =
      .next (s.setCtx { c with stale := c.stale.filter (·.1 != va / 65536) })) ∧
  (∀ (s : State) (k : Skein) (p : Split) (r : PReq), s.skein? k.id = some k → r ∈ k.preqs →
    let waits (q : PReq) : Prop := q.uid = p.uid ∧ q.status = none ∧ q.expired = false
    ((∀ q ∈ k.preqs, ¬waits q) → ∀ (status n : Nat) (x : Partition), (s.cluster k.cluster).part = some n → s.parts[n]? = some x →
      exec (.pcieCompletion k.id p.uid status) s =
        .next (s.modPart n fun y => { y with lateCompletions := min (x.lateCompletions + 1) 0xFFFFFFFF })) ∧
    (waits r →
      (∀ status, exec (.pcieCompletion k.id p.uid status) s = .next (s.setSkein { k with
        preqs := k.preqs.map fun q => if waits q then { q with status := some status } else q })) ∧
      ∀ lanes ls, k.split? p.uid = some p → p.st = .stalled (.pcie lanes ls) → r.sent + 87500000 ≤ s.ticks + s.frozenTicks →
        (k.stop = none → exec (.pcieCompletionTimeout k.id p.uid) s = .next (s.trapStop
          { k with preqs := k.preqs.filter (·.uid != p.uid) } p (p.hints.gpc.getD p.pc) p.pc 0x1500 lanes [] p.co)) ∧
        (k.stop ≠ none → exec (.pcieCompletionTimeout k.id p.uid) s = .next (s.setSkein { k with
          preqs := k.preqs.map fun q => if waits q then { q with expired := true } else q })))) ∧
  (∀ (s : State) (pa : Nat) (pre post : List Context) (c : Context),
    let holds (x : Context) : Prop := ∃ r ∈ x.regions, r.kind = 1 ∧ r.frame * 65536 ≤ pa ∧ pa < r.frame * 65536 + r.len
    s.ctxs = pre ++ c :: post → holds c → (∀ x ∈ pre, ¬holds x) →
    exec (.writebackUndelivered pa) s = .next (s.endContext c.id 0x1500)) ∧
  ∀ (s : State) (pa : Nat) (bs : List Byte), s.posted = [] →
    let reaches : Prop := (∃ v ∈ s.vfs, v.winBase ≤ pa ∧ pa + bs.length ≤ v.winBase + v.winUnits * 65536 ∧ s.hbmAt pa bs.length = true) ∨
      (paType pa = 2 ∧ paType (pa + bs.length - 1) = 2 ∧ pa + bs.length ≤ 0x400000000000)
    let held := ∃ l ∈ (locG pa).span bs.length, s.owned l = true ∨ s.pinned l = true
    (¬reaches → exec (.pciePostedWrite pa bs) s = .next s) ∧
    (reaches → ¬held → exec (.pciePostedWrite pa bs) s = .next { (s.pokes (locG pa) bs) with posted := [] }) ∧
    (reaches → held → exec (.pciePostedWrite pa bs) s = .next { s with posted := [(pa, bs)] })

/-- R50, R55, R146 to R150, R328, R333 to R336, R338, R339, R348, R350: a bin launches when its timer comes, a block retires,
the first block that fits is placed on the lowest core that fits, a block whose producer bit is set is placeable, the
sorter counts, Finwesin acts on the oldest record, of which one that arrives when its context has ended is counted, the last
confirmation ends a context, a submission is accepted and a code object is loaded. The ranking of R334 is by effective priority, age,
slots by weight, tenant and grid. That the ranking goes before the index within a grid, that the recipe table has the loading tenant's
bit as its set, where a load takes its frames and a block those of its skeins' stacks, and on which cluster a late record is counted, are
the model's choices (logs 43, 34, 30 and 25). -/
def Obligations.DispatcherEventsComplete : Prop :=
  ∀ (s : State) (cl : Nat),
    (∀ n b g, (s.cluster cl).bins[n]? = some b → b.started + s.binPeriod cl b ≤ s.ticks → s.grid? b.grid = some g →
      ∃ (t : State) (x : Grid) (sp : Spawned), exec (.spawnBinTimer cl n) s = .next t ∧
        t.skeins = s.skeins ∧ t.blocks = s.blocks ∧ t.mem = s.mem ∧
        (∀ y ∈ (t.cluster cl).bins, ¬(y.entry = b.entry ∧ y.grid = b.grid)) ∧
        (∀ y ∈ (s.cluster cl).bins, ¬(y.entry = b.entry ∧ y.grid = b.grid) → y ∈ (t.cluster cl).bins) ∧
        x ∈ t.grids ∧ x.origin = .spawnOf g.id ∧ sp ∈ x.spawned ∧
        sp.entry = b.entry ∧ sp.args = b.args ∧ sp.vset = b.vset ∧ sp.coset = b.coset ∧ sp.cl = cl ∧ sp.since = s.ticks ∧
        ((∀ y ∈ s.grids, y.origin ≠ .spawnOf g.id) →
          x.id = s.nextId ∧ x.level = g.level + 1 ∧ x.tenant = g.tenant ∧ x.prio = g.prio ∧ x.spawned = [sp])) ∧
    (∀ b g c pa, s.block? b.grid b.num = some b → s.grid? b.grid = some g → s.mayRetire b = true → s.ctx? g.ctx = some c →
      (∀ p, g.origin ≠ .spawnOf p) → (∀ k ∈ s.skeinsOf b, k.stores = []) → g.retired + 1 < g.g →
      s.aorPage c (g.bitmap + 4 * (b.num / 32)) g.tenant = .ok pa → s.wordHeld pa = false → Memory.wf s.mem = true →
      (∀ l ∈ (locG pa).span 4, s.failedAt l = false) →
      ∃ t : State, exec (.blockRetire b.grid b.num) s = .next t ∧
        cellsNat t.mem pa 4 = cellsNat s.mem pa 4 ||| 2 ^ (b.num % 32) ∧
        (∀ a, a < pa ∨ pa + 4 ≤ a → cellGet t.mem a = cellGet s.mem a) ∧
        t.block? b.grid b.num = none ∧ (∀ x ∈ t.skeins, ¬(x.grid = b.grid ∧ x.block = b.num)) ∧
        t.grid? g.id = some { g with retired := g.retired + 1 }) ∧
    (∀ x y : Placeable, Placeable.before x y = true ↔
      y.eff < x.eff ∨ (y.eff = x.eff ∧ (y.aged < x.aged ∨ (y.aged = x.aged ∧
        (x.slots * y.weight < y.slots * x.weight ∨ (x.slots * y.weight = y.slots * x.weight ∧
          (x.tenant < y.tenant ∨ (x.tenant = y.tenant ∧ (x.gid < y.gid ∨ (x.gid = y.gid ∧ x.blk ≤ y.blk)))))))))) ∧
    (∀ q ∈ s.placeables cl fun part tenant => s.weight part cl tenant,
      let mine := (s.placeables cl fun part tenant => s.weight part cl tenant).filter (·.tenant == q.tenant)
      ∃ g ∈ s.grids, ∃ since : Nat, g.id = q.gid ∧ g.tenant = q.tenant ∧ q.waited = s.ticks - since ∧
        q.eff = min 3 (g.prio + q.waited / 1048576) ∧ q.weight = s.weight g.part cl g.tenant ∧
        q.slots = (s.skeins.filter fun k => k.cluster == cl && (s.gridOf k).tenant == q.tenant).length ∧
        ((∀ r ∈ mine, r.waited < 65536) → q.aged = 0) ∧
        ((∃ r ∈ mine, 65536 ≤ r.waited) → (∀ r ∈ mine, r.waited ≤ q.aged) ∧ ∃ r ∈ mine, r.waited = q.aged)) ∧
    (∀ pre q post, (∀ x ∈ s.placeables cl fun part tenant => s.weight part cl tenant, 0 < x.weight) →
      sortBy Placeable.before (s.placeables cl fun part tenant => s.weight part cl tenant) = pre ++ q :: post →
      ∀ x ∈ pre, Placeable.before x q = true) ∧
    (∀ pre q post g core, (s.cluster cl).online = true →
      let fits (q : Placeable) (core : Nat) : Prop :=
        ∃ x, s.grid? q.gid = some x ∧ core / 8 = cl ∧ s.takes (s.shape x q.threads) core = true
      sortBy Placeable.before (s.placeables cl fun part tenant => s.weight part cl tenant) = pre ++ q :: post →
      (∀ x ∈ pre, x.waited < 262144 ∧ ∀ m, ¬fits x m) → s.grid? q.gid = some g → fits q core →
      (∀ m, m < core → ¬fits q m) →
      exec (.blockPlacement cl) s = .next (s.place g q.blk q.threads core)) ∧
    (∀ g blk j c, s.grid? g.id = some g → blk ∈ g.held → s.ctx? g.ctx = some c → c.over = false →
      g.dependsOn blk = some j → s.depBit g j = .ok true → exec (.dependencyPoll g.id blk) s =
        .next (s.setGrid { g with held := g.held.filter (· != blk), avail := g.avail ++ [(blk, s.ticks)] })) ∧
    (cl < s.clusters.length → ∃ t : State, exec (.sorterSample cl) s = .next t ∧
      ((∀ x ∈ (t.cluster cl).stages, x.pressed = false) → t.skeins = s.skeins) ∧
      ∀ (n : Nat) (x : Stage), (s.cluster cl).stages[n]? = some x → x.valid = true →
        let len := (s.stageBasket x).ring.length
        ∃ y : Stage, (t.cluster cl).stages[n]? = some y ∧ y.run = (if x.high ≤ len then x.run + 1 else 0) ∧
          (y.pressed = true ↔ 4 ≤ y.run ∨ (x.pressed = true ∧ x.low < len))) ∧
    (∀ r rest, (s.cluster cl).records = r :: rest →
      let t := s.modCluster cl fun c => { c with records := rest }
      let acts (u : State) : Prop := exec (.finwesinStopAction cl) s = .next u
      let dbg := ∃ c, t.ctx? r.ctx = some c ∧ c.dbg ≠ none
      let ends : State := match t.ctx? r.ctx with
        | none => t
        | some c => if c.finished = true
          then t.modCluster (c.clusters.headD 0) fun x => { x with discarded := satInc x.discarded }
          else t.endContext r.ctx r.code
      (r.cause = 0 ∨ r.cause = 6 → recoverable r.code = false → acts ends) ∧
      (r.cause = 0 ∨ r.cause = 6 → recoverable r.code = true → acts ((t.modStopped r Skein.reperform).logError r)) ∧
      (r.cause = 2 ∨ r.cause = 3 → ¬dbg → acts ends) ∧
      (r.cause = 2 ∨ r.cause = 3 ∨ r.cause = 4 → dbg → acts { t with dbgQueue := t.dbgQueue ++ [r] }) ∧
      (r.cause = 4 → ¬dbg → acts ((t.modStopped r fun k st =>
        { k with swlo := k.swlo &&& 1, stop := some { st with go := true } }).logError r))) ∧
    (∀ ctx c left, s.ctx? ctx = some c → c.ending = some left → cl ∈ left →
      (∀ k ∈ s.skeins, k.ctx = ctx → k.cluster = cl → ∀ r ∈ k.preqs, r.status ≠ none) →
      let u := (s.skeins.filter fun k => k.ctx == ctx && k.cluster == cl).foldl (fun u k => u.drain k.id fun _ => true) s
      let t := ({ u with skeins := u.skeins.map fun k => if k.ctx = ctx ∧ k.cluster = cl then k.halt else k } : State).setCtx
        { c with ending := some (left.filter (· != cl)) }
      exec (.clusterConfirm ctx cl) s = .next (if ∀ x ∈ left, x = cl then t.finishEnd ctx else t)) ∧
    (∀ ctx c desc g, s.ctx? ctx = some c → c.over = false → s.drains c.part = false →
      s.parseDesc c .finwesin .finwesin desc = some g →
      exec (.finwesinSubmission ctx desc) s = .next (s.accept g).2.refreshFlags) ∧
    ∀ (ctx : Nat) (c : Context) (o : ObjImage) (t1 t2 t3 t4 : State), s.ctx? ctx = some c → c.over = false →
      recipesOk o.recipeBytes = true → (∀ k ∈ o.kernels, kernelOk k = true) →
      let own := tenantBit c.tenant
      let loads (u v : State) (sec : Section) (bs : List Byte) (set : OSet) (perm : Nat) : Prop :=
        u.loadSection ctx (objBase o sec) (objRelocated o sec bs) set perm = some v
      loads s t1 .code o.codeBytes own 5 → loads t1 t2 .rodata o.rodataBytes (o.rodataOrigin.getD own) 1 →
      loads t2 t3 .data o.dataBytes (o.dataOrigin.getD own) 3 → loads t3 t4 .recipes o.recipeBytes own 5 →
      exec (.codeObjectLoad ctx o) s = .next (t4.modCtx ctx fun d => { d with objs := d.objs ++
        [⟨o.code, o.codeBytes.length, o.rodata, o.data, o.recipes, ofBytesLE (o.recipeBytes.take 4), o.kernels, objDigest o⟩] })

/-- R362 to R364, R366 to R368, R370 to R372: the end of a time slice asks every cluster where the context runs to stop, and takes the
overrun that the tenant owed from it; the drain goes from stopping to draining to saved; the deadline and the watchdog; the
resume order; and a dropped block, which stays while a command of it is outstanding and keeps its context from being saved. A context
that is saved on a cluster leaves it with its blocks and skeins, which keep their registers or, in recipe form, their live slices. That
a skein which waits for its debugger counts as stopped, these three steps of the drain, and that an error in a recipe ends the context,
are the model's choices (logs 35 and 20). -/
def Obligations.PreemptionComplete : Prop :=
  ∀ (s : State) (ctx cl : Nat) (c : Context), s.ctx? ctx = some c → c.over = false →
    ((∃ x ∈ c.onCl, x.phase = .running ∧
        x.since + (s.sliceOf c.part - (s.cluster x.cl).debt c.tenant) ≤ s.ticks) →
      exec (.timeSliceEnd ctx) s = .next ((c.onCl.filter (·.phase == .running)).foldl (fun t x =>
        (t.modCluster x.cl fun y => y.setDebt c.tenant (y.debt c.tenant - s.sliceOf c.part)).stopAllStuck ctx x.cl)
        (s.setCtx { c with graceOk := true, onCl := c.onCl.map fun x => if x.phase = .running
          then { x with phase := .stopping, since := s.ticks, late := false } else x }))) ∧
    (c.phase cl = .stopping →
      let t := s.stopAllStuck ctx cl
      let dbg := ∃ d, t.ctx? ctx = some d ∧ d.dbg ≠ none
      (∀ k ∈ t.skeins, k.ctx = ctx → k.cluster = cl → (k.stop = none ∧ k.splits = []) ∨
        ∃ st, k.stop = some st ∧ (st.record.cause = 5 ∨
          (st.go = false ∧ dbg ∧ (st.record.cause = 2 ∨ st.record.cause = 3 ∨ st.record.cause = 4)))) →
      exec (.engineDrain ctx cl) s = .next (State.modCtx
        { t with skeins := t.skeins.map fun k => if k.ctx = ctx ∧ k.cluster = cl then k.unqueue else k } ctx
        fun d => d.modOn cl fun x => { x with phase := .draining })) ∧
    (c.phase cl = .draining → (∃ b ∈ s.blocks, b.ctx = ctx ∧ b.cluster = cl ∧ b.dropping = true) →
      exec (.engineDrain ctx cl) s = .next s) ∧
    (c.phase cl = .draining → (∀ b ∈ s.blocks, b.ctx = ctx → b.cluster = cl → b.dropping = false) →
      (∀ k ∈ s.skeins, k.ctx = ctx → k.cluster = cl → k.cmds = [] ∧ k.mq = [] ∧ k.stores = [] ∧
        ∀ r ∈ k.preqs, r.status ≠ none ∨ r.expired = true) →
      (∀ k l, k ∈ s.skeins → k.ctx = ctx → k.cluster = cl → s.recipeFlaw c k false = some l →
        (∀ j ∈ s.skeins, j.ctx = ctx → j.cluster = cl → s.recipeFlaw c j false = none ∨ s.recipeFlaw c j false = some l) →
        exec (.engineDrain ctx cl) s = .next ((s.outsideError l).endContext ctx (s.outsideCode l))) ∧
      ((∀ k ∈ s.skeins, k.ctx = ctx → k.cluster = cl → s.recipeFlaw c k false = none) →
        ∃ (t : State) (d : Context), exec (.engineDrain ctx cl) s = .next t ∧ t.ctx? ctx = some d ∧ t.mem = s.mem ∧ d.phase cl = .saved ∧
          t.skeins = s.skeins.filter (fun k => !(k.ctx == ctx && k.cluster == cl)) ∧
          t.blocks = s.blocks.filter (fun b => !(b.ctx == ctx && b.cluster == cl)) ∧
          d.savedBlocks = c.savedBlocks ++ s.blocks.filter (fun b => b.ctx == ctx && b.cluster == cl) ∧
          ∃ forms : List Skein, d.saved = c.saved ++ forms ∧
            forms.length = (s.skeins.filter fun k => k.ctx == ctx && k.cluster == cl).length ∧
            ∀ (n : Nat) (k j : Skein), (s.skeins.filter fun k => k.ctx == ctx && k.cluster == cl)[n]? = some k → forms[n]? = some j →
              j.grid = k.grid ∧ j.block = k.block ∧ j.num = k.num ∧ j.sets = k.sets ∧ j.stack = k.stack ∧ j.lfm = k.lfm ∧ j.streams = [] ∧
              (s.recipeOf c k = none → j.lanes = k.lanes) ∧
              ∀ o m, s.recipeOf c k = some (o, m) → j.recipe = some m ∧ j.lanes = k.lanes.map fun l => l &&& s.recipeLive c o m)) ∧
    (∀ x ∈ c.onCl, x.cl = cl → x.phase = .stopping ∨ x.phase = .draining → x.since + s.sliceOf c.part / 8 ≤ s.ticks →
      exec (.graceDeadline ctx cl) s =
        .next (s.setCtx { (c.modOn cl fun x => { x with late := true }) with graceOk := false })) ∧
    (∀ x, c.onCl.find? (·.cl == cl) = some x → x.phase = .stopping ∨ x.phase = .draining →
      4 * s.sliceOf c.part ≤ c.overrun + s.runningOverrun c →
      exec (.watchdog ctx cl) s = .next (s.endContext ctx 0x8D00)) ∧
    (c.phase cl = .saved → (∀ b ∈ c.savedBlocks, b.cluster ≠ cl) → exec (.contextResume ctx cl) s =
      .next { (s.setCtx (c.modOn cl fun x => { x with phase := .running, since := s.ticks })) with
        grids := s.grids.map fun g => if g.ctx = ctx then g.undrop s.ticks else g }) ∧
    (∀ t, c.phase cl = .saved ∨ c.phase cl = .restoring →
      s.restoreBlocks ctx cl (c.savedBlocks.filter (·.cluster == cl)) = (t, []) →
      ∃ u : State, exec (.contextResume ctx cl) s = .next u ∧ u.skeins = t.skeins ∧ u.blocks = t.blocks ∧ u.mem = t.mem) ∧
    ∀ (b : Block) (g : Grid), s.block? b.grid b.num = some b → s.grid? b.grid = some g → s.mayDrop b g = true →
      (∀ k ∈ s.skeinsOf b, s.skein? k.id = some k → k.cmds ≠ [] → ∃ (t : State) (x : Block),
        exec (.blockDrop b.grid b.num) s = .next t ∧ t.block? b.grid b.num = some x ∧ x.dropping = true) ∧
      ((∀ k ∈ s.skeinsOf b, k.cmds = [] ∧ k.stores = [] ∧ k.calling = false) →
      ∃ (t : State) (x : Grid), exec (.blockDrop b.grid b.num) s = .next t ∧ t.block? b.grid b.num = none ∧ t.grid? b.grid = some x ∧
        x.dropped = g.dropped ++ [b.num])

/-! ## Service calls -/

/-- R147, R184, R283, R293, R296, R338, R355, R357 to R360, R442: what each call for time, memory, baskets, stages, bins, groups
and interrupt targets changes and returns when its arguments are in their limits. A place that no rule names is free: the host's
time, a base, whether frames are found, a slot, a handle and the core of a thread (log 7), and what a call checks first where two
arguments are wrong is the model's choice (log 31), as are which frames of the partition's ranges a region takes (log 30), and that a
collective group, which is not usable at the call, becomes so by a message of its other members (log 21). -/
def Obligations.ServiceCallsComplete : Prop :=
  ∀ (s : State) (sid uid lane : Nat) (r : Req),
    let asks (n : Nat) : Prop := Asks s sid uid lane n r
    let cl := r.k.cluster
    let more (n : Nat) : State := { s with free := s.free + n }
    let set (n : Nat) : OSet := BitVec.ofNat 16 (r.arg n)
    (asks 0 → r.arg 0 = 0 → r.arg 1 = 0 → r.arg 2 = 0 → r.arg 3 = 0 →
      let n := (s.cluster cl).counter
      ∃ now, now < 2 ^ 63 ∧ Answers (.timeCall sid uid lane) s r { more 1 with hostTime := now }
        [now, now / 2 ^ 32, n, n / 2 ^ 32] 0) ∧
    (asks 1 → r.arg 3 = 0 →
      let bytes := r.pair 0
      let size := bitsOf (r.arg 2) 1 2
      let oidx := bitsOf (r.arg 2) 4 12
      (bitsOf (r.arg 2) 0 1 = 0 → bitsOf (r.arg 2) 3 1 = 0 → bitsOf (r.arg 2) 16 16 = 0 → size ≠ 3 → bytes ≠ 0 →
        bytes % pageBytes size = 0 → (s.oset r.c.part oidx).subset r.c.readMask = true →
        (∃ t : State, Answers (.memAlloc sid uid lane) s r t [0xFFFF1900, 0xFFFFFFFF] 0 ∧
          t = { s with free := t.free }) ∨
        ∃ (va f n : Nat) (t : State), va % pageBytes size = 0 ∧ va + bytes ≤ 2 ^ 64 - 2 ^ 32 ∧
          (∀ g ∈ r.c.regions ++ r.c.shared, g.meets va bytes = false) ∧
          (∀ i, i < bytes / 65536 → (f + i) / 16384 ∈ (s.part r.c.part).hbm) ∧
          t = ({ s with free := t.free } : State).modPart r.c.part (fun q => { q with nextFrame := n }) ∧
          Answers (.memAlloc sid uid lane) s r
            (t.setCtx { r.c with regions := r.c.regions ++ [⟨va, bytes, f, oidx, 0, 3, size, 0⟩] }) [va, va / 2 ^ 32] 0) ∧
      (r.arg 2 = 1 → bytes ≠ 0 → bytes % 65536 = 0 → (∀ w ∈ (s.cluster cl).wins, w.ctx ≠ r.c.id) →
        (s.cluster cl).wins.foldl (fun n w => n + w.size) 0 + bytes ≤ 6291456 →
        Answers (.memAlloc sid uid lane) s r (s.modCluster cl fun c => { c with
          wins := c.wins ++ [⟨r.c.id, bytes, [], List.replicate (bytes / 1024) (tenantBit r.c.tenant)⟩] })
          [bytes, bytes / 2 ^ 32] 0)) ∧
    (asks 2 → r.arg 3 = 0 → r.pair 0 % 65536 = 0 → r.c.holdsRange [0, 2] (r.pair 0) (r.arg 2) = true → r.arg 2 ≠ 0 →
      r.arg 2 % 65536 = 0 → Answers (.memUnmap sid uid lane) s r (s.removeRange r.c.id (r.pair 0) (r.arg 2)) [0] 0) ∧
    (asks 3 → r.arg 1 % 1024 = 0 → r.arg 2 ≠ 0 → r.arg 2 % 1024 = 0 → r.arg 3 < 65536 →
      (set 3).subset r.c.readMask = true →
      let b := s.blockOf r.k
      (r.arg 0 = 0 → r.arg 1 + r.arg 2 ≤ s.spaceSize r.k .s → Answers (.tagWiden sid uid lane) s r
        (s.setBlock { b with spSets := widen b.spSets (r.arg 1) (r.arg 2) (set 3) }) [0] 0) ∧
      (r.arg 0 = 1 → r.arg 1 + r.arg 2 ≤ s.spaceSize r.k .c → Answers (.tagWiden sid uid lane) s r
        (s.modCluster cl fun c => { c with wins := c.wins.map fun w =>
          if w.ctx = r.c.id then { w with sets := widen w.sets (r.arg 1) (r.arg 2) (set 3) } else w }) [0] 0)) ∧
    (asks 0x28 → r.arg 3 = 0 → r.arg 2 < 65536 → (tenantBit r.c.tenant).subset (set 2) = true →
      (set 2).subset r.c.readMask = true →
      let lg := bitsOf (r.arg 0) 0 4
      let es := bitsOf (r.arg 0) 4 3
      let scope := bitsOf (r.arg 0) 8 2
      let n := 2 ^ lg
      let e := 16 * 2 ^ es
      r.arg 0 < 1024 → bitsOf (r.arg 0) 7 1 = 0 → 4 ≤ lg → lg ≤ 12 → es ≤ 4 → scope ≤ 2 →
      (scope = 0 → r.arg 1 % 64 = 0 ∧ r.arg 1 + n * e ≤ s.spaceSize r.k .s ∧
        s.hitsBasket r.k .s (r.arg 1) (n * e) = false) →
      (scope ≠ 0 → r.arg 1 = 0 ∧ (s.cluster cl).basketBytes + n * e ≤ 2 ^ 21) →
      (∃ m, m < 64 ∧ (s.basket cl m).st = .free) →
      ∃ slot, slot < 64 ∧ (s.basket cl slot).st = .free ∧
        let gen := (s.basket cl slot).gen + 1
        let t := (more 1).modBasket cl slot fun _ =>
          ⟨.opened, gen, r.c.id, scope, (r.k.grid, r.k.block), n, e, r.arg 1, set 2, []⟩
        let b := s.blockOf r.k
        Answers (.basketCreate sid uid lane) s r
          (if scope = 0 then t.setBlock { b with cells := cellsClear b.cells (r.arg 1) (n * e) } else t)
          [cl * 2 ^ 24 + gen.toNat * 2 ^ 8 + slot] 0) ∧
    (asks 0x29 → r.basketOk (r.arg 0) = true → r.arg 1 = 0 → r.arg 2 = 0 → r.arg 3 = 0 →
      Answers (.basketDestroy sid uid lane) s r (s.retireBasket (hCluster (r.arg 0)) (hSlot (r.arg 0))) [0] 0) ∧
    (asks 0x2A → r.basketOk (r.arg 0) = true → (s.basket (hCluster (r.arg 0)) (hSlot (r.arg 0))).st = .opened →
      1 ≤ r.arg 1 → r.arg 1 ≤ 4096 → r.arg 2 < r.arg 1 → r.arg 3 = 0 →
      (∃ m, m < 64 ∧ ((s.cluster cl).stages.getD m Stage.reset).valid = false) →
      ∃ n, n < 64 ∧ ((s.cluster cl).stages.getD n Stage.reset).valid = false ∧
        Answers (.stageRegister sid uid lane) s r ((more 1).modCluster cl fun c => { c with
          stages := c.stages.set n ⟨true, BitVec.ofNat 32 (r.arg 0), r.arg 1, r.arg 2, r.c.id, 0, false⟩ }) [n] 0) ∧
    (asks 0x2B → (∃ x, (s.cluster cl).stages[r.arg 0]? = some x ∧ x.valid = true ∧ x.ctx = r.c.id) → r.arg 1 = 0 →
      r.arg 2 = 0 → r.arg 3 = 0 → Answers (.stageRemove sid uid lane) s r
        (s.modCluster cl fun c => { c with stages := c.stages.set (r.arg 0) Stage.reset }) [0] 0) ∧
    (asks 0x30 → (∃ o ∈ r.c.objs, ∃ q ∈ o.kernels, o.code + q.entry = r.pair 0) → 1 ≤ r.arg 2 → r.arg 2 ≤ 2 ^ 24 →
      r.arg 3 = 0 → Answers (.spawnConfig sid uid lane) s r (s.modCluster cl fun c => { c with
        periods := (r.pair 0, r.c.id, r.arg 2) :: c.periods.filter fun x => !(x.1 == r.pair 0 && x.2.1 == r.c.id) })
        [0] 0) ∧
    (∀ q bs x, asks 0x31 → 2 ≤ r.arg 2 → r.arg 2 ≤ 1024 → r.arg 3 < 65536 →
      (tenantBit r.c.tenant).subset (set 3) = true → (set 3).subset r.c.readMask = true →
      r.read (r.pair 0) (2 * r.arg 2) 0 = .ok (q, bs, x) →
      let ms := (List.range (r.arg 2)).map fun m => ofBytesLE ((bs.drop (2 * m)).take 2)
      (∀ m ∈ ms, m < (s.part r.c.part).modules.length) → ms.Nodup → ∀ self, ms[self]? = some (s.part r.c.part).selfIndex →
      ∃ h, h ∉ q.s.groups.map (·.handle) ∧ Answers (.collGroup sid uid lane) s r
        { q.s with free := q.s.free + 1, groups := q.s.groups ++ [⟨h, r.c.id, ms, self, set 3, false⟩] } [h] x) ∧
    (∀ q bs x, asks 0x38 → r.arg 3 = 0 → r.read (r.pair 0) 16 0 = .ok (q, bs, x) →
      let va := ofBytesLE (bs.take 8)
      let who := ofBytesLE (bs.drop 8)
      va % 8 = 0 →
      (r.arg 2 = 0 → ∃ (h : Nat) (core : Option Nat), h ∉ q.s.uints.map (·.handle) ∧ (∀ n, core = some n → n < 16) ∧
        Answers (.uintRegister sid uid lane) s r
          { q.s with free := q.s.free + 3, uints := q.s.uints ++ [⟨h, 0, va, who, core, r.c.id⟩] } [h] x) ∧
      ∀ g, r.arg 2 = 1 → q.s.grids.find? (fun g => g.id == who && g.part == r.c.part) = some g →
        ∃ h, h ∉ q.s.uints.map (·.handle) ∧ Answers (.uintRegister sid uid lane) s r
          { q.s with free := q.s.free + 3, uints := q.s.uints ++ [⟨h, 1, va, who, none, g.ctx⟩] } [h] x) ∧
    (asks 0x39 → (∃ t ∈ s.uints, t.handle = r.arg 0 ∧ t.kind ≠ 2 ∧ t.ctx = r.c.id) → r.arg 1 = 0 → r.arg 2 = 0 →
      r.arg 3 = 0 → Answers (.uintUnregister sid uid lane) s r
        { s with uints := s.uints.filter (·.handle != r.arg 0) } [0] 0) ∧
    ∀ n, asks n → n ∉ [0, 1, 2, 3, 0x10, 0x11, 0x12, 0x13, 0x18, 0x19, 0x1A, 0x1B, 0x20, 0x28, 0x29, 0x2A, 0x2B, 0x30,
      0x31, 0x38, 0x39] → Answers (.unlistedCall sid uid lane) s r s [0xFFFF9800] 0

/-- R357, R358, R398, R401 to R408: what the calls on files and sockets and EGRESS change and return once their arguments, buffers and
sets have passed, and how a storage command ends: its data move once no engine holds a byte of the buffer, its quarantined frames
are zeroed and freed, and its caller is answered unless it was the last command on a quarantined frame. A partition uses the Ethernet
ports that it owns or has a VLAN on, and a reset of a drive's controller takes every command that it has. How an unreadable unit ends a
call, how a port that is not the partition's does, what a port or a drive that did not come up does, that the discarded completion leaves
the call unanswered, and which status from 1 to 255 an aborted or lost command has are the model's choices (logs 7, 31, 32 and 37). -/
def Obligations.TransfersComplete : Prop :=
  (∀ (s : State) (sid uid lane ext : Nat) (r q u : Req) (d : Desc) (path bs rest : List Byte) (buf : Nat) (x y : OSet)
    (ps : List Part),
    let asks (n : Nat) : Prop := Asks s sid uid lane n r
    let names (file : Bool) : Prop := r.c.descs.find? (fun e => e.num == r.arg 0 && e.isFile == file) = some d
    let opens (i : Instr) (t : State) (e : Desc) : Prop := ∃ n, n ∉ q.c.descs.map (·.num) ∧
      Answers i s r (State.setCtx { t with free := t.free + 1 } { q.c with descs := q.c.descs ++ [{ e with num := n }] }) [n] x
    let owns (t : State) (part port : Nat) : Prop := port ∈ (t.part part).ethPorts ∨ ∃ v ∈ (t.part part).vlans, v.1 = port
    let up (t : State) (part port : Nat) : Prop := owns t part port ∧ port ∉ (t.part part).ethDown
    let record : Prop := r.inFlight = false ∧ names true ∧ r.arg 1 ≤ 16777216 ∧ r.ioRecord = .ok (q, buf, rest, x)
    (asks 0x10 → r.arg 2 < 16 → r.arg 2 % 4 ≠ 0 → r.arg 3 < (s.part r.c.part).namespaces.length → r.arg 3 ≤ 255 →
      r.string (r.pair 0) 256 0 = .ok (q, bs, x) → pathOf bs = some path → r.arg 3 ∉ (q.s.part q.c.part).deadNs →
      let old := q.s.file? q.c.part (r.arg 3) path
      old ≠ none ∨ bitsOf (r.arg 2) 2 1 = 1 →
      opens (.fileOpen sid uid lane 0)
        (if old = none ∨ bitsOf (r.arg 2) 3 1 = 1 then q.s.putFile q.c.part (r.arg 3) path [] else q.s)
        ⟨0, r.arg 3, path, r.arg 2, true⟩) ∧
    (asks 0x11 → record → d.flags % 2 = 1 → q.reach needStore buf (r.arg 1) x = .ok (u, ps) →
      (∀ e ∈ ps, ∀ z ∈ e.sets, (u.nsSet d ||| u.argset).subset z = true) →
      let data := match u.s.file? u.c.part d.ns d.path with | some f => f.data | none => []
      exec (.fileRead sid uid lane ext) s =
        .next (u.submit d true ((data.drop (ofBytesLE rest)).take (r.arg 1)) ps (ofBytesLE rest) (x ||| u.nsSet d) ext).s) ∧
    (∀ v, asks 0x12 → record → d.flags / 2 % 2 = 1 → q.read buf (r.arg 1) x = .ok (u, bs, y) →
      u.reach needLoad buf (r.arg 1) y = .ok (v, ps) → (y ||| v.argset).subset (v.nsSet d) = true →
      exec (.fileWrite sid uid lane ext) s = .next (v.submit d false bs ps (ofBytesLE rest) y ext).s) ∧
    (∀ (i : Instr) (file : Bool), i = (if file then .fileClose sid uid lane else .sockClose sid uid lane) →
      asks (if file then 0x13 else 0x1B) → names file → r.arg 1 = 0 → r.arg 2 = 0 → r.arg 3 = 0 →
      Answers i s r (s.setCtx { r.c with descs := r.c.descs.filter (·.num != d.num) }) [0] 0) ∧
    (asks 0x18 → 7 < r.arg 0 ∨ ¬owns s r.c.part (r.arg 0) → ∀ e, Answers (.sockCreate sid uid lane e) s r s [0xFFFF9800] 0) ∧
    (asks 0x18 → r.arg 0 ≤ 7 → owns s r.c.part (r.arg 0) → r.arg 1 ≤ 1 → r.pair 2 % 8 = 0 → r.read (r.pair 2) 24 0 = .ok (q, bs, x) →
      let f (a n : Nat) : Nat := ofBytesLE ((bs.drop a).take n)
      f 0 2 = 6 ∨ (f 0 2 = 4 ∧ f 12 12 = 0) → f 4 4 = 0 →
      (up q.s q.c.part (r.arg 0) → opens (.sockCreate sid uid lane 0) q.s ⟨0, r.arg 0, bs, r.arg 1, false⟩) ∧
      (¬up q.s q.c.part (r.arg 0) → Answers (.sockCreate sid uid lane 0) s r q.s [0xFFFF1C00] x)) ∧
    (∀ t n, asks 0x19 → names false → r.arg 1 ≤ 16777216 → r.read (r.pair 2) (r.arg 1) 0 = .ok (q, bs, x) →
      t < 16 → x ||| q.argset = 1#16 <<< t →
      (q.s.part q.c.part).dests.findIdx? (fun e => e.kind == 1 && e.owner == t && e.port == d.ns &&
        e.target == ofBytesLE d.path) = some n → up q.s q.c.part d.ns → ext ≠ 1 → ext ≠ 2 →
      let sent := if ext = 0 then bs else bs.take (ext - 3)
      Answers (.sockSend sid uid lane ext) s r (q.s.leave q.c.part n 0 sent) [sent.length] x) ∧
    (∀ data, asks 0x1A → names false → r.arg 1 ≤ 16777216 → r.receiving = false →
      r.reach needStore (r.pair 2) (r.arg 1) 0 = .error none → exec (.sockRecv sid uid lane data) s = .next { s with
        heldOutside := s.heldOutside ++ [.received r.k.grid r.k.block r.k.num lane data] }) ∧
    (∀ data, asks 0x1A → names false → r.arg 1 ≤ 16777216 → r.receiving = false → r.reach needStore (r.pair 2) (r.arg 1) 0 = .ok (q, ps) →
      (∀ e ∈ ps, ∀ z ∈ e.sets, q.argset.subset z = true) →
      let got := data.take (r.arg 1)
      Answers (.sockRecv sid uid lane data) s r (q.s.svcWrite r.k.die ps got) [got.length] 0) ∧
    ∀ dest off, asks 0x20 → r.arg 1 ≤ 16777216 → r.ioRecord = .ok (q, buf, rest, x) →
      q.read buf (r.arg 1) x = .ok (u, bs, y) → u.gate (y ||| u.argset) rest = .ok (dest, off) →
      (∀ l ∈ u.s.windowAt u.c.part dest off bs.length, u.s.owned l = false ∧ u.s.pinned l = false) →
      (∀ e, (u.s.part u.c.part).dests[dest]? = some e →
        (e.kind = 1 → up u.s u.c.part e.port) ∧ (e.kind = 2 → e.target ∉ (u.s.part u.c.part).deadNs)) →
      let t := if r.arg 0 = 0 then u.s else u.s.spend u.c.part (r.arg 0) (r.arg 1)
      Answers (.egress sid uid lane 0) s r (t.deliver u.c.part dest off bs) [bs.length] y) ∧
  (∀ (s : State) (c : Nvme),
    let locs := (c.buf.flatMap fun b => (locG b.1).span b.2).take c.data.length
    (c.status ≠ 0 → s.transfer c = s) ∧
    (c.status = 0 → c.read = true → Memory.wf s.mem = true →
      (∀ (j : Nat) (l : Loc) (b : Byte), locs[j]? = some l → c.data[j]? = some b → (∀ m, j < m → locs[m]? ≠ some l) →
        cellGet (s.transfer c).mem l.addr = b) ∧
      ∀ a, (∀ l ∈ locs, l.addr ≠ a) → cellGet (s.transfer c).mem a = cellGet s.mem a) ∧
    (c.status = 0 → c.read = false → (s.transfer c).mem = s.mem ∧
      ∃ e, (s.transfer c).file? c.part c.ns c.path = some e ∧
        (∀ j, j < c.data.length → e.data[c.off + j]? = c.data[j]?) ∧
        ∀ old, s.file? c.part c.ns c.path = some old → e.data.length = max old.data.length (c.off + c.data.length) ∧
          ∀ j, j < old.data.length → j < c.off ∨ c.off + c.data.length ≤ j → e.data[j]? = old.data[j]?) ∧
    ∀ f ∈ c.frames, f ∈ s.quarantined → (∀ x ∈ s.nvme, x.submitted = true → f ∉ x.frames) →
      f ∉ (s.releaseFrames c).quarantined ∧ ∀ a, a / 65536 = f → cellGet (s.releaseFrames c).mem a = 0) ∧
  ∀ (s : State) (c : Nvme), s.nvme.find? (·.id == c.id) = some c → c.resetting = false →
    let drive (x : Nvme) : Nat := (s.part x.part).drives.getD x.ns 0
    let lost (t : State) (d : Nvme) (u : State) : Prop :=
      let v : State := { t with nvme := t.nvme.filter (·.id != d.id), free := t.free + 1 }
      let w := v.releaseFrames d
      let last := ∃ f ∈ d.frames, f ∈ t.quarantined ∧ ∀ x ∈ v.nvme, x.submitted = true → f ∉ x.frames
      ∃ n, 1 ≤ n ∧ n ≤ 255 ∧ (last → u = w) ∧ (¬last → u = w.answerCaller { d with status := n })
    (c.read = false ∨ c.status ≠ 0 ∨
      (∀ b ∈ c.buf, ∀ l ∈ (locG b.1).span b.2, s.owned l = false ∧ s.pinned l = false) →
      let t : State := { s with nvme := s.nvme.filter (·.id != c.id) }
      let u := (t.transfer c).releaseFrames c
      let last := ∃ f ∈ c.frames, f ∈ s.quarantined ∧ ∀ x ∈ t.nvme, x.submitted = true → f ∉ x.frames
      (last → exec (.nvmeCompletion c.id) s = .next u) ∧ (¬last → exec (.nvmeCompletion c.id) s = .next (u.answerCaller c))) ∧
    (c.sent + 52500000000 ≤ s.ticks + s.frozenTicks →
      (∃ u, exec (.nvmeAbortTimeout c.id false) s = .next u ∧ lost s c u) ∧
      exec (.nvmeAbortTimeout c.id true) s = .next { s with nvme := s.nvme.map fun e =>
        if (e.submitted = true ∧ drive e = drive c) then { e with resetting := true } else e }) ∧
    ∀ t : State, t.parts = s.parts → t.nvme = [{ c with resetting := true }] →
      ∃ u, exec (.controllerResetComplete (drive c)) t = .next u ∧ lost t { c with resetting := true } u

/-! ## Hosts and the processor chiplet -/

/-- R328, R331, R391 to R393, R399, R400: a notification makes chains available; the oldest well-formed request of queue 0 is
served and completes, a MAP once no command uses a frame of its range and with its pages mapped, each I/O page of each function on a
frame of its own; one that is not well-formed completes with 0x9800; and either reset gives the function a new context, empty queues
and status 0, and ends the old one, whose collectives' partners are told by a hem port. Which frame of the PCIe range stands for an
I/O page, that a range of no byte may be mapped, what a notification brings with it, that a SUBMIT whose descriptor holds an error or
lies in lost memory ends the context, and that a new context needs a frame of Finwesin's own for its tables are the model's choices
(logs 14, 20, 30 and 39). -/
def Obligations.RequestsComplete : Prop :=
  (∀ (s : State) (v : VF), s.vf? v.id = some v →
    (∀ chains, v.live 0 = true → exec (.queueNotify v.id 0 chains) s = .next (s.setVf { v with
      chains := v.chains ++ chains.mapIdx fun n c => (v.nextChain + n, c), nextChain := v.nextChain + chains.length })) ∧
    (∀ chains, v.live 1 = true → exec (.queueNotify v.id 1 chains) s = .next (s.setVf { v with
      posted := v.posted + chains.countP fun c => c.request.isEmpty && c.writable == 16 })) ∧
    ∀ c, s.stopped = false → s.ctx? v.ctx = some c → ∀ i, i = .functionLevelReset v.id ∨ i = .virtioStatusReset v.id ∨
        (∃ (n : Nat) (d : BitVec 64), d.extractLsb' 0 8 = 0 ∧ i = .commonConfigurationWrite v.id ⟨0x14, n⟩ d) →
      ∃ (t : State) (w : VF), exec i s = .next t ∧ t.vf? v.id = some w ∧ w.status = 0 ∧ w.chains = [] ∧ w.open0 = [] ∧ w.posted = 0 ∧
        w.used = v.used ∧ (w.ctx = s.nextId ∨ w.ctx = c.id) ∧
        ((∃ g ∈ s.own, paExists s.localGiB (g * 2 ^ 30) = true ∧ paType (g * 2 ^ 30) = 0) → s.hbmUp = BitVec.allOnes 24 →
          s.ownUsed.length < 16384 → w.ctx = s.nextId) ∧ (∀ g ∈ t.groups, g.ctx ≠ c.id) ∧
        ((s.part c.part).hemPorts ≠ [] → (s.part c.part).routes ≠ [] → ∀ g ∈ s.groups, g.ctx = c.id →
          ∃ port ∈ (s.part c.part).hemPorts, ∃ route ∈ (s.part c.part).routes, (port, route, .aborted g.handle 0x0F01) ∈ t.hem) ∧
        (∀ g ∈ t.uints, g.kind = 2 → g.who ≠ v.id) ∧
        ∃ d, t.ctx? c.id = some d ∧ d.descs = [] ∧ (d.finished = true ∨ d.code ≠ none)) ∧
  ∀ (s : State) (v : VF) (x : Context) (n : Nat) (c : Chain) (rest : List (Nat × Chain)),
    s.vf? v.id = some v → s.ctx? v.ctx = some x → v.chains = (n, c) :: rest → v.live 0 = true → x.code = none →
    let t := s.setVf { v with chains := rest, open0 := v.open0 ++ [n] }
    let f (a m : Nat) : Nat := chainField c a m
    let kind (m : Nat) : Prop := chainType c = some m
    (kind 1 → f 8 8 % 64 = 0 → f 8 8 + 128 ≤ v.winUnits * 65536 → f 16 8 = 0 → f 24 4 = 0 → f 28 4 = 0 →
      t.drains v.part = false → (∀ l ∈ (locG (v.winBase + f 8 8)).span 128, t.owned l = false) →
      (∀ w ∈ s.posted, w.1 < v.winBase + f 8 8 + 128 → w.1 + w.2.length ≤ v.winBase + f 8 8) →
      let does (u : State) : Prop := exec (.submit v.id) s = .next u
      (t.hbmAt (v.winBase + f 8 8) 128 = false → does ((t.respond v.id n 0x5301 0).endContext x.id 0x5301)) ∧
      (∀ g, t.hbmAt (v.winBase + f 8 8) 128 = true → t.failedIn (v.winBase + f 8 8) 128 = none →
        t.parseDesc x (.queue v.tenant (t.windowSet x (v.winBase + f 8 8) 128)) (.queue v.id n) (cellsRead s.mem (v.winBase + f 8 8) 128) = some g →
        does (t.accept g).2.refreshFlags) ∧
      ∀ l, t.hbmAt (v.winBase + f 8 8) 128 = true → t.failedIn (v.winBase + f 8 8) 128 = some l →
        does (((t.outsideError l).respond v.id n (t.outsideCode l) 0).endContext x.id (t.outsideCode l))) ∧
    (kind 2 → f 8 8 % 65536 = 0 → f 16 8 % 65536 = 0 → f 16 8 + f 24 4 ≤ 2 ^ 64 →
      (f 24 4 ≠ 0 → ∀ r ∈ x.regions ++ x.shared, r.meets (f 16 8) (f 24 4) = false) → f 24 4 % 65536 = 0 → f 24 4 ≤ 2 ^ 30 →
      f 28 4 < 2 ^ 14 → (t.oset v.part (bitsOf (f 28 4) 0 12)).subset (tenantBit v.tenant) = true →
      let ps := (List.range (f 24 4 / 65536)).map fun j => (v.id, (f 8 8 / 65536 + j) % 2 ^ 48)
      let u := t.ioGrow ps
      (∀ q ∈ ps, ∀ m, u.ioPages.findIdx? (· == q) = some m → 0x30000000 + m ∉ s.quarantined) → u.ioPages.length ≤ 2 ^ 28 →
      (∃ more, u = { t with ioPages := t.ioPages ++ more }) ∧
      ∃ rs : List Region, exec (.mapReq v.id) s = .next (((u.setCtx { x with regions := x.regions ++ rs }).mapRange x.id
          (f 16 8) (f 24 4)).respond v.id n 0 0) ∧
        (∀ r ∈ rs, r.oidx = bitsOf (f 28 4) 0 12 ∧ r.type = 2 ∧ r.perm = bitsOf (f 28 4) 12 2 ∧ r.size = 0 ∧ r.kind = 1) ∧
        ∀ j, j < f 24 4 / 65536 → ∃ r ∈ rs, ∃ m, r.va ≤ f 16 8 + j * 65536 ∧ f 16 8 + j * 65536 < r.va + r.len ∧
          u.ioPages[m]? = some (v.id, (f 8 8 / 65536 + j) % 2 ^ 48) ∧
          r.frame + (f 16 8 + j * 65536 - r.va) / 65536 = 0x30000000 + m) ∧
    (kind 3 → f 8 8 % 65536 = 0 → f 16 8 % 65536 = 0 → f 24 4 % 65536 = 0 → f 24 4 ≤ 2 ^ 30 → f 28 4 = 0 →
      (∀ j, j < f 24 4 / 65536 → ∃ r m, x.region? (f 16 8 + j * 65536) = some r ∧ r.kind = 1 ∧
        s.ioPages.findIdx? (· == (v.id, (f 8 8 / 65536 + j) % 2 ^ 48)) = some m ∧
        r.frame + (f 16 8 + j * 65536 - r.va) / 65536 = 0x30000000 + m) →
      let ps := (List.range (f 24 4 / 65536)).map (f 16 8 / 65536 + ·)
      (∀ q ∈ ps, t.commandHolds x.id q = false) →
      exec (.unmapReq v.id) s = .next (((t.removeRange x.id (f 16 8) (f 24 4)).modCtx x.id fun d =>
        { d with stale := d.stale.filter fun y => !ps.contains y.1 }).respond v.id n 0 0)) ∧
    (kind 4 → f 8 8 % 8 = 0 → f 16 8 = 0 → f 24 4 = 0 → f 28 4 = 0 → ∃ h, h ∉ s.uints.map (·.handle) ∧
      exec (.uireg v.id) s = .next (State.respond { t with free := s.free + 1, uints := s.uints ++
        [⟨h, 2, f 8 8, v.id, none, x.id⟩] } v.id n 0 h)) ∧
    (kind 5 → (∃ g ∈ s.uints, g.handle = f 8 8 ∧ g.kind = 2 ∧ g.who = v.id) → f 16 8 = 0 → f 24 4 = 0 → f 28 4 = 0 →
      exec (.uiunreg v.id) s =
        .next (State.respond { t with uints := s.uints.filter (·.handle != f 8 8) } v.id n 0 0)) ∧
    (chainType c = none → exec (.invalidRequest v.id) s = .next (t.respond v.id n 0x9800 0))

/-- R242, R245, R248, R348, R360, R387, R388, R390, R391, R403, R423: a driver's write to BAR0, a host's reads of its function, a
grant, and what the chiplet's cores do to granted device memory and to host coherent memory; an access that an engine holds back
waits, as does one behind it. A read by a domain that lacks a tenant of the page returns nothing, nor does one of a failed unit, or of a
window whose memory is lost. That
aq, rl and fences add no order to accesses performed at their home at once, whether a store conditional succeeds on a reservation
that stands, how a failed unit or lost memory ends an outside read, and the offsets of BAR0 and of the configuration space that no rule
gives are the model's choices (logs 14, 20, 33 and 37). -/
def Obligations.HostAccessesComplete : Prop :=
  (∀ (s : State) (v : VF) (pos : RegAt) (d : BitVec 64), s.vf? v.id = some v → pos.off ≠ 0x14 ∨ d.extractLsb' 0 8 ≠ 0 →
    exec (.commonConfigurationWrite v.id pos d) s = .next (s.setVf (v.writeBar0 pos d))) ∧
  (∀ (s : State) (v : VF) (off n : Nat), s.vf? v.id = some v → (∀ a ∈ s.heldOutside, a.agent ≠ some (v.id, false)) →
    let reads (bar : Nat) (t : State) (bs : Option (List Byte)) : Prop := exec (.memoryWindowRead v.id ⟨bar, off⟩ n) s =
      .next { t with windowReads := t.windowReads ++ [(v.id, bar, bs)] }
    let window := (locG (v.winBase + off)).span n
    let waits := (∃ l ∈ window, s.owned l = true) ∨ s.postedOver (v.winBase + off) n = true
    (off + n ≤ v.winUnits * 65536 →
      (¬waits → s.hbmAt (v.winBase + off) n = false → reads 2 s none) ∧
      (¬waits → s.hbmAt (v.winBase + off) n = true → window.find? s.failedAt = none → reads 2 s (some (cellsRead s.mem (v.winBase + off) n))) ∧
      (∀ l, ¬waits → s.hbmAt (v.winBase + off) n = true → window.find? s.failedAt = some l → reads 2 (s.outsideError l) none) ∧
      (waits → exec (.memoryWindowRead v.id ⟨2, off⟩ n) s =
        .next { s with heldOutside := s.heldOutside ++ [.window v.id ⟨2, off⟩ n] })) ∧
    reads 0 (if off ≤ 0x2000 ∧ 0x2000 < off + n then s.setVf { v with isr := 0 } else s)
      (some ((List.range n).map fun i => v.bar0 (off + i))) ∧
    reads 6 s (some ((List.range n).map fun i => pciId false (off + i)))) ∧
  (∀ (s : State) (port off n : Nat), port < 2 → (∀ a ∈ s.heldOutside, a.agent ≠ some (port, false)) →
    exec (.memoryWindowRead port ⟨7, off⟩ n) s = .next { s with
      windowReads := s.windowReads ++ [(port, 7, some ((List.range n).map fun i => pciId true (off + i)))] }) ∧
  (∀ (s : State) (dom core pa : Nat) (op : AppOp), s.alive = true → core < 16 → appShaped op pa = true → paType pa = 0 →
    let n := (appSpan op).1
    let reads := (appSpan op).2.1
    n ≤ 65536 → s.hbmAt pa n = true →
    let ok (p : Nat) : Prop := ∃ g, s.grants.find? (fun g => g.domain == dom && g.piece == p) = some g ∧
      (reads = true → (s.grantSet g).subset (s.domainTenants dom) = true)
    let does (t : State) : Prop := exec (.chipletDeviceAccess dom core pa op) s = .next t
    let held : State := { s with heldOutside := s.heldOutside ++ [.device dom core pa op] }
    ((∃ a ∈ s.heldOutside, a.agent = some (core, true)) → does held) ∧
    ((∀ a ∈ s.heldOutside, a.agent ≠ some (core, true)) →
      (ok (pa / 65536) → ok ((pa + n - 1) / 65536) →
        (s.appHeld pa op = false → does (s.appPerform core pa op)) ∧ (s.appHeld pa op = true → does held)) ∧
      (¬ok (pa / 65536) → does (if reads = true then s.refuseRead core (pa / 65536) else s)))) ∧
  (∀ (s t : State) (ctx va dom : Nat) (q : Part), q.type = 0 →
    s.svcPiece ctx ⟨false, false, false, false⟩ (va / 65536 * 65536) 1 = .ok (t, q) →
    let g : Grant := ⟨q.loc.addr / 65536, dom, ctx, va / 65536 * 65536, q.sets.headD 0⟩
    exec (.devicePageGrant ctx va dom) s =
      .next { t with grants := g :: t.grants.filter fun x => !(x.piece == g.piece && x.domain == dom) }) ∧
  (∀ (s : State) (core pa : Nat), s.alive = true → core < 16 →
    (∀ op, appShaped op pa = true → paType pa = 1 → paType (pa + (appSpan op).1 - 1) = 1 →
      let does (t : State) : Prop := exec (.applicationCoreAccess core pa op) s = .next t
      let held : State := { s with heldOutside := s.heldOutside ++ [.app core pa op] }
      ((∃ a ∈ s.heldOutside, a.agent = some (core, true)) → does held) ∧
      ((∀ a ∈ s.heldOutside, a.agent ≠ some (core, true)) →
        (s.appHeld pa op = false → does (s.appPerform core pa op)) ∧ (s.appHeld pa op = true → does held))) ∧
    (∀ pred succ, exec (.applicationCoreAccess core pa (.fence pred succ)) s = .next s) ∧
    ∀ token on, exec (.applicationCoreAccess core pa (.schedule token on)) s = .next { s with uints := s.uints.map fun u =>
      if u.kind = 0 ∧ u.who = token then
        { u with core := (if on = true then some core else if u.core = some core then none else u.core) }
      else u }) ∧
  ∀ (s : State) (core pa n : Nat) (aq rl : Bool),
    let seen (t : State) (bs : List Byte) : State := { t with coreRead := t.coreRead ++ [(core, some bs)] }
    let old := cellsRead s.mem pa n
    let others := s.reserves.filter (·.core != core)
    let put (bs : List Byte) : State :=
      let t := s.pokes (locG pa) bs
      { t with reserves := s.reserves.map fun r => if r.core = core ∧ s.stands r = true then { r with moment := t.past.length } else r }
    (∀ r, s.stands r = true ↔ ∀ w ∈ s.past.take (s.past.length - r.moment), w.1 < r.pa ∨ r.pa + r.n ≤ w.1) ∧
    (s.failedIn pa n = none →
      s.appPerform core pa (.load n) = seen s old ∧
      (∀ op (x : BitVec 64), s.appPerform core pa (.amo op n x aq rl) = seen (put
        (bytesLE n (amoNew op (8 * n) (ofBytesLE old) (x.toNat % 2 ^ (8 * n))))) old) ∧
      (∀ e x : BitVec 128, s.appPerform core pa (.amocas n e x aq rl) =
        seen (if ofBytesLE old = e.toNat % 2 ^ (8 * n) then put (bytesLE n x.toNat) else s) old) ∧
      s.appPerform core pa (.lr n aq rl) = seen { s with reserves := ⟨core, pa, n, s.past.length⟩ :: others } old) ∧
    (∀ op l, (appSpan op).2.1 = true → s.failedIn pa (appSpan op).1 = some l →
      s.appPerform core pa op = { s.outsideError l with coreRead := s.coreRead ++ [(core, none)] }) ∧
    (∀ bs, s.appPerform core pa (.store bs) = put bs) ∧
    ∀ bs, ∃ b : Bool, (b = true → ∃ r ∈ s.reserves, r.core = core ∧ r.pa = pa ∧ r.n = bs.length ∧ s.stands r = true) ∧
      let t : State := { s with reserves := others, free := s.free + 1 }
      s.appPerform core pa (.sc bs aq rl) = seen (if b = true then t.pokes (locG pa) bs else t) [if b = true then 0 else 1]

/-! ## Management, power and the test port -/

/-- R340, R346, R374, R406, R410, R431, R433, R437 to R440: the management commands on an idle path, each with its effect and its
response, a DRAIN's when its target is QUIESCED; a command that finds its mailbox busy is discarded; a host's writes to BAR4, of
which one that sets the doorbell runs the command, and the two moves of the window's refresh. That Finwesin's own requests are
unanswered, that commands are served in the order in which they come while a DRAIN waits, that a command with another length is
invalid, how a failed register ends a DBG-READ, and what it returns of a stack slot with no entry are the model's choices (logs 20, 35
and 36). -/
def Obligations.ManagementComplete : Prop :=
  ∀ (s : State) (tag : Ticket),
    (∀ (i : Ticket → Instr) (a b : BitVec 8) (n m : Nat) (bs : List Byte) (c : BitVec 32) (d : DbgItem),
      i ∈ [.drain a b, .resume a b, .releaseHold n, .attach n, .detach n, .policy n m bs, .attest bs n m, .cap n, .dbgEvent,
        .dbgRead d, .dbgWrite d bs, .dbgResume d, .invalidCommand c n] → tag.path < 3 →
      s.busy tag = true → exec (i tag) s = .next s) ∧
    (∀ (t : State) (x : Ticket × Nat), t.serving = [x] → t.finishDrain =
      if t.quiesced x.2 = true then State.answerMgmt { t with serving := [] } x.1 0 [] 0 else t) ∧
    (∀ (t : State) (status : BitVec 16) (res : List Byte) (total : Nat),
      (∀ m, tag.path < 2 → t.mailboxes[tag.path]? = some m →
        (t.answerMgmt tag status res total).mailboxes[tag.path]? = some { m with
          doorbell := false, status := status, rlen := res.length, rtotal := total, rtag := tag.tag,
          data := res ++ m.data.drop res.length }) ∧
      (tag.path = 2 → (t.answerMgmt tag status res total).sideband = t.sideband ++
        [bytesLE 2 status.toNat ++ bytesLE 2 0 ++ bytesLE 4 res.length ++ bytesLE 4 total ++ bytesLE 8 tag.tag.toNat ++ res])) ∧
    (s.busy tag = false →
      let ring (cmd len : Nat) (opd : List Byte) : State := if 3 ≤ tag.path then s else s.ring tag cmd len opd
      let done (i : Ticket → Instr) (f : State → State) (cmd len : Nat) (opd : List Byte) (status : BitVec 16) (res : List Byte)
        (total : Nat) : Prop := exec (i tag) s = .next ((f (ring cmd len opd)).answerMgmt tag status res total)
      (∀ part flags, s.targetOk part.toNat = true → flags.toNat < 2 →
        let u := ring 1 2 [part, flags]
        exec (.drain part flags tag) s = .next ((if 3 ≤ tag.path then u else { u with serving := u.serving ++ [(tag, part.toNat)] }).drainReq
          part.toNat (flags == 1)).finishDrain) ∧
      (∀ part, s.targetOk part.toNat = true → done (.resume part 0) (·.resumeReq part.toNat) 2 2 [part, 0] 0 [] 0) ∧
      (∀ (grid : Nat) (c : Context),
        s.ctxs.find? (fun c => c.finished && c.gids.contains grid && severity (c.code.getD 0) == 3) = some c →
        let free (u : State) : State :=
          let t := (u.soundRegions c.regions).setCtx { c with regions := [], gids := [] }
          { t with clusters := t.clusters.map fun x => { x with wins := x.wins.filter (·.ctx != c.id) }, tables := t.tables.filter (·.2 != c.id) }
        done (.releaseHold grid) free 3 8 (bytesLE 8 grid) 0 [] 0) ∧
      (∀ (grid : Nat) (c : Context), s.ctxOfGrid grid = some c →
        done (.attach grid) (·.setCtx { c with dbg := some tag.path }) 4 8 (bytesLE 8 grid) 0 [] 0 ∧
        done (.detach grid) (fun u => State.dbgRelease
            { (u.setCtx { c with dbg := none }) with dbgQueue := u.dbgQueue.filter (·.ctx != c.id) }
            fun k => k.ctx == c.id && k.awaits) 5 8 (bytesLE 8 grid) 0 [] 0) ∧
      (∀ (off total : Nat) (got bs : List Byte), s.policyParts.getD (total, []) = (total, got) → off = got.length →
        off + bs.length ≤ total → bs.length ≤ 3960 →
        let opd := bytesLE 4 total ++ bytesLE 4 off ++ bs
        let none' (u : State) : State := { u with policyParts := none }
        (off + bs.length < total → done (.policy total off bs) (fun u => { u with policyParts := some (total, got ++ bs) })
          6 (8 + bs.length) opd 0 [] 0) ∧
        (off + bs.length = total → 128 ≤ total →
          let body := (got ++ bs).take 128
          let sigs := (got ++ bs).drop 128
          (∀ n q, bodyField body 56 4 ≠ 0 → s.install body sigs = .ok (n, q) → done (.policy total off bs)
            (fun u => (none' u).modPart n fun p => { p with policies := p.policies ++ [q] }) 6 (8 + bs.length) opd 0 [] 0) ∧
          (∀ e : Nat × Nat, bodyField body 56 4 ≠ 0 → s.install body sigs = .error e → done (.policy total off bs)
            (fun u => { (none' u) with free := s.free + 1 }) 6 (8 + bs.length) opd 0x9801
            [BitVec.ofNat 8 e.1, BitVec.ofNat 8 e.2] 2) ∧
          ∀ n id, bodyField body 56 4 = 0 → s.revoke body sigs = .ok (n, id) → done (.policy total off bs)
            (fun u => (none' u).modPart n fun p => { p with policies := p.policies.filter (·.id != id) })
            6 (8 + bs.length) opd 0 [] 0)) ∧
      (∀ (nonce : List Byte) (part : Nat), nonce.length = 32 → part < 16 → (s.part part).used = true →
        let bs := s.attestation nonce part
        let opd (off : Nat) := nonce ++ bytesLE 4 part ++ bytesLE 4 off
        done (.attest nonce part 0) (fun u => { u with report := some (nonce, bs) }) 7 40 (opd 0) 0 (bs.take 3968) bs.length ∧
        ∀ off old, off ≠ 0 → off < old.length → s.report = some (nonce, old) →
          done (.attest nonce part off) id 7 40 (opd off) 0 ((old.drop off).take 3968) old.length) ∧
      (∀ watts, 2000 ≤ watts → watts ≤ 4200 →
        done (.cap watts) (fun u => { u with cap := BitVec.ofNat 16 watts }) 8 2 (bytesLE 2 watts) 0 [] 0) ∧
      (∀ r, s.dbgQueue.find? (fun r => s.dbgBy tag r.ctx) = some r →
        done .dbgEvent (fun u => State.modStopped { u with dbgQueue := u.dbgQueue.erase r } r fun k st =>
          { k with stop := some { st with delivered := true } }) 0x10 0 [] 0 r.bytes r.bytes.length) ∧
      (∀ (d : DbgItem) (k : Skein), s.dbgSkein tag d = some k →
        (∀ bs, s.dbgItem k d = some bs → bs.length ≤ 3968 →
          let bad := d.item = 0 ∧ ∃ r ∈ k.badRegs, r.1 = d.lane ∧ r.2 ∈ regsOf d.first d.count
          (¬bad → done (.dbgRead d) id 0x11 16 (dbgOperand d) 0 bs bs.length) ∧
          (bad → done (.dbgRead d) (·.countError k.coreId 0 6) 0x11 16 (dbgOperand d) 0xCC06 [] 0)) ∧
        (∀ bs j, s.dbgPut k d bs = some j → done (.dbgWrite d bs)
          (·.modEvery fun x => if x.grid = k.grid ∧ x.block = k.block ∧ x.num = k.num then j else x)
          0x12 (16 + bs.length) (dbgOperand d ++ bs) 0 [] 0) ∧
        done (.dbgResume d) (·.dbgRelease fun x => k.grid == x.grid && k.block == x.block && k.num == x.num) 0x13 11
          (bytesLE 8 d.grid ++ bytesLE 2 d.core ++ bytesLE 1 d.slot) 0 [] 0) ∧
      ∀ (cmd : BitVec 32) (len : Nat), done (.invalidCommand cmd len) id cmd.toNat len []
        (if cmd.toNat ∉ [1, 2, 3, 4, 5, 6, 7, 8, 0x10, 0x11, 0x12, 0x13] ∨ 3968 < len then 0x9800 else 0x9801) [] 0) ∧
    (∀ port off data m, s.mailboxes[port]? = some m →
      (m.doorbell = true ∨ off < 0x10000 ∨ 0x11000 ≤ off → exec (.discardedWrite ⟨port, off⟩ data) s = .next s) ∧
      (m.doorbell = false → 0x10000 ≤ off → off < 0x11000 →
        let w := m.write (off - 0x10000) data
        let t : State := { s with mailboxes := s.mailboxes.set port { w.1 with doorbell := w.2 } }
        let i := ({ w.1 with doorbell := w.2 } : Mailbox).command ⟨port, w.1.tag, true⟩
        (w.2 = true → exec (.discardedWrite ⟨port, off⟩ data) s = exec i t) ∧
        (w.2 = false → exec (.discardedWrite ⟨port, off⟩ data) s = .next t))) ∧
    (s.gen.getLsbD 0 = false → exec .inventoryRefresh s = .next { s with
      gen := s.gen + 1, window := s.window.take 8 ++ bytesLE 8 (s.gen + 1).toNat ++ s.window.drop 16 }) ∧
    (s.gen.getLsbD 0 = true → ∃ t : State, exec .inventoryRefresh s = .next t ∧
      t = { s with gen := s.gen + 1, window := t.window, free := t.free, inlet := t.inlet, flow := t.flow, power := t.power,
                   dieSt := t.dieSt } ∧
      (t.window.drop 4).take 12 = bytesLE 2 1 ++ bytesLE 2 s.modSt.code ++ bytesLE 8 (s.gen + 1).toNat)

/-- R375, R386, R430, R432, R347: a boot that brings everything up, and those that fail; the power cap, the two
temperatures and the return inside the limits; a failed seam that cuts no die off and a stack gone offline; FREEZE and
the instructions of the test port. At boot every image, and the token of debug mode, verifies with its 3,309 signature bytes or the module
does not start. Which dies a route reaches when the seams divide them, what the sensors read, what a reset clears and keeps, that a
failure at run time makes the module DEGRADED, what the signature is over, and what a context needs of Finwesin's own memory are the
model's choices (logs 15, 16, 30 and 37). -/
def Obligations.ModuleEventsComplete : Prop :=
  ∀ (s : State),
    (∀ cfg, ∃ t : State, exec (.moduleReset cfg) s = .next t ∧ t.skeins = [] ∧ t.blocks = [] ∧ t.grids = [] ∧ t.files = s.files ∧
      let good (x : Signed) : Prop := x.signature.length = 3309 ∧ Config.verifies Config.fuseKey (shake256 x.bytes) x.signature = true
      (∀ pre x post, cfg.images = pre ++ x :: post → (∀ y ∈ pre, good y) → ¬good x →
        t.modSt = .failed ∧ t.mem = [] ∧ t.failedImage = some pre.length ∧ t.debugMode = false ∧ ∀ c ∈ t.clusters, c.online = false) ∧
      ((∀ x ∈ cfg.images, good x) → t.failedImage = none ∧
        t.images = cfg.images.map (fun x => (shake256 x.bytes).extractLsb' 0 256) ∧
        let whole := cfg.stacksUp = BitVec.allOnes 24 ∧ cfg.diesUp = BitVec.allOnes 24 ∧ bootPartitionsOk cfg = true
        (¬whole → t.modSt = .failed) ∧
        (cfg.stacksUp = BitVec.allOnes 24 → cfg.diesUp = BitVec.allOnes 24 → ∀ n, n < 192 →
          ((t.cluster n).online = true ↔ n ∉ cfg.offlineClusters ∧ n / 8 ∈ reached cfg.seamsUp)) ∧
        (whole → t.modSt = (if cfg.seamsUp = BitVec.allOnes 38 ∧ cfg.offlineClusters = [] ∧ cfg.portsFailed = [] ∧
              cfg.ethFailed = [] ∧ cfg.nvmeFailed = [] then .up else .degraded) ∧
          (t.debugMode = true ↔ ∃ x, cfg.debugToken = some x ∧ good x) ∧
          t.ctxs.length ≤ cfg.contexts.length ∧ t.vfs.length ≤ 64 ∧
          (cfg.own ≠ [] → cfg.seamsUp = BitVec.allOnes 38 → cfg.contexts.length ≤ 16384 →
            (∀ c ∈ cfg.contexts, c.vf = none ∧ c.shared = []) → t.ctxs.length = cfg.contexts.length) ∧
          ∀ c ∈ t.ctxs, c.readMask.getLsbD c.tenant = true ∨ 16 ≤ c.tenant))) ∧
    (∀ watts, s.cap.toNat < watts → exec (.powerCapExceeded watts) s =
      .next { s with power := BitVec.ofNat 16 watts, gated := true }) ∧
    (∀ die temp, 950 ≤ temp → exec (.thermalThrottle die temp) s =
      .next { (s.modDie die fun d => { d with temp := temp }) with gated := true }) ∧
    (∀ die temp, 1100 ≤ temp → ∃ t : State, exec (.thermalShutdown die temp) s = .next t ∧
      t = { (s.modDie die fun d => { d with temp := temp }) with stopped := true, modSt := .thermal, vfs := t.vfs, agenda := t.agenda } ∧
      t.vfs = (s.vfs.map fun v => ({ v with status := v.status ||| 64 } : VF).configChange) ∧ .inventoryRefresh ∈ t.agenda) ∧
    (∃ t : State, exec .backInsideLimits s = .next t ∧ t = { s with
        gated := false, free := t.free, power := t.power, dieSt := t.dieSt, inlet := t.inlet, flow := t.flow } ∧
      (s.stopped = false → t.power.toNat ≤ s.cap.toNat ∧ ∀ d ∈ t.dieSt, d.temp < 950)) ∧
    (∀ seam inFlight, let up := s.seamsUp &&& ~~~(1#38 <<< seam)
      (∀ d, d < 24 → s.diesUp.getLsbD d = true → d ∈ reached up) →
      exec (.seamFailure seam inFlight) s = .next (State.endAll (State.degrade { s with seamsUp := up }) inFlight 0x5301)) ∧
    (∀ stack, let t := State.degrade { s with stacksUp := s.stacksUp &&& ~~~(1#24 <<< stack) }
      exec (.hbmStackOffline stack) s =
        .next (t.endAll ((s.ctxs.filter fun c => s.memoryOn c stack).map (·.id)) 0x5302)) ∧
    (s.debugMode = true → exec .freezeAssert s = .next { s with frozen := true }) ∧
    (s.debugMode = false → exec .freezeAssert s = .next s) ∧
    (s.frozen = true → s.shifted = false → exec (.freezeRelease false) s = .next { s with frozen := false }) ∧
    (s.frozen = true → s.shifted = true → exec (.freezeRelease false) s = .next s) ∧
    (s.frozen = true → exec (.freezeRelease true) s =
      .next { State.reset with files := s.files, hostTime := s.hostTime, free := s.free }) ∧
    (∀ chain, exec (.scansel chain) s = .next { s with tapInstr := 0x20, chain := chain }) ∧
    (s.frozen = true → ∃ bits, exec .scanout s = .next { s with
      tapInstr := 0x21, shifted := true, free := s.free + 1, scanned := s.scanned ++ [bits] }) ∧
    (∃ id, exec .idcode s = .next { s with tapInstr := 0x01, scanned := s.scanned ++ [id] }) ∧
    exec .bypass s = .next { s with tapInstr := 0xFF }

end
end

