-- ==== Sys2Proof/Laws/Frames.lean ====
section
/-! SUPPORT. What the search for frames of Finwesin's own answers (R131, R186, R194, R386, R398). -/

namespace Sys2Proof.Machine

/-- A frame that is found lies in one of the ranges, is in no use, exists and is on working stacks. -/
theorem freeFrame_spec {l : Nat} {up : BitVec 24} {gibs used : List Nat} {f : Nat} (h : freeFrame l up gibs used = some f) :
    f / gibFrames ∈ gibs ∧ f ∉ used ∧ paExists l (f * 65536) = true ∧ frameUp up f = true := by
  have := List.find?_some h
  simpa [and_assoc] using this

/-- Frames that are found are as many as were asked for, all different, and each as one alone would be. -/
theorem freeFrameList_spec {l : Nat} {up : BitVec 24} {gibs : List Nat} :
    ∀ {n : Nat} {used fs : List Nat}, freeFrameList l up gibs used n = some fs →
      fs.length = n ∧ fs.Nodup ∧ ∀ f ∈ fs, f / gibFrames ∈ gibs ∧ f ∉ used ∧ paExists l (f * 65536) = true ∧ frameUp up f = true
  | 0, _, _, h => by cases h; simp
  | n + 1, used, fs, h => by
    unfold freeFrameList at h
    split at h
    · cases h
    · rename_i f hf
      obtain ⟨gs, hg, rfl⟩ := Option.map_eq_some_iff.mp h
      obtain ⟨e, d, a⟩ := freeFrameList_spec hg
      refine ⟨by simp [e], List.nodup_cons.mpr ⟨fun m => (a f m).2.1 (by simp), d⟩, ?_⟩
      intro x hx
      rcases List.mem_cons.mp hx with rfl | hx
      · exact freeFrame_spec hf
      · obtain ⟨p, q, r⟩ := a x hx
        exact ⟨p, fun m => q (by simp [m]), r⟩

/-- A frame of Finwesin's own is none that it has taken already or uses. -/
theorem ownFrame_spec {s : State} {taken : List Nat} {f : Nat} (h : s.ownFrame taken = some f) :
    f / gibFrames ∈ s.own ∧ f ∉ taken ∧ f ∉ s.ownUsed ∧ paExists s.localGiB (f * 65536) = true ∧ frameUp s.hbmUp f = true := by
  obtain ⟨a, b, c, d⟩ := freeFrame_spec h
  exact ⟨a, fun m => b (by simp [m]), fun m => b (by simp [m]), c, d⟩

end Sys2Proof.Machine
end

