-- ==== Sys2Proof/Laws/State.lean ====
section
/-! SUPPORT. What each change of one keyed part leaves of the state, field by field. -/

namespace Sys2Proof.Machine

@[simp] theorem setSkein_mem (s : State) (k : Skein) : (s.setSkein k).mem = s.mem := rfl
@[simp] theorem setSkein_past (s : State) (k : Skein) : (s.setSkein k).past = s.past := rfl
@[simp] theorem setSkein_localGiB (s : State) (k : Skein) : (s.setSkein k).localGiB = s.localGiB := rfl
@[simp] theorem setSkein_modSt (s : State) (k : Skein) : (s.setSkein k).modSt = s.modSt := rfl
@[simp] theorem setSkein_run (s : State) (k : Skein) : (s.setSkein k).run = s.run := rfl
@[simp] theorem setSkein_runCut (s : State) (k : Skein) : (s.setSkein k).runCut = s.runCut := rfl
@[simp] theorem setSkein_power (s : State) (k : Skein) : (s.setSkein k).power = s.power := rfl
@[simp] theorem setSkein_cap (s : State) (k : Skein) : (s.setSkein k).cap = s.cap := rfl
@[simp] theorem setSkein_inlet (s : State) (k : Skein) : (s.setSkein k).inlet = s.inlet := rfl
@[simp] theorem setSkein_flow (s : State) (k : Skein) : (s.setSkein k).flow = s.flow := rfl
@[simp] theorem setSkein_gen (s : State) (k : Skein) : (s.setSkein k).gen = s.gen := rfl
@[simp] theorem setSkein_diesUp (s : State) (k : Skein) : (s.setSkein k).diesUp = s.diesUp := rfl
@[simp] theorem setSkein_stacksUp (s : State) (k : Skein) : (s.setSkein k).stacksUp = s.stacksUp := rfl
@[simp] theorem setSkein_seamsUp (s : State) (k : Skein) : (s.setSkein k).seamsUp = s.seamsUp := rfl
@[simp] theorem setSkein_log (s : State) (k : Skein) : (s.setSkein k).log = s.log := rfl
@[simp] theorem setSkein_loghead (s : State) (k : Skein) : (s.setSkein k).loghead = s.loghead := rfl
@[simp] theorem setSkein_window (s : State) (k : Skein) : (s.setSkein k).window = s.window := rfl
@[simp] theorem setSkein_mailboxes (s : State) (k : Skein) : (s.setSkein k).mailboxes = s.mailboxes := rfl
@[simp] theorem setSkein_serving (s : State) (k : Skein) : (s.setSkein k).serving = s.serving := rfl
@[simp] theorem setSkein_sideband (s : State) (k : Skein) : (s.setSkein k).sideband = s.sideband := rfl
@[simp] theorem setSkein_policyParts (s : State) (k : Skein) : (s.setSkein k).policyParts = s.policyParts := rfl
@[simp] theorem setSkein_report (s : State) (k : Skein) : (s.setSkein k).report = s.report := rfl
@[simp] theorem setSkein_dbgQueue (s : State) (k : Skein) : (s.setSkein k).dbgQueue = s.dbgQueue := rfl
@[simp] theorem setSkein_debugMode (s : State) (k : Skein) : (s.setSkein k).debugMode = s.debugMode := rfl
@[simp] theorem setSkein_frozen (s : State) (k : Skein) : (s.setSkein k).frozen = s.frozen := rfl
@[simp] theorem setSkein_shifted (s : State) (k : Skein) : (s.setSkein k).shifted = s.shifted := rfl
@[simp] theorem setSkein_chain (s : State) (k : Skein) : (s.setSkein k).chain = s.chain := rfl
@[simp] theorem setSkein_scanned (s : State) (k : Skein) : (s.setSkein k).scanned = s.scanned := rfl
@[simp] theorem setSkein_tapInstr (s : State) (k : Skein) : (s.setSkein k).tapInstr = s.tapInstr := rfl
@[simp] theorem setSkein_gated (s : State) (k : Skein) : (s.setSkein k).gated = s.gated := rfl
@[simp] theorem setSkein_stopped (s : State) (k : Skein) : (s.setSkein k).stopped = s.stopped := rfl
@[simp] theorem setSkein_ticks (s : State) (k : Skein) : (s.setSkein k).ticks = s.ticks := rfl
@[simp] theorem setSkein_issueTicks (s : State) (k : Skein) : (s.setSkein k).issueTicks = s.issueTicks := rfl
@[simp] theorem setSkein_frozenTicks (s : State) (k : Skein) : (s.setSkein k).frozenTicks = s.frozenTicks := rfl
@[simp] theorem setSkein_hostTime (s : State) (k : Skein) : (s.setSkein k).hostTime = s.hostTime := rfl
@[simp] theorem setSkein_clusters (s : State) (k : Skein) : (s.setSkein k).clusters = s.clusters := rfl
@[simp] theorem setSkein_cores (s : State) (k : Skein) : (s.setSkein k).cores = s.cores := rfl
@[simp] theorem setSkein_dieSt (s : State) (k : Skein) : (s.setSkein k).dieSt = s.dieSt := rfl
@[simp] theorem setSkein_parts (s : State) (k : Skein) : (s.setSkein k).parts = s.parts := rfl
@[simp] theorem setSkein_ctxs (s : State) (k : Skein) : (s.setSkein k).ctxs = s.ctxs := rfl
@[simp] theorem setSkein_grids (s : State) (k : Skein) : (s.setSkein k).grids = s.grids := rfl
@[simp] theorem setSkein_blocks (s : State) (k : Skein) : (s.setSkein k).blocks = s.blocks := rfl
@[simp] theorem setSkein_vfs (s : State) (k : Skein) : (s.setSkein k).vfs = s.vfs := rfl
@[simp] theorem setSkein_files (s : State) (k : Skein) : (s.setSkein k).files = s.files := rfl
@[simp] theorem setSkein_nvme (s : State) (k : Skein) : (s.setSkein k).nvme = s.nvme := rfl
@[simp] theorem setSkein_quarantined (s : State) (k : Skein) : (s.setSkein k).quarantined = s.quarantined := rfl
@[simp] theorem setSkein_groups (s : State) (k : Skein) : (s.setSkein k).groups = s.groups := rfl
@[simp] theorem setSkein_uints (s : State) (k : Skein) : (s.setSkein k).uints = s.uints := rfl
@[simp] theorem setSkein_grants (s : State) (k : Skein) : (s.setSkein k).grants = s.grants := rfl
@[simp] theorem setSkein_failedUnits (s : State) (k : Skein) : (s.setSkein k).failedUnits = s.failedUnits := rfl
@[simp] theorem setSkein_egressed (s : State) (k : Skein) : (s.setSkein k).egressed = s.egressed := rfl
@[simp] theorem setSkein_errorLog (s : State) (k : Skein) : (s.setSkein k).errorLog = s.errorLog := rfl
@[simp] theorem setSkein_coreRead (s : State) (k : Skein) : (s.setSkein k).coreRead = s.coreRead := rfl
@[simp] theorem setSkein_reserves (s : State) (k : Skein) : (s.setSkein k).reserves = s.reserves := rfl
@[simp] theorem setSkein_appInts (s : State) (k : Skein) : (s.setSkein k).appInts = s.appInts := rfl
@[simp] theorem setSkein_hem (s : State) (k : Skein) : (s.setSkein k).hem = s.hem := rfl
@[simp] theorem setSkein_inbound (s : State) (k : Skein) : (s.setSkein k).inbound = s.inbound := rfl
@[simp] theorem setSkein_posted (s : State) (k : Skein) : (s.setSkein k).posted = s.posted := rfl
@[simp] theorem setSkein_heldOutside (s : State) (k : Skein) : (s.setSkein k).heldOutside = s.heldOutside := rfl
@[simp] theorem setSkein_windowReads (s : State) (k : Skein) : (s.setSkein k).windowReads = s.windowReads := rfl
@[simp] theorem setSkein_ioPages (s : State) (k : Skein) : (s.setSkein k).ioPages = s.ioPages := rfl
@[simp] theorem setSkein_nextId (s : State) (k : Skein) : (s.setSkein k).nextId = s.nextId := rfl
@[simp] theorem setSkein_own (s : State) (k : Skein) : (s.setSkein k).own = s.own := rfl
@[simp] theorem setSkein_tables (s : State) (k : Skein) : (s.setSkein k).tables = s.tables := rfl
@[simp] theorem setSkein_bootImagesOk (s : State) (k : Skein) : (s.setSkein k).bootImagesOk = s.bootImagesOk := rfl
@[simp] theorem setSkein_images (s : State) (k : Skein) : (s.setSkein k).images = s.images := rfl
@[simp] theorem setSkein_failedImage (s : State) (k : Skein) : (s.setSkein k).failedImage = s.failedImage := rfl
@[simp] theorem setSkein_agenda (s : State) (k : Skein) : (s.setSkein k).agenda = s.agenda := rfl
@[simp] theorem setSkein_turn (s : State) (k : Skein) : (s.setSkein k).turn = s.turn := rfl
@[simp] theorem setSkein_issuing (s : State) (k : Skein) : (s.setSkein k).issuing = s.issuing := rfl
@[simp] theorem setSkein_free (s : State) (k : Skein) : (s.setSkein k).free = s.free := rfl

@[simp] theorem setCtx_mem (s : State) (c : Context) : (s.setCtx c).mem = s.mem := rfl
@[simp] theorem setCtx_past (s : State) (c : Context) : (s.setCtx c).past = s.past := rfl
@[simp] theorem setCtx_localGiB (s : State) (c : Context) : (s.setCtx c).localGiB = s.localGiB := rfl
@[simp] theorem setCtx_modSt (s : State) (c : Context) : (s.setCtx c).modSt = s.modSt := rfl
@[simp] theorem setCtx_run (s : State) (c : Context) : (s.setCtx c).run = s.run := rfl
@[simp] theorem setCtx_runCut (s : State) (c : Context) : (s.setCtx c).runCut = s.runCut := rfl
@[simp] theorem setCtx_power (s : State) (c : Context) : (s.setCtx c).power = s.power := rfl
@[simp] theorem setCtx_cap (s : State) (c : Context) : (s.setCtx c).cap = s.cap := rfl
@[simp] theorem setCtx_inlet (s : State) (c : Context) : (s.setCtx c).inlet = s.inlet := rfl
@[simp] theorem setCtx_flow (s : State) (c : Context) : (s.setCtx c).flow = s.flow := rfl
@[simp] theorem setCtx_gen (s : State) (c : Context) : (s.setCtx c).gen = s.gen := rfl
@[simp] theorem setCtx_diesUp (s : State) (c : Context) : (s.setCtx c).diesUp = s.diesUp := rfl
@[simp] theorem setCtx_stacksUp (s : State) (c : Context) : (s.setCtx c).stacksUp = s.stacksUp := rfl
@[simp] theorem setCtx_seamsUp (s : State) (c : Context) : (s.setCtx c).seamsUp = s.seamsUp := rfl
@[simp] theorem setCtx_log (s : State) (c : Context) : (s.setCtx c).log = s.log := rfl
@[simp] theorem setCtx_loghead (s : State) (c : Context) : (s.setCtx c).loghead = s.loghead := rfl
@[simp] theorem setCtx_window (s : State) (c : Context) : (s.setCtx c).window = s.window := rfl
@[simp] theorem setCtx_mailboxes (s : State) (c : Context) : (s.setCtx c).mailboxes = s.mailboxes := rfl
@[simp] theorem setCtx_serving (s : State) (c : Context) : (s.setCtx c).serving = s.serving := rfl
@[simp] theorem setCtx_sideband (s : State) (c : Context) : (s.setCtx c).sideband = s.sideband := rfl
@[simp] theorem setCtx_policyParts (s : State) (c : Context) : (s.setCtx c).policyParts = s.policyParts := rfl
@[simp] theorem setCtx_report (s : State) (c : Context) : (s.setCtx c).report = s.report := rfl
@[simp] theorem setCtx_dbgQueue (s : State) (c : Context) : (s.setCtx c).dbgQueue = s.dbgQueue := rfl
@[simp] theorem setCtx_debugMode (s : State) (c : Context) : (s.setCtx c).debugMode = s.debugMode := rfl
@[simp] theorem setCtx_frozen (s : State) (c : Context) : (s.setCtx c).frozen = s.frozen := rfl
@[simp] theorem setCtx_shifted (s : State) (c : Context) : (s.setCtx c).shifted = s.shifted := rfl
@[simp] theorem setCtx_chain (s : State) (c : Context) : (s.setCtx c).chain = s.chain := rfl
@[simp] theorem setCtx_scanned (s : State) (c : Context) : (s.setCtx c).scanned = s.scanned := rfl
@[simp] theorem setCtx_tapInstr (s : State) (c : Context) : (s.setCtx c).tapInstr = s.tapInstr := rfl
@[simp] theorem setCtx_gated (s : State) (c : Context) : (s.setCtx c).gated = s.gated := rfl
@[simp] theorem setCtx_stopped (s : State) (c : Context) : (s.setCtx c).stopped = s.stopped := rfl
@[simp] theorem setCtx_ticks (s : State) (c : Context) : (s.setCtx c).ticks = s.ticks := rfl
@[simp] theorem setCtx_issueTicks (s : State) (c : Context) : (s.setCtx c).issueTicks = s.issueTicks := rfl
@[simp] theorem setCtx_frozenTicks (s : State) (c : Context) : (s.setCtx c).frozenTicks = s.frozenTicks := rfl
@[simp] theorem setCtx_hostTime (s : State) (c : Context) : (s.setCtx c).hostTime = s.hostTime := rfl
@[simp] theorem setCtx_clusters (s : State) (c : Context) : (s.setCtx c).clusters = s.clusters := rfl
@[simp] theorem setCtx_cores (s : State) (c : Context) : (s.setCtx c).cores = s.cores := rfl
@[simp] theorem setCtx_dieSt (s : State) (c : Context) : (s.setCtx c).dieSt = s.dieSt := rfl
@[simp] theorem setCtx_parts (s : State) (c : Context) : (s.setCtx c).parts = s.parts := rfl
@[simp] theorem setCtx_grids (s : State) (c : Context) : (s.setCtx c).grids = s.grids := rfl
@[simp] theorem setCtx_blocks (s : State) (c : Context) : (s.setCtx c).blocks = s.blocks := rfl
@[simp] theorem setCtx_skeins (s : State) (c : Context) : (s.setCtx c).skeins = s.skeins := rfl
@[simp] theorem setCtx_vfs (s : State) (c : Context) : (s.setCtx c).vfs = s.vfs := rfl
@[simp] theorem setCtx_files (s : State) (c : Context) : (s.setCtx c).files = s.files := rfl
@[simp] theorem setCtx_nvme (s : State) (c : Context) : (s.setCtx c).nvme = s.nvme := rfl
@[simp] theorem setCtx_quarantined (s : State) (c : Context) : (s.setCtx c).quarantined = s.quarantined := rfl
@[simp] theorem setCtx_groups (s : State) (c : Context) : (s.setCtx c).groups = s.groups := rfl
@[simp] theorem setCtx_uints (s : State) (c : Context) : (s.setCtx c).uints = s.uints := rfl
@[simp] theorem setCtx_grants (s : State) (c : Context) : (s.setCtx c).grants = s.grants := rfl
@[simp] theorem setCtx_failedUnits (s : State) (c : Context) : (s.setCtx c).failedUnits = s.failedUnits := rfl
@[simp] theorem setCtx_egressed (s : State) (c : Context) : (s.setCtx c).egressed = s.egressed := rfl
@[simp] theorem setCtx_errorLog (s : State) (c : Context) : (s.setCtx c).errorLog = s.errorLog := rfl
@[simp] theorem setCtx_coreRead (s : State) (c : Context) : (s.setCtx c).coreRead = s.coreRead := rfl
@[simp] theorem setCtx_reserves (s : State) (c : Context) : (s.setCtx c).reserves = s.reserves := rfl
@[simp] theorem setCtx_appInts (s : State) (c : Context) : (s.setCtx c).appInts = s.appInts := rfl
@[simp] theorem setCtx_hem (s : State) (c : Context) : (s.setCtx c).hem = s.hem := rfl
@[simp] theorem setCtx_inbound (s : State) (c : Context) : (s.setCtx c).inbound = s.inbound := rfl
@[simp] theorem setCtx_posted (s : State) (c : Context) : (s.setCtx c).posted = s.posted := rfl
@[simp] theorem setCtx_heldOutside (s : State) (c : Context) : (s.setCtx c).heldOutside = s.heldOutside := rfl
@[simp] theorem setCtx_windowReads (s : State) (c : Context) : (s.setCtx c).windowReads = s.windowReads := rfl
@[simp] theorem setCtx_ioPages (s : State) (c : Context) : (s.setCtx c).ioPages = s.ioPages := rfl
@[simp] theorem setCtx_nextId (s : State) (c : Context) : (s.setCtx c).nextId = s.nextId := rfl
@[simp] theorem setCtx_own (s : State) (c : Context) : (s.setCtx c).own = s.own := rfl
@[simp] theorem setCtx_tables (s : State) (c : Context) : (s.setCtx c).tables = s.tables := rfl
@[simp] theorem setCtx_bootImagesOk (s : State) (c : Context) : (s.setCtx c).bootImagesOk = s.bootImagesOk := rfl
@[simp] theorem setCtx_images (s : State) (c : Context) : (s.setCtx c).images = s.images := rfl
@[simp] theorem setCtx_failedImage (s : State) (c : Context) : (s.setCtx c).failedImage = s.failedImage := rfl
@[simp] theorem setCtx_agenda (s : State) (c : Context) : (s.setCtx c).agenda = s.agenda := rfl
@[simp] theorem setCtx_turn (s : State) (c : Context) : (s.setCtx c).turn = s.turn := rfl
@[simp] theorem setCtx_issuing (s : State) (c : Context) : (s.setCtx c).issuing = s.issuing := rfl
@[simp] theorem setCtx_free (s : State) (c : Context) : (s.setCtx c).free = s.free := rfl

@[simp] theorem setGrid_mem (s : State) (g : Grid) : (s.setGrid g).mem = s.mem := rfl
@[simp] theorem setGrid_past (s : State) (g : Grid) : (s.setGrid g).past = s.past := rfl
@[simp] theorem setGrid_localGiB (s : State) (g : Grid) : (s.setGrid g).localGiB = s.localGiB := rfl
@[simp] theorem setGrid_modSt (s : State) (g : Grid) : (s.setGrid g).modSt = s.modSt := rfl
@[simp] theorem setGrid_run (s : State) (g : Grid) : (s.setGrid g).run = s.run := rfl
@[simp] theorem setGrid_runCut (s : State) (g : Grid) : (s.setGrid g).runCut = s.runCut := rfl
@[simp] theorem setGrid_power (s : State) (g : Grid) : (s.setGrid g).power = s.power := rfl
@[simp] theorem setGrid_cap (s : State) (g : Grid) : (s.setGrid g).cap = s.cap := rfl
@[simp] theorem setGrid_inlet (s : State) (g : Grid) : (s.setGrid g).inlet = s.inlet := rfl
@[simp] theorem setGrid_flow (s : State) (g : Grid) : (s.setGrid g).flow = s.flow := rfl
@[simp] theorem setGrid_gen (s : State) (g : Grid) : (s.setGrid g).gen = s.gen := rfl
@[simp] theorem setGrid_diesUp (s : State) (g : Grid) : (s.setGrid g).diesUp = s.diesUp := rfl
@[simp] theorem setGrid_stacksUp (s : State) (g : Grid) : (s.setGrid g).stacksUp = s.stacksUp := rfl
@[simp] theorem setGrid_seamsUp (s : State) (g : Grid) : (s.setGrid g).seamsUp = s.seamsUp := rfl
@[simp] theorem setGrid_log (s : State) (g : Grid) : (s.setGrid g).log = s.log := rfl
@[simp] theorem setGrid_loghead (s : State) (g : Grid) : (s.setGrid g).loghead = s.loghead := rfl
@[simp] theorem setGrid_window (s : State) (g : Grid) : (s.setGrid g).window = s.window := rfl
@[simp] theorem setGrid_mailboxes (s : State) (g : Grid) : (s.setGrid g).mailboxes = s.mailboxes := rfl
@[simp] theorem setGrid_serving (s : State) (g : Grid) : (s.setGrid g).serving = s.serving := rfl
@[simp] theorem setGrid_sideband (s : State) (g : Grid) : (s.setGrid g).sideband = s.sideband := rfl
@[simp] theorem setGrid_policyParts (s : State) (g : Grid) : (s.setGrid g).policyParts = s.policyParts := rfl
@[simp] theorem setGrid_report (s : State) (g : Grid) : (s.setGrid g).report = s.report := rfl
@[simp] theorem setGrid_dbgQueue (s : State) (g : Grid) : (s.setGrid g).dbgQueue = s.dbgQueue := rfl
@[simp] theorem setGrid_debugMode (s : State) (g : Grid) : (s.setGrid g).debugMode = s.debugMode := rfl
@[simp] theorem setGrid_frozen (s : State) (g : Grid) : (s.setGrid g).frozen = s.frozen := rfl
@[simp] theorem setGrid_shifted (s : State) (g : Grid) : (s.setGrid g).shifted = s.shifted := rfl
@[simp] theorem setGrid_chain (s : State) (g : Grid) : (s.setGrid g).chain = s.chain := rfl
@[simp] theorem setGrid_scanned (s : State) (g : Grid) : (s.setGrid g).scanned = s.scanned := rfl
@[simp] theorem setGrid_tapInstr (s : State) (g : Grid) : (s.setGrid g).tapInstr = s.tapInstr := rfl
@[simp] theorem setGrid_gated (s : State) (g : Grid) : (s.setGrid g).gated = s.gated := rfl
@[simp] theorem setGrid_stopped (s : State) (g : Grid) : (s.setGrid g).stopped = s.stopped := rfl
@[simp] theorem setGrid_ticks (s : State) (g : Grid) : (s.setGrid g).ticks = s.ticks := rfl
@[simp] theorem setGrid_issueTicks (s : State) (g : Grid) : (s.setGrid g).issueTicks = s.issueTicks := rfl
@[simp] theorem setGrid_frozenTicks (s : State) (g : Grid) : (s.setGrid g).frozenTicks = s.frozenTicks := rfl
@[simp] theorem setGrid_hostTime (s : State) (g : Grid) : (s.setGrid g).hostTime = s.hostTime := rfl
@[simp] theorem setGrid_clusters (s : State) (g : Grid) : (s.setGrid g).clusters = s.clusters := rfl
@[simp] theorem setGrid_cores (s : State) (g : Grid) : (s.setGrid g).cores = s.cores := rfl
@[simp] theorem setGrid_dieSt (s : State) (g : Grid) : (s.setGrid g).dieSt = s.dieSt := rfl
@[simp] theorem setGrid_parts (s : State) (g : Grid) : (s.setGrid g).parts = s.parts := rfl
@[simp] theorem setGrid_ctxs (s : State) (g : Grid) : (s.setGrid g).ctxs = s.ctxs := rfl
@[simp] theorem setGrid_blocks (s : State) (g : Grid) : (s.setGrid g).blocks = s.blocks := rfl
@[simp] theorem setGrid_skeins (s : State) (g : Grid) : (s.setGrid g).skeins = s.skeins := rfl
@[simp] theorem setGrid_vfs (s : State) (g : Grid) : (s.setGrid g).vfs = s.vfs := rfl
@[simp] theorem setGrid_files (s : State) (g : Grid) : (s.setGrid g).files = s.files := rfl
@[simp] theorem setGrid_nvme (s : State) (g : Grid) : (s.setGrid g).nvme = s.nvme := rfl
@[simp] theorem setGrid_quarantined (s : State) (g : Grid) : (s.setGrid g).quarantined = s.quarantined := rfl
@[simp] theorem setGrid_groups (s : State) (g : Grid) : (s.setGrid g).groups = s.groups := rfl
@[simp] theorem setGrid_uints (s : State) (g : Grid) : (s.setGrid g).uints = s.uints := rfl
@[simp] theorem setGrid_grants (s : State) (g : Grid) : (s.setGrid g).grants = s.grants := rfl
@[simp] theorem setGrid_failedUnits (s : State) (g : Grid) : (s.setGrid g).failedUnits = s.failedUnits := rfl
@[simp] theorem setGrid_egressed (s : State) (g : Grid) : (s.setGrid g).egressed = s.egressed := rfl
@[simp] theorem setGrid_errorLog (s : State) (g : Grid) : (s.setGrid g).errorLog = s.errorLog := rfl
@[simp] theorem setGrid_coreRead (s : State) (g : Grid) : (s.setGrid g).coreRead = s.coreRead := rfl
@[simp] theorem setGrid_reserves (s : State) (g : Grid) : (s.setGrid g).reserves = s.reserves := rfl
@[simp] theorem setGrid_appInts (s : State) (g : Grid) : (s.setGrid g).appInts = s.appInts := rfl
@[simp] theorem setGrid_hem (s : State) (g : Grid) : (s.setGrid g).hem = s.hem := rfl
@[simp] theorem setGrid_inbound (s : State) (g : Grid) : (s.setGrid g).inbound = s.inbound := rfl
@[simp] theorem setGrid_posted (s : State) (g : Grid) : (s.setGrid g).posted = s.posted := rfl
@[simp] theorem setGrid_heldOutside (s : State) (g : Grid) : (s.setGrid g).heldOutside = s.heldOutside := rfl
@[simp] theorem setGrid_windowReads (s : State) (g : Grid) : (s.setGrid g).windowReads = s.windowReads := rfl
@[simp] theorem setGrid_ioPages (s : State) (g : Grid) : (s.setGrid g).ioPages = s.ioPages := rfl
@[simp] theorem setGrid_nextId (s : State) (g : Grid) : (s.setGrid g).nextId = s.nextId := rfl
@[simp] theorem setGrid_own (s : State) (g : Grid) : (s.setGrid g).own = s.own := rfl
@[simp] theorem setGrid_tables (s : State) (g : Grid) : (s.setGrid g).tables = s.tables := rfl
@[simp] theorem setGrid_bootImagesOk (s : State) (g : Grid) : (s.setGrid g).bootImagesOk = s.bootImagesOk := rfl
@[simp] theorem setGrid_images (s : State) (g : Grid) : (s.setGrid g).images = s.images := rfl
@[simp] theorem setGrid_failedImage (s : State) (g : Grid) : (s.setGrid g).failedImage = s.failedImage := rfl
@[simp] theorem setGrid_agenda (s : State) (g : Grid) : (s.setGrid g).agenda = s.agenda := rfl
@[simp] theorem setGrid_turn (s : State) (g : Grid) : (s.setGrid g).turn = s.turn := rfl
@[simp] theorem setGrid_issuing (s : State) (g : Grid) : (s.setGrid g).issuing = s.issuing := rfl
@[simp] theorem setGrid_free (s : State) (g : Grid) : (s.setGrid g).free = s.free := rfl

@[simp] theorem setBlock_mem (s : State) (b : Block) : (s.setBlock b).mem = s.mem := rfl
@[simp] theorem setBlock_past (s : State) (b : Block) : (s.setBlock b).past = s.past := rfl
@[simp] theorem setBlock_localGiB (s : State) (b : Block) : (s.setBlock b).localGiB = s.localGiB := rfl
@[simp] theorem setBlock_modSt (s : State) (b : Block) : (s.setBlock b).modSt = s.modSt := rfl
@[simp] theorem setBlock_run (s : State) (b : Block) : (s.setBlock b).run = s.run := rfl
@[simp] theorem setBlock_runCut (s : State) (b : Block) : (s.setBlock b).runCut = s.runCut := rfl
@[simp] theorem setBlock_power (s : State) (b : Block) : (s.setBlock b).power = s.power := rfl
@[simp] theorem setBlock_cap (s : State) (b : Block) : (s.setBlock b).cap = s.cap := rfl
@[simp] theorem setBlock_inlet (s : State) (b : Block) : (s.setBlock b).inlet = s.inlet := rfl
@[simp] theorem setBlock_flow (s : State) (b : Block) : (s.setBlock b).flow = s.flow := rfl
@[simp] theorem setBlock_gen (s : State) (b : Block) : (s.setBlock b).gen = s.gen := rfl
@[simp] theorem setBlock_diesUp (s : State) (b : Block) : (s.setBlock b).diesUp = s.diesUp := rfl
@[simp] theorem setBlock_stacksUp (s : State) (b : Block) : (s.setBlock b).stacksUp = s.stacksUp := rfl
@[simp] theorem setBlock_seamsUp (s : State) (b : Block) : (s.setBlock b).seamsUp = s.seamsUp := rfl
@[simp] theorem setBlock_log (s : State) (b : Block) : (s.setBlock b).log = s.log := rfl
@[simp] theorem setBlock_loghead (s : State) (b : Block) : (s.setBlock b).loghead = s.loghead := rfl
@[simp] theorem setBlock_window (s : State) (b : Block) : (s.setBlock b).window = s.window := rfl
@[simp] theorem setBlock_mailboxes (s : State) (b : Block) : (s.setBlock b).mailboxes = s.mailboxes := rfl
@[simp] theorem setBlock_serving (s : State) (b : Block) : (s.setBlock b).serving = s.serving := rfl
@[simp] theorem setBlock_sideband (s : State) (b : Block) : (s.setBlock b).sideband = s.sideband := rfl
@[simp] theorem setBlock_policyParts (s : State) (b : Block) : (s.setBlock b).policyParts = s.policyParts := rfl
@[simp] theorem setBlock_report (s : State) (b : Block) : (s.setBlock b).report = s.report := rfl
@[simp] theorem setBlock_dbgQueue (s : State) (b : Block) : (s.setBlock b).dbgQueue = s.dbgQueue := rfl
@[simp] theorem setBlock_debugMode (s : State) (b : Block) : (s.setBlock b).debugMode = s.debugMode := rfl
@[simp] theorem setBlock_frozen (s : State) (b : Block) : (s.setBlock b).frozen = s.frozen := rfl
@[simp] theorem setBlock_shifted (s : State) (b : Block) : (s.setBlock b).shifted = s.shifted := rfl
@[simp] theorem setBlock_chain (s : State) (b : Block) : (s.setBlock b).chain = s.chain := rfl
@[simp] theorem setBlock_scanned (s : State) (b : Block) : (s.setBlock b).scanned = s.scanned := rfl
@[simp] theorem setBlock_tapInstr (s : State) (b : Block) : (s.setBlock b).tapInstr = s.tapInstr := rfl
@[simp] theorem setBlock_gated (s : State) (b : Block) : (s.setBlock b).gated = s.gated := rfl
@[simp] theorem setBlock_stopped (s : State) (b : Block) : (s.setBlock b).stopped = s.stopped := rfl
@[simp] theorem setBlock_ticks (s : State) (b : Block) : (s.setBlock b).ticks = s.ticks := rfl
@[simp] theorem setBlock_issueTicks (s : State) (b : Block) : (s.setBlock b).issueTicks = s.issueTicks := rfl
@[simp] theorem setBlock_frozenTicks (s : State) (b : Block) : (s.setBlock b).frozenTicks = s.frozenTicks := rfl
@[simp] theorem setBlock_hostTime (s : State) (b : Block) : (s.setBlock b).hostTime = s.hostTime := rfl
@[simp] theorem setBlock_clusters (s : State) (b : Block) : (s.setBlock b).clusters = s.clusters := rfl
@[simp] theorem setBlock_cores (s : State) (b : Block) : (s.setBlock b).cores = s.cores := rfl
@[simp] theorem setBlock_dieSt (s : State) (b : Block) : (s.setBlock b).dieSt = s.dieSt := rfl
@[simp] theorem setBlock_parts (s : State) (b : Block) : (s.setBlock b).parts = s.parts := rfl
@[simp] theorem setBlock_ctxs (s : State) (b : Block) : (s.setBlock b).ctxs = s.ctxs := rfl
@[simp] theorem setBlock_grids (s : State) (b : Block) : (s.setBlock b).grids = s.grids := rfl
@[simp] theorem setBlock_skeins (s : State) (b : Block) : (s.setBlock b).skeins = s.skeins := rfl
@[simp] theorem setBlock_vfs (s : State) (b : Block) : (s.setBlock b).vfs = s.vfs := rfl
@[simp] theorem setBlock_files (s : State) (b : Block) : (s.setBlock b).files = s.files := rfl
@[simp] theorem setBlock_nvme (s : State) (b : Block) : (s.setBlock b).nvme = s.nvme := rfl
@[simp] theorem setBlock_quarantined (s : State) (b : Block) : (s.setBlock b).quarantined = s.quarantined := rfl
@[simp] theorem setBlock_groups (s : State) (b : Block) : (s.setBlock b).groups = s.groups := rfl
@[simp] theorem setBlock_uints (s : State) (b : Block) : (s.setBlock b).uints = s.uints := rfl
@[simp] theorem setBlock_grants (s : State) (b : Block) : (s.setBlock b).grants = s.grants := rfl
@[simp] theorem setBlock_failedUnits (s : State) (b : Block) : (s.setBlock b).failedUnits = s.failedUnits := rfl
@[simp] theorem setBlock_egressed (s : State) (b : Block) : (s.setBlock b).egressed = s.egressed := rfl
@[simp] theorem setBlock_errorLog (s : State) (b : Block) : (s.setBlock b).errorLog = s.errorLog := rfl
@[simp] theorem setBlock_coreRead (s : State) (b : Block) : (s.setBlock b).coreRead = s.coreRead := rfl
@[simp] theorem setBlock_reserves (s : State) (b : Block) : (s.setBlock b).reserves = s.reserves := rfl
@[simp] theorem setBlock_appInts (s : State) (b : Block) : (s.setBlock b).appInts = s.appInts := rfl
@[simp] theorem setBlock_hem (s : State) (b : Block) : (s.setBlock b).hem = s.hem := rfl
@[simp] theorem setBlock_inbound (s : State) (b : Block) : (s.setBlock b).inbound = s.inbound := rfl
@[simp] theorem setBlock_posted (s : State) (b : Block) : (s.setBlock b).posted = s.posted := rfl
@[simp] theorem setBlock_heldOutside (s : State) (b : Block) : (s.setBlock b).heldOutside = s.heldOutside := rfl
@[simp] theorem setBlock_windowReads (s : State) (b : Block) : (s.setBlock b).windowReads = s.windowReads := rfl
@[simp] theorem setBlock_ioPages (s : State) (b : Block) : (s.setBlock b).ioPages = s.ioPages := rfl
@[simp] theorem setBlock_nextId (s : State) (b : Block) : (s.setBlock b).nextId = s.nextId := rfl
@[simp] theorem setBlock_own (s : State) (b : Block) : (s.setBlock b).own = s.own := rfl
@[simp] theorem setBlock_tables (s : State) (b : Block) : (s.setBlock b).tables = s.tables := rfl
@[simp] theorem setBlock_bootImagesOk (s : State) (b : Block) : (s.setBlock b).bootImagesOk = s.bootImagesOk := rfl
@[simp] theorem setBlock_images (s : State) (b : Block) : (s.setBlock b).images = s.images := rfl
@[simp] theorem setBlock_failedImage (s : State) (b : Block) : (s.setBlock b).failedImage = s.failedImage := rfl
@[simp] theorem setBlock_agenda (s : State) (b : Block) : (s.setBlock b).agenda = s.agenda := rfl
@[simp] theorem setBlock_turn (s : State) (b : Block) : (s.setBlock b).turn = s.turn := rfl
@[simp] theorem setBlock_issuing (s : State) (b : Block) : (s.setBlock b).issuing = s.issuing := rfl
@[simp] theorem setBlock_free (s : State) (b : Block) : (s.setBlock b).free = s.free := rfl

@[simp] theorem setVf_mem (s : State) (v : VF) : (s.setVf v).mem = s.mem := rfl
@[simp] theorem setVf_past (s : State) (v : VF) : (s.setVf v).past = s.past := rfl
@[simp] theorem setVf_localGiB (s : State) (v : VF) : (s.setVf v).localGiB = s.localGiB := rfl
@[simp] theorem setVf_modSt (s : State) (v : VF) : (s.setVf v).modSt = s.modSt := rfl
@[simp] theorem setVf_run (s : State) (v : VF) : (s.setVf v).run = s.run := rfl
@[simp] theorem setVf_runCut (s : State) (v : VF) : (s.setVf v).runCut = s.runCut := rfl
@[simp] theorem setVf_power (s : State) (v : VF) : (s.setVf v).power = s.power := rfl
@[simp] theorem setVf_cap (s : State) (v : VF) : (s.setVf v).cap = s.cap := rfl
@[simp] theorem setVf_inlet (s : State) (v : VF) : (s.setVf v).inlet = s.inlet := rfl
@[simp] theorem setVf_flow (s : State) (v : VF) : (s.setVf v).flow = s.flow := rfl
@[simp] theorem setVf_gen (s : State) (v : VF) : (s.setVf v).gen = s.gen := rfl
@[simp] theorem setVf_diesUp (s : State) (v : VF) : (s.setVf v).diesUp = s.diesUp := rfl
@[simp] theorem setVf_stacksUp (s : State) (v : VF) : (s.setVf v).stacksUp = s.stacksUp := rfl
@[simp] theorem setVf_seamsUp (s : State) (v : VF) : (s.setVf v).seamsUp = s.seamsUp := rfl
@[simp] theorem setVf_log (s : State) (v : VF) : (s.setVf v).log = s.log := rfl
@[simp] theorem setVf_loghead (s : State) (v : VF) : (s.setVf v).loghead = s.loghead := rfl
@[simp] theorem setVf_window (s : State) (v : VF) : (s.setVf v).window = s.window := rfl
@[simp] theorem setVf_mailboxes (s : State) (v : VF) : (s.setVf v).mailboxes = s.mailboxes := rfl
@[simp] theorem setVf_serving (s : State) (v : VF) : (s.setVf v).serving = s.serving := rfl
@[simp] theorem setVf_sideband (s : State) (v : VF) : (s.setVf v).sideband = s.sideband := rfl
@[simp] theorem setVf_policyParts (s : State) (v : VF) : (s.setVf v).policyParts = s.policyParts := rfl
@[simp] theorem setVf_report (s : State) (v : VF) : (s.setVf v).report = s.report := rfl
@[simp] theorem setVf_dbgQueue (s : State) (v : VF) : (s.setVf v).dbgQueue = s.dbgQueue := rfl
@[simp] theorem setVf_debugMode (s : State) (v : VF) : (s.setVf v).debugMode = s.debugMode := rfl
@[simp] theorem setVf_frozen (s : State) (v : VF) : (s.setVf v).frozen = s.frozen := rfl
@[simp] theorem setVf_shifted (s : State) (v : VF) : (s.setVf v).shifted = s.shifted := rfl
@[simp] theorem setVf_chain (s : State) (v : VF) : (s.setVf v).chain = s.chain := rfl
@[simp] theorem setVf_scanned (s : State) (v : VF) : (s.setVf v).scanned = s.scanned := rfl
@[simp] theorem setVf_tapInstr (s : State) (v : VF) : (s.setVf v).tapInstr = s.tapInstr := rfl
@[simp] theorem setVf_gated (s : State) (v : VF) : (s.setVf v).gated = s.gated := rfl
@[simp] theorem setVf_stopped (s : State) (v : VF) : (s.setVf v).stopped = s.stopped := rfl
@[simp] theorem setVf_ticks (s : State) (v : VF) : (s.setVf v).ticks = s.ticks := rfl
@[simp] theorem setVf_issueTicks (s : State) (v : VF) : (s.setVf v).issueTicks = s.issueTicks := rfl
@[simp] theorem setVf_frozenTicks (s : State) (v : VF) : (s.setVf v).frozenTicks = s.frozenTicks := rfl
@[simp] theorem setVf_hostTime (s : State) (v : VF) : (s.setVf v).hostTime = s.hostTime := rfl
@[simp] theorem setVf_clusters (s : State) (v : VF) : (s.setVf v).clusters = s.clusters := rfl
@[simp] theorem setVf_cores (s : State) (v : VF) : (s.setVf v).cores = s.cores := rfl
@[simp] theorem setVf_dieSt (s : State) (v : VF) : (s.setVf v).dieSt = s.dieSt := rfl
@[simp] theorem setVf_parts (s : State) (v : VF) : (s.setVf v).parts = s.parts := rfl
@[simp] theorem setVf_ctxs (s : State) (v : VF) : (s.setVf v).ctxs = s.ctxs := rfl
@[simp] theorem setVf_grids (s : State) (v : VF) : (s.setVf v).grids = s.grids := rfl
@[simp] theorem setVf_blocks (s : State) (v : VF) : (s.setVf v).blocks = s.blocks := rfl
@[simp] theorem setVf_skeins (s : State) (v : VF) : (s.setVf v).skeins = s.skeins := rfl
@[simp] theorem setVf_files (s : State) (v : VF) : (s.setVf v).files = s.files := rfl
@[simp] theorem setVf_nvme (s : State) (v : VF) : (s.setVf v).nvme = s.nvme := rfl
@[simp] theorem setVf_quarantined (s : State) (v : VF) : (s.setVf v).quarantined = s.quarantined := rfl
@[simp] theorem setVf_groups (s : State) (v : VF) : (s.setVf v).groups = s.groups := rfl
@[simp] theorem setVf_uints (s : State) (v : VF) : (s.setVf v).uints = s.uints := rfl
@[simp] theorem setVf_grants (s : State) (v : VF) : (s.setVf v).grants = s.grants := rfl
@[simp] theorem setVf_failedUnits (s : State) (v : VF) : (s.setVf v).failedUnits = s.failedUnits := rfl
@[simp] theorem setVf_egressed (s : State) (v : VF) : (s.setVf v).egressed = s.egressed := rfl
@[simp] theorem setVf_errorLog (s : State) (v : VF) : (s.setVf v).errorLog = s.errorLog := rfl
@[simp] theorem setVf_coreRead (s : State) (v : VF) : (s.setVf v).coreRead = s.coreRead := rfl
@[simp] theorem setVf_reserves (s : State) (v : VF) : (s.setVf v).reserves = s.reserves := rfl
@[simp] theorem setVf_appInts (s : State) (v : VF) : (s.setVf v).appInts = s.appInts := rfl
@[simp] theorem setVf_hem (s : State) (v : VF) : (s.setVf v).hem = s.hem := rfl
@[simp] theorem setVf_inbound (s : State) (v : VF) : (s.setVf v).inbound = s.inbound := rfl
@[simp] theorem setVf_posted (s : State) (v : VF) : (s.setVf v).posted = s.posted := rfl
@[simp] theorem setVf_heldOutside (s : State) (v : VF) : (s.setVf v).heldOutside = s.heldOutside := rfl
@[simp] theorem setVf_windowReads (s : State) (v : VF) : (s.setVf v).windowReads = s.windowReads := rfl
@[simp] theorem setVf_ioPages (s : State) (v : VF) : (s.setVf v).ioPages = s.ioPages := rfl
@[simp] theorem setVf_nextId (s : State) (v : VF) : (s.setVf v).nextId = s.nextId := rfl
@[simp] theorem setVf_own (s : State) (v : VF) : (s.setVf v).own = s.own := rfl
@[simp] theorem setVf_tables (s : State) (v : VF) : (s.setVf v).tables = s.tables := rfl
@[simp] theorem setVf_bootImagesOk (s : State) (v : VF) : (s.setVf v).bootImagesOk = s.bootImagesOk := rfl
@[simp] theorem setVf_images (s : State) (v : VF) : (s.setVf v).images = s.images := rfl
@[simp] theorem setVf_failedImage (s : State) (v : VF) : (s.setVf v).failedImage = s.failedImage := rfl
@[simp] theorem setVf_agenda (s : State) (v : VF) : (s.setVf v).agenda = s.agenda := rfl
@[simp] theorem setVf_turn (s : State) (v : VF) : (s.setVf v).turn = s.turn := rfl
@[simp] theorem setVf_issuing (s : State) (v : VF) : (s.setVf v).issuing = s.issuing := rfl
@[simp] theorem setVf_free (s : State) (v : VF) : (s.setVf v).free = s.free := rfl

@[simp] theorem modCluster_mem (s : State) (n : Nat) (f : Cluster → Cluster) : (s.modCluster n f).mem = s.mem := rfl
@[simp] theorem modCluster_past (s : State) (n : Nat) (f : Cluster → Cluster) : (s.modCluster n f).past = s.past := rfl
@[simp] theorem modCluster_localGiB (s : State) (n : Nat) (f : Cluster → Cluster) : (s.modCluster n f).localGiB = s.localGiB := rfl
@[simp] theorem modCluster_modSt (s : State) (n : Nat) (f : Cluster → Cluster) : (s.modCluster n f).modSt = s.modSt := rfl
@[simp] theorem modCluster_run (s : State) (n : Nat) (f : Cluster → Cluster) : (s.modCluster n f).run = s.run := rfl
@[simp] theorem modCluster_runCut (s : State) (n : Nat) (f : Cluster → Cluster) : (s.modCluster n f).runCut = s.runCut := rfl
@[simp] theorem modCluster_power (s : State) (n : Nat) (f : Cluster → Cluster) : (s.modCluster n f).power = s.power := rfl
@[simp] theorem modCluster_cap (s : State) (n : Nat) (f : Cluster → Cluster) : (s.modCluster n f).cap = s.cap := rfl
@[simp] theorem modCluster_inlet (s : State) (n : Nat) (f : Cluster → Cluster) : (s.modCluster n f).inlet = s.inlet := rfl
@[simp] theorem modCluster_flow (s : State) (n : Nat) (f : Cluster → Cluster) : (s.modCluster n f).flow = s.flow := rfl
@[simp] theorem modCluster_gen (s : State) (n : Nat) (f : Cluster → Cluster) : (s.modCluster n f).gen = s.gen := rfl
@[simp] theorem modCluster_diesUp (s : State) (n : Nat) (f : Cluster → Cluster) : (s.modCluster n f).diesUp = s.diesUp := rfl
@[simp] theorem modCluster_stacksUp (s : State) (n : Nat) (f : Cluster → Cluster) : (s.modCluster n f).stacksUp = s.stacksUp := rfl
@[simp] theorem modCluster_seamsUp (s : State) (n : Nat) (f : Cluster → Cluster) : (s.modCluster n f).seamsUp = s.seamsUp := rfl
@[simp] theorem modCluster_log (s : State) (n : Nat) (f : Cluster → Cluster) : (s.modCluster n f).log = s.log := rfl
@[simp] theorem modCluster_loghead (s : State) (n : Nat) (f : Cluster → Cluster) : (s.modCluster n f).loghead = s.loghead := rfl
@[simp] theorem modCluster_window (s : State) (n : Nat) (f : Cluster → Cluster) : (s.modCluster n f).window = s.window := rfl
@[simp] theorem modCluster_mailboxes (s : State) (n : Nat) (f : Cluster → Cluster) : (s.modCluster n f).mailboxes = s.mailboxes := rfl
@[simp] theorem modCluster_serving (s : State) (n : Nat) (f : Cluster → Cluster) : (s.modCluster n f).serving = s.serving := rfl
@[simp] theorem modCluster_sideband (s : State) (n : Nat) (f : Cluster → Cluster) : (s.modCluster n f).sideband = s.sideband := rfl
@[simp] theorem modCluster_policyParts (s : State) (n : Nat) (f : Cluster → Cluster) : (s.modCluster n f).policyParts = s.policyParts := rfl
@[simp] theorem modCluster_report (s : State) (n : Nat) (f : Cluster → Cluster) : (s.modCluster n f).report = s.report := rfl
@[simp] theorem modCluster_dbgQueue (s : State) (n : Nat) (f : Cluster → Cluster) : (s.modCluster n f).dbgQueue = s.dbgQueue := rfl
@[simp] theorem modCluster_debugMode (s : State) (n : Nat) (f : Cluster → Cluster) : (s.modCluster n f).debugMode = s.debugMode := rfl
@[simp] theorem modCluster_frozen (s : State) (n : Nat) (f : Cluster → Cluster) : (s.modCluster n f).frozen = s.frozen := rfl
@[simp] theorem modCluster_shifted (s : State) (n : Nat) (f : Cluster → Cluster) : (s.modCluster n f).shifted = s.shifted := rfl
@[simp] theorem modCluster_chain (s : State) (n : Nat) (f : Cluster → Cluster) : (s.modCluster n f).chain = s.chain := rfl
@[simp] theorem modCluster_scanned (s : State) (n : Nat) (f : Cluster → Cluster) : (s.modCluster n f).scanned = s.scanned := rfl
@[simp] theorem modCluster_tapInstr (s : State) (n : Nat) (f : Cluster → Cluster) : (s.modCluster n f).tapInstr = s.tapInstr := rfl
@[simp] theorem modCluster_gated (s : State) (n : Nat) (f : Cluster → Cluster) : (s.modCluster n f).gated = s.gated := rfl
@[simp] theorem modCluster_stopped (s : State) (n : Nat) (f : Cluster → Cluster) : (s.modCluster n f).stopped = s.stopped := rfl
@[simp] theorem modCluster_ticks (s : State) (n : Nat) (f : Cluster → Cluster) : (s.modCluster n f).ticks = s.ticks := rfl
@[simp] theorem modCluster_issueTicks (s : State) (n : Nat) (f : Cluster → Cluster) : (s.modCluster n f).issueTicks = s.issueTicks := rfl
@[simp] theorem modCluster_frozenTicks (s : State) (n : Nat) (f : Cluster → Cluster) : (s.modCluster n f).frozenTicks = s.frozenTicks := rfl
@[simp] theorem modCluster_hostTime (s : State) (n : Nat) (f : Cluster → Cluster) : (s.modCluster n f).hostTime = s.hostTime := rfl
@[simp] theorem modCluster_cores (s : State) (n : Nat) (f : Cluster → Cluster) : (s.modCluster n f).cores = s.cores := rfl
@[simp] theorem modCluster_dieSt (s : State) (n : Nat) (f : Cluster → Cluster) : (s.modCluster n f).dieSt = s.dieSt := rfl
@[simp] theorem modCluster_parts (s : State) (n : Nat) (f : Cluster → Cluster) : (s.modCluster n f).parts = s.parts := rfl
@[simp] theorem modCluster_ctxs (s : State) (n : Nat) (f : Cluster → Cluster) : (s.modCluster n f).ctxs = s.ctxs := rfl
@[simp] theorem modCluster_grids (s : State) (n : Nat) (f : Cluster → Cluster) : (s.modCluster n f).grids = s.grids := rfl
@[simp] theorem modCluster_blocks (s : State) (n : Nat) (f : Cluster → Cluster) : (s.modCluster n f).blocks = s.blocks := rfl
@[simp] theorem modCluster_skeins (s : State) (n : Nat) (f : Cluster → Cluster) : (s.modCluster n f).skeins = s.skeins := rfl
@[simp] theorem modCluster_vfs (s : State) (n : Nat) (f : Cluster → Cluster) : (s.modCluster n f).vfs = s.vfs := rfl
@[simp] theorem modCluster_files (s : State) (n : Nat) (f : Cluster → Cluster) : (s.modCluster n f).files = s.files := rfl
@[simp] theorem modCluster_nvme (s : State) (n : Nat) (f : Cluster → Cluster) : (s.modCluster n f).nvme = s.nvme := rfl
@[simp] theorem modCluster_quarantined (s : State) (n : Nat) (f : Cluster → Cluster) : (s.modCluster n f).quarantined = s.quarantined := rfl
@[simp] theorem modCluster_groups (s : State) (n : Nat) (f : Cluster → Cluster) : (s.modCluster n f).groups = s.groups := rfl
@[simp] theorem modCluster_uints (s : State) (n : Nat) (f : Cluster → Cluster) : (s.modCluster n f).uints = s.uints := rfl
@[simp] theorem modCluster_grants (s : State) (n : Nat) (f : Cluster → Cluster) : (s.modCluster n f).grants = s.grants := rfl
@[simp] theorem modCluster_failedUnits (s : State) (n : Nat) (f : Cluster → Cluster) : (s.modCluster n f).failedUnits = s.failedUnits := rfl
@[simp] theorem modCluster_egressed (s : State) (n : Nat) (f : Cluster → Cluster) : (s.modCluster n f).egressed = s.egressed := rfl
@[simp] theorem modCluster_errorLog (s : State) (n : Nat) (f : Cluster → Cluster) : (s.modCluster n f).errorLog = s.errorLog := rfl
@[simp] theorem modCluster_coreRead (s : State) (n : Nat) (f : Cluster → Cluster) : (s.modCluster n f).coreRead = s.coreRead := rfl
@[simp] theorem modCluster_reserves (s : State) (n : Nat) (f : Cluster → Cluster) : (s.modCluster n f).reserves = s.reserves := rfl
@[simp] theorem modCluster_appInts (s : State) (n : Nat) (f : Cluster → Cluster) : (s.modCluster n f).appInts = s.appInts := rfl
@[simp] theorem modCluster_hem (s : State) (n : Nat) (f : Cluster → Cluster) : (s.modCluster n f).hem = s.hem := rfl
@[simp] theorem modCluster_inbound (s : State) (n : Nat) (f : Cluster → Cluster) : (s.modCluster n f).inbound = s.inbound := rfl
@[simp] theorem modCluster_posted (s : State) (n : Nat) (f : Cluster → Cluster) : (s.modCluster n f).posted = s.posted := rfl
@[simp] theorem modCluster_heldOutside (s : State) (n : Nat) (f : Cluster → Cluster) : (s.modCluster n f).heldOutside = s.heldOutside := rfl
@[simp] theorem modCluster_windowReads (s : State) (n : Nat) (f : Cluster → Cluster) : (s.modCluster n f).windowReads = s.windowReads := rfl
@[simp] theorem modCluster_ioPages (s : State) (n : Nat) (f : Cluster → Cluster) : (s.modCluster n f).ioPages = s.ioPages := rfl
@[simp] theorem modCluster_nextId (s : State) (n : Nat) (f : Cluster → Cluster) : (s.modCluster n f).nextId = s.nextId := rfl
@[simp] theorem modCluster_own (s : State) (n : Nat) (f : Cluster → Cluster) : (s.modCluster n f).own = s.own := rfl
@[simp] theorem modCluster_tables (s : State) (n : Nat) (f : Cluster → Cluster) : (s.modCluster n f).tables = s.tables := rfl
@[simp] theorem modCluster_bootImagesOk (s : State) (n : Nat) (f : Cluster → Cluster) : (s.modCluster n f).bootImagesOk = s.bootImagesOk := rfl
@[simp] theorem modCluster_images (s : State) (n : Nat) (f : Cluster → Cluster) : (s.modCluster n f).images = s.images := rfl
@[simp] theorem modCluster_failedImage (s : State) (n : Nat) (f : Cluster → Cluster) : (s.modCluster n f).failedImage = s.failedImage := rfl
@[simp] theorem modCluster_agenda (s : State) (n : Nat) (f : Cluster → Cluster) : (s.modCluster n f).agenda = s.agenda := rfl
@[simp] theorem modCluster_turn (s : State) (n : Nat) (f : Cluster → Cluster) : (s.modCluster n f).turn = s.turn := rfl
@[simp] theorem modCluster_issuing (s : State) (n : Nat) (f : Cluster → Cluster) : (s.modCluster n f).issuing = s.issuing := rfl
@[simp] theorem modCluster_free (s : State) (n : Nat) (f : Cluster → Cluster) : (s.modCluster n f).free = s.free := rfl

@[simp] theorem modCore_mem (s : State) (n : Nat) (f : Core → Core) : (s.modCore n f).mem = s.mem := rfl
@[simp] theorem modCore_past (s : State) (n : Nat) (f : Core → Core) : (s.modCore n f).past = s.past := rfl
@[simp] theorem modCore_localGiB (s : State) (n : Nat) (f : Core → Core) : (s.modCore n f).localGiB = s.localGiB := rfl
@[simp] theorem modCore_modSt (s : State) (n : Nat) (f : Core → Core) : (s.modCore n f).modSt = s.modSt := rfl
@[simp] theorem modCore_run (s : State) (n : Nat) (f : Core → Core) : (s.modCore n f).run = s.run := rfl
@[simp] theorem modCore_runCut (s : State) (n : Nat) (f : Core → Core) : (s.modCore n f).runCut = s.runCut := rfl
@[simp] theorem modCore_power (s : State) (n : Nat) (f : Core → Core) : (s.modCore n f).power = s.power := rfl
@[simp] theorem modCore_cap (s : State) (n : Nat) (f : Core → Core) : (s.modCore n f).cap = s.cap := rfl
@[simp] theorem modCore_inlet (s : State) (n : Nat) (f : Core → Core) : (s.modCore n f).inlet = s.inlet := rfl
@[simp] theorem modCore_flow (s : State) (n : Nat) (f : Core → Core) : (s.modCore n f).flow = s.flow := rfl
@[simp] theorem modCore_gen (s : State) (n : Nat) (f : Core → Core) : (s.modCore n f).gen = s.gen := rfl
@[simp] theorem modCore_diesUp (s : State) (n : Nat) (f : Core → Core) : (s.modCore n f).diesUp = s.diesUp := rfl
@[simp] theorem modCore_stacksUp (s : State) (n : Nat) (f : Core → Core) : (s.modCore n f).stacksUp = s.stacksUp := rfl
@[simp] theorem modCore_seamsUp (s : State) (n : Nat) (f : Core → Core) : (s.modCore n f).seamsUp = s.seamsUp := rfl
@[simp] theorem modCore_log (s : State) (n : Nat) (f : Core → Core) : (s.modCore n f).log = s.log := rfl
@[simp] theorem modCore_loghead (s : State) (n : Nat) (f : Core → Core) : (s.modCore n f).loghead = s.loghead := rfl
@[simp] theorem modCore_window (s : State) (n : Nat) (f : Core → Core) : (s.modCore n f).window = s.window := rfl
@[simp] theorem modCore_mailboxes (s : State) (n : Nat) (f : Core → Core) : (s.modCore n f).mailboxes = s.mailboxes := rfl
@[simp] theorem modCore_serving (s : State) (n : Nat) (f : Core → Core) : (s.modCore n f).serving = s.serving := rfl
@[simp] theorem modCore_sideband (s : State) (n : Nat) (f : Core → Core) : (s.modCore n f).sideband = s.sideband := rfl
@[simp] theorem modCore_policyParts (s : State) (n : Nat) (f : Core → Core) : (s.modCore n f).policyParts = s.policyParts := rfl
@[simp] theorem modCore_report (s : State) (n : Nat) (f : Core → Core) : (s.modCore n f).report = s.report := rfl
@[simp] theorem modCore_dbgQueue (s : State) (n : Nat) (f : Core → Core) : (s.modCore n f).dbgQueue = s.dbgQueue := rfl
@[simp] theorem modCore_debugMode (s : State) (n : Nat) (f : Core → Core) : (s.modCore n f).debugMode = s.debugMode := rfl
@[simp] theorem modCore_frozen (s : State) (n : Nat) (f : Core → Core) : (s.modCore n f).frozen = s.frozen := rfl
@[simp] theorem modCore_shifted (s : State) (n : Nat) (f : Core → Core) : (s.modCore n f).shifted = s.shifted := rfl
@[simp] theorem modCore_chain (s : State) (n : Nat) (f : Core → Core) : (s.modCore n f).chain = s.chain := rfl
@[simp] theorem modCore_scanned (s : State) (n : Nat) (f : Core → Core) : (s.modCore n f).scanned = s.scanned := rfl
@[simp] theorem modCore_tapInstr (s : State) (n : Nat) (f : Core → Core) : (s.modCore n f).tapInstr = s.tapInstr := rfl
@[simp] theorem modCore_gated (s : State) (n : Nat) (f : Core → Core) : (s.modCore n f).gated = s.gated := rfl
@[simp] theorem modCore_stopped (s : State) (n : Nat) (f : Core → Core) : (s.modCore n f).stopped = s.stopped := rfl
@[simp] theorem modCore_ticks (s : State) (n : Nat) (f : Core → Core) : (s.modCore n f).ticks = s.ticks := rfl
@[simp] theorem modCore_issueTicks (s : State) (n : Nat) (f : Core → Core) : (s.modCore n f).issueTicks = s.issueTicks := rfl
@[simp] theorem modCore_frozenTicks (s : State) (n : Nat) (f : Core → Core) : (s.modCore n f).frozenTicks = s.frozenTicks := rfl
@[simp] theorem modCore_hostTime (s : State) (n : Nat) (f : Core → Core) : (s.modCore n f).hostTime = s.hostTime := rfl
@[simp] theorem modCore_clusters (s : State) (n : Nat) (f : Core → Core) : (s.modCore n f).clusters = s.clusters := rfl
@[simp] theorem modCore_dieSt (s : State) (n : Nat) (f : Core → Core) : (s.modCore n f).dieSt = s.dieSt := rfl
@[simp] theorem modCore_parts (s : State) (n : Nat) (f : Core → Core) : (s.modCore n f).parts = s.parts := rfl
@[simp] theorem modCore_ctxs (s : State) (n : Nat) (f : Core → Core) : (s.modCore n f).ctxs = s.ctxs := rfl
@[simp] theorem modCore_grids (s : State) (n : Nat) (f : Core → Core) : (s.modCore n f).grids = s.grids := rfl
@[simp] theorem modCore_blocks (s : State) (n : Nat) (f : Core → Core) : (s.modCore n f).blocks = s.blocks := rfl
@[simp] theorem modCore_skeins (s : State) (n : Nat) (f : Core → Core) : (s.modCore n f).skeins = s.skeins := rfl
@[simp] theorem modCore_vfs (s : State) (n : Nat) (f : Core → Core) : (s.modCore n f).vfs = s.vfs := rfl
@[simp] theorem modCore_files (s : State) (n : Nat) (f : Core → Core) : (s.modCore n f).files = s.files := rfl
@[simp] theorem modCore_nvme (s : State) (n : Nat) (f : Core → Core) : (s.modCore n f).nvme = s.nvme := rfl
@[simp] theorem modCore_quarantined (s : State) (n : Nat) (f : Core → Core) : (s.modCore n f).quarantined = s.quarantined := rfl
@[simp] theorem modCore_groups (s : State) (n : Nat) (f : Core → Core) : (s.modCore n f).groups = s.groups := rfl
@[simp] theorem modCore_uints (s : State) (n : Nat) (f : Core → Core) : (s.modCore n f).uints = s.uints := rfl
@[simp] theorem modCore_grants (s : State) (n : Nat) (f : Core → Core) : (s.modCore n f).grants = s.grants := rfl
@[simp] theorem modCore_failedUnits (s : State) (n : Nat) (f : Core → Core) : (s.modCore n f).failedUnits = s.failedUnits := rfl
@[simp] theorem modCore_egressed (s : State) (n : Nat) (f : Core → Core) : (s.modCore n f).egressed = s.egressed := rfl
@[simp] theorem modCore_errorLog (s : State) (n : Nat) (f : Core → Core) : (s.modCore n f).errorLog = s.errorLog := rfl
@[simp] theorem modCore_coreRead (s : State) (n : Nat) (f : Core → Core) : (s.modCore n f).coreRead = s.coreRead := rfl
@[simp] theorem modCore_reserves (s : State) (n : Nat) (f : Core → Core) : (s.modCore n f).reserves = s.reserves := rfl
@[simp] theorem modCore_appInts (s : State) (n : Nat) (f : Core → Core) : (s.modCore n f).appInts = s.appInts := rfl
@[simp] theorem modCore_hem (s : State) (n : Nat) (f : Core → Core) : (s.modCore n f).hem = s.hem := rfl
@[simp] theorem modCore_inbound (s : State) (n : Nat) (f : Core → Core) : (s.modCore n f).inbound = s.inbound := rfl
@[simp] theorem modCore_posted (s : State) (n : Nat) (f : Core → Core) : (s.modCore n f).posted = s.posted := rfl
@[simp] theorem modCore_heldOutside (s : State) (n : Nat) (f : Core → Core) : (s.modCore n f).heldOutside = s.heldOutside := rfl
@[simp] theorem modCore_windowReads (s : State) (n : Nat) (f : Core → Core) : (s.modCore n f).windowReads = s.windowReads := rfl
@[simp] theorem modCore_ioPages (s : State) (n : Nat) (f : Core → Core) : (s.modCore n f).ioPages = s.ioPages := rfl
@[simp] theorem modCore_nextId (s : State) (n : Nat) (f : Core → Core) : (s.modCore n f).nextId = s.nextId := rfl
@[simp] theorem modCore_own (s : State) (n : Nat) (f : Core → Core) : (s.modCore n f).own = s.own := rfl
@[simp] theorem modCore_tables (s : State) (n : Nat) (f : Core → Core) : (s.modCore n f).tables = s.tables := rfl
@[simp] theorem modCore_bootImagesOk (s : State) (n : Nat) (f : Core → Core) : (s.modCore n f).bootImagesOk = s.bootImagesOk := rfl
@[simp] theorem modCore_images (s : State) (n : Nat) (f : Core → Core) : (s.modCore n f).images = s.images := rfl
@[simp] theorem modCore_failedImage (s : State) (n : Nat) (f : Core → Core) : (s.modCore n f).failedImage = s.failedImage := rfl
@[simp] theorem modCore_agenda (s : State) (n : Nat) (f : Core → Core) : (s.modCore n f).agenda = s.agenda := rfl
@[simp] theorem modCore_turn (s : State) (n : Nat) (f : Core → Core) : (s.modCore n f).turn = s.turn := rfl
@[simp] theorem modCore_issuing (s : State) (n : Nat) (f : Core → Core) : (s.modCore n f).issuing = s.issuing := rfl
@[simp] theorem modCore_free (s : State) (n : Nat) (f : Core → Core) : (s.modCore n f).free = s.free := rfl

@[simp] theorem modDie_mem (s : State) (n : Nat) (f : Die → Die) : (s.modDie n f).mem = s.mem := rfl
@[simp] theorem modDie_past (s : State) (n : Nat) (f : Die → Die) : (s.modDie n f).past = s.past := rfl
@[simp] theorem modDie_localGiB (s : State) (n : Nat) (f : Die → Die) : (s.modDie n f).localGiB = s.localGiB := rfl
@[simp] theorem modDie_modSt (s : State) (n : Nat) (f : Die → Die) : (s.modDie n f).modSt = s.modSt := rfl
@[simp] theorem modDie_run (s : State) (n : Nat) (f : Die → Die) : (s.modDie n f).run = s.run := rfl
@[simp] theorem modDie_runCut (s : State) (n : Nat) (f : Die → Die) : (s.modDie n f).runCut = s.runCut := rfl
@[simp] theorem modDie_power (s : State) (n : Nat) (f : Die → Die) : (s.modDie n f).power = s.power := rfl
@[simp] theorem modDie_cap (s : State) (n : Nat) (f : Die → Die) : (s.modDie n f).cap = s.cap := rfl
@[simp] theorem modDie_inlet (s : State) (n : Nat) (f : Die → Die) : (s.modDie n f).inlet = s.inlet := rfl
@[simp] theorem modDie_flow (s : State) (n : Nat) (f : Die → Die) : (s.modDie n f).flow = s.flow := rfl
@[simp] theorem modDie_gen (s : State) (n : Nat) (f : Die → Die) : (s.modDie n f).gen = s.gen := rfl
@[simp] theorem modDie_diesUp (s : State) (n : Nat) (f : Die → Die) : (s.modDie n f).diesUp = s.diesUp := rfl
@[simp] theorem modDie_stacksUp (s : State) (n : Nat) (f : Die → Die) : (s.modDie n f).stacksUp = s.stacksUp := rfl
@[simp] theorem modDie_seamsUp (s : State) (n : Nat) (f : Die → Die) : (s.modDie n f).seamsUp = s.seamsUp := rfl
@[simp] theorem modDie_log (s : State) (n : Nat) (f : Die → Die) : (s.modDie n f).log = s.log := rfl
@[simp] theorem modDie_loghead (s : State) (n : Nat) (f : Die → Die) : (s.modDie n f).loghead = s.loghead := rfl
@[simp] theorem modDie_window (s : State) (n : Nat) (f : Die → Die) : (s.modDie n f).window = s.window := rfl
@[simp] theorem modDie_mailboxes (s : State) (n : Nat) (f : Die → Die) : (s.modDie n f).mailboxes = s.mailboxes := rfl
@[simp] theorem modDie_serving (s : State) (n : Nat) (f : Die → Die) : (s.modDie n f).serving = s.serving := rfl
@[simp] theorem modDie_sideband (s : State) (n : Nat) (f : Die → Die) : (s.modDie n f).sideband = s.sideband := rfl
@[simp] theorem modDie_policyParts (s : State) (n : Nat) (f : Die → Die) : (s.modDie n f).policyParts = s.policyParts := rfl
@[simp] theorem modDie_report (s : State) (n : Nat) (f : Die → Die) : (s.modDie n f).report = s.report := rfl
@[simp] theorem modDie_dbgQueue (s : State) (n : Nat) (f : Die → Die) : (s.modDie n f).dbgQueue = s.dbgQueue := rfl
@[simp] theorem modDie_debugMode (s : State) (n : Nat) (f : Die → Die) : (s.modDie n f).debugMode = s.debugMode := rfl
@[simp] theorem modDie_frozen (s : State) (n : Nat) (f : Die → Die) : (s.modDie n f).frozen = s.frozen := rfl
@[simp] theorem modDie_shifted (s : State) (n : Nat) (f : Die → Die) : (s.modDie n f).shifted = s.shifted := rfl
@[simp] theorem modDie_chain (s : State) (n : Nat) (f : Die → Die) : (s.modDie n f).chain = s.chain := rfl
@[simp] theorem modDie_scanned (s : State) (n : Nat) (f : Die → Die) : (s.modDie n f).scanned = s.scanned := rfl
@[simp] theorem modDie_tapInstr (s : State) (n : Nat) (f : Die → Die) : (s.modDie n f).tapInstr = s.tapInstr := rfl
@[simp] theorem modDie_gated (s : State) (n : Nat) (f : Die → Die) : (s.modDie n f).gated = s.gated := rfl
@[simp] theorem modDie_stopped (s : State) (n : Nat) (f : Die → Die) : (s.modDie n f).stopped = s.stopped := rfl
@[simp] theorem modDie_ticks (s : State) (n : Nat) (f : Die → Die) : (s.modDie n f).ticks = s.ticks := rfl
@[simp] theorem modDie_issueTicks (s : State) (n : Nat) (f : Die → Die) : (s.modDie n f).issueTicks = s.issueTicks := rfl
@[simp] theorem modDie_frozenTicks (s : State) (n : Nat) (f : Die → Die) : (s.modDie n f).frozenTicks = s.frozenTicks := rfl
@[simp] theorem modDie_hostTime (s : State) (n : Nat) (f : Die → Die) : (s.modDie n f).hostTime = s.hostTime := rfl
@[simp] theorem modDie_clusters (s : State) (n : Nat) (f : Die → Die) : (s.modDie n f).clusters = s.clusters := rfl
@[simp] theorem modDie_cores (s : State) (n : Nat) (f : Die → Die) : (s.modDie n f).cores = s.cores := rfl
@[simp] theorem modDie_parts (s : State) (n : Nat) (f : Die → Die) : (s.modDie n f).parts = s.parts := rfl
@[simp] theorem modDie_ctxs (s : State) (n : Nat) (f : Die → Die) : (s.modDie n f).ctxs = s.ctxs := rfl
@[simp] theorem modDie_grids (s : State) (n : Nat) (f : Die → Die) : (s.modDie n f).grids = s.grids := rfl
@[simp] theorem modDie_blocks (s : State) (n : Nat) (f : Die → Die) : (s.modDie n f).blocks = s.blocks := rfl
@[simp] theorem modDie_skeins (s : State) (n : Nat) (f : Die → Die) : (s.modDie n f).skeins = s.skeins := rfl
@[simp] theorem modDie_vfs (s : State) (n : Nat) (f : Die → Die) : (s.modDie n f).vfs = s.vfs := rfl
@[simp] theorem modDie_files (s : State) (n : Nat) (f : Die → Die) : (s.modDie n f).files = s.files := rfl
@[simp] theorem modDie_nvme (s : State) (n : Nat) (f : Die → Die) : (s.modDie n f).nvme = s.nvme := rfl
@[simp] theorem modDie_quarantined (s : State) (n : Nat) (f : Die → Die) : (s.modDie n f).quarantined = s.quarantined := rfl
@[simp] theorem modDie_groups (s : State) (n : Nat) (f : Die → Die) : (s.modDie n f).groups = s.groups := rfl
@[simp] theorem modDie_uints (s : State) (n : Nat) (f : Die → Die) : (s.modDie n f).uints = s.uints := rfl
@[simp] theorem modDie_grants (s : State) (n : Nat) (f : Die → Die) : (s.modDie n f).grants = s.grants := rfl
@[simp] theorem modDie_failedUnits (s : State) (n : Nat) (f : Die → Die) : (s.modDie n f).failedUnits = s.failedUnits := rfl
@[simp] theorem modDie_egressed (s : State) (n : Nat) (f : Die → Die) : (s.modDie n f).egressed = s.egressed := rfl
@[simp] theorem modDie_errorLog (s : State) (n : Nat) (f : Die → Die) : (s.modDie n f).errorLog = s.errorLog := rfl
@[simp] theorem modDie_coreRead (s : State) (n : Nat) (f : Die → Die) : (s.modDie n f).coreRead = s.coreRead := rfl
@[simp] theorem modDie_reserves (s : State) (n : Nat) (f : Die → Die) : (s.modDie n f).reserves = s.reserves := rfl
@[simp] theorem modDie_appInts (s : State) (n : Nat) (f : Die → Die) : (s.modDie n f).appInts = s.appInts := rfl
@[simp] theorem modDie_hem (s : State) (n : Nat) (f : Die → Die) : (s.modDie n f).hem = s.hem := rfl
@[simp] theorem modDie_inbound (s : State) (n : Nat) (f : Die → Die) : (s.modDie n f).inbound = s.inbound := rfl
@[simp] theorem modDie_posted (s : State) (n : Nat) (f : Die → Die) : (s.modDie n f).posted = s.posted := rfl
@[simp] theorem modDie_heldOutside (s : State) (n : Nat) (f : Die → Die) : (s.modDie n f).heldOutside = s.heldOutside := rfl
@[simp] theorem modDie_windowReads (s : State) (n : Nat) (f : Die → Die) : (s.modDie n f).windowReads = s.windowReads := rfl
@[simp] theorem modDie_ioPages (s : State) (n : Nat) (f : Die → Die) : (s.modDie n f).ioPages = s.ioPages := rfl
@[simp] theorem modDie_nextId (s : State) (n : Nat) (f : Die → Die) : (s.modDie n f).nextId = s.nextId := rfl
@[simp] theorem modDie_own (s : State) (n : Nat) (f : Die → Die) : (s.modDie n f).own = s.own := rfl
@[simp] theorem modDie_tables (s : State) (n : Nat) (f : Die → Die) : (s.modDie n f).tables = s.tables := rfl
@[simp] theorem modDie_bootImagesOk (s : State) (n : Nat) (f : Die → Die) : (s.modDie n f).bootImagesOk = s.bootImagesOk := rfl
@[simp] theorem modDie_images (s : State) (n : Nat) (f : Die → Die) : (s.modDie n f).images = s.images := rfl
@[simp] theorem modDie_failedImage (s : State) (n : Nat) (f : Die → Die) : (s.modDie n f).failedImage = s.failedImage := rfl
@[simp] theorem modDie_agenda (s : State) (n : Nat) (f : Die → Die) : (s.modDie n f).agenda = s.agenda := rfl
@[simp] theorem modDie_turn (s : State) (n : Nat) (f : Die → Die) : (s.modDie n f).turn = s.turn := rfl
@[simp] theorem modDie_issuing (s : State) (n : Nat) (f : Die → Die) : (s.modDie n f).issuing = s.issuing := rfl
@[simp] theorem modDie_free (s : State) (n : Nat) (f : Die → Die) : (s.modDie n f).free = s.free := rfl

@[simp] theorem modPart_mem (s : State) (n : Nat) (f : Partition → Partition) : (s.modPart n f).mem = s.mem := rfl
@[simp] theorem modPart_past (s : State) (n : Nat) (f : Partition → Partition) : (s.modPart n f).past = s.past := rfl
@[simp] theorem modPart_localGiB (s : State) (n : Nat) (f : Partition → Partition) : (s.modPart n f).localGiB = s.localGiB := rfl
@[simp] theorem modPart_modSt (s : State) (n : Nat) (f : Partition → Partition) : (s.modPart n f).modSt = s.modSt := rfl
@[simp] theorem modPart_run (s : State) (n : Nat) (f : Partition → Partition) : (s.modPart n f).run = s.run := rfl
@[simp] theorem modPart_runCut (s : State) (n : Nat) (f : Partition → Partition) : (s.modPart n f).runCut = s.runCut := rfl
@[simp] theorem modPart_power (s : State) (n : Nat) (f : Partition → Partition) : (s.modPart n f).power = s.power := rfl
@[simp] theorem modPart_cap (s : State) (n : Nat) (f : Partition → Partition) : (s.modPart n f).cap = s.cap := rfl
@[simp] theorem modPart_inlet (s : State) (n : Nat) (f : Partition → Partition) : (s.modPart n f).inlet = s.inlet := rfl
@[simp] theorem modPart_flow (s : State) (n : Nat) (f : Partition → Partition) : (s.modPart n f).flow = s.flow := rfl
@[simp] theorem modPart_gen (s : State) (n : Nat) (f : Partition → Partition) : (s.modPart n f).gen = s.gen := rfl
@[simp] theorem modPart_diesUp (s : State) (n : Nat) (f : Partition → Partition) : (s.modPart n f).diesUp = s.diesUp := rfl
@[simp] theorem modPart_stacksUp (s : State) (n : Nat) (f : Partition → Partition) : (s.modPart n f).stacksUp = s.stacksUp := rfl
@[simp] theorem modPart_seamsUp (s : State) (n : Nat) (f : Partition → Partition) : (s.modPart n f).seamsUp = s.seamsUp := rfl
@[simp] theorem modPart_log (s : State) (n : Nat) (f : Partition → Partition) : (s.modPart n f).log = s.log := rfl
@[simp] theorem modPart_loghead (s : State) (n : Nat) (f : Partition → Partition) : (s.modPart n f).loghead = s.loghead := rfl
@[simp] theorem modPart_window (s : State) (n : Nat) (f : Partition → Partition) : (s.modPart n f).window = s.window := rfl
@[simp] theorem modPart_mailboxes (s : State) (n : Nat) (f : Partition → Partition) : (s.modPart n f).mailboxes = s.mailboxes := rfl
@[simp] theorem modPart_serving (s : State) (n : Nat) (f : Partition → Partition) : (s.modPart n f).serving = s.serving := rfl
@[simp] theorem modPart_sideband (s : State) (n : Nat) (f : Partition → Partition) : (s.modPart n f).sideband = s.sideband := rfl
@[simp] theorem modPart_policyParts (s : State) (n : Nat) (f : Partition → Partition) : (s.modPart n f).policyParts = s.policyParts := rfl
@[simp] theorem modPart_report (s : State) (n : Nat) (f : Partition → Partition) : (s.modPart n f).report = s.report := rfl
@[simp] theorem modPart_dbgQueue (s : State) (n : Nat) (f : Partition → Partition) : (s.modPart n f).dbgQueue = s.dbgQueue := rfl
@[simp] theorem modPart_debugMode (s : State) (n : Nat) (f : Partition → Partition) : (s.modPart n f).debugMode = s.debugMode := rfl
@[simp] theorem modPart_frozen (s : State) (n : Nat) (f : Partition → Partition) : (s.modPart n f).frozen = s.frozen := rfl
@[simp] theorem modPart_shifted (s : State) (n : Nat) (f : Partition → Partition) : (s.modPart n f).shifted = s.shifted := rfl
@[simp] theorem modPart_chain (s : State) (n : Nat) (f : Partition → Partition) : (s.modPart n f).chain = s.chain := rfl
@[simp] theorem modPart_scanned (s : State) (n : Nat) (f : Partition → Partition) : (s.modPart n f).scanned = s.scanned := rfl
@[simp] theorem modPart_tapInstr (s : State) (n : Nat) (f : Partition → Partition) : (s.modPart n f).tapInstr = s.tapInstr := rfl
@[simp] theorem modPart_gated (s : State) (n : Nat) (f : Partition → Partition) : (s.modPart n f).gated = s.gated := rfl
@[simp] theorem modPart_stopped (s : State) (n : Nat) (f : Partition → Partition) : (s.modPart n f).stopped = s.stopped := rfl
@[simp] theorem modPart_ticks (s : State) (n : Nat) (f : Partition → Partition) : (s.modPart n f).ticks = s.ticks := rfl
@[simp] theorem modPart_issueTicks (s : State) (n : Nat) (f : Partition → Partition) : (s.modPart n f).issueTicks = s.issueTicks := rfl
@[simp] theorem modPart_frozenTicks (s : State) (n : Nat) (f : Partition → Partition) : (s.modPart n f).frozenTicks = s.frozenTicks := rfl
@[simp] theorem modPart_hostTime (s : State) (n : Nat) (f : Partition → Partition) : (s.modPart n f).hostTime = s.hostTime := rfl
@[simp] theorem modPart_clusters (s : State) (n : Nat) (f : Partition → Partition) : (s.modPart n f).clusters = s.clusters := rfl
@[simp] theorem modPart_cores (s : State) (n : Nat) (f : Partition → Partition) : (s.modPart n f).cores = s.cores := rfl
@[simp] theorem modPart_dieSt (s : State) (n : Nat) (f : Partition → Partition) : (s.modPart n f).dieSt = s.dieSt := rfl
@[simp] theorem modPart_ctxs (s : State) (n : Nat) (f : Partition → Partition) : (s.modPart n f).ctxs = s.ctxs := rfl
@[simp] theorem modPart_grids (s : State) (n : Nat) (f : Partition → Partition) : (s.modPart n f).grids = s.grids := rfl
@[simp] theorem modPart_blocks (s : State) (n : Nat) (f : Partition → Partition) : (s.modPart n f).blocks = s.blocks := rfl
@[simp] theorem modPart_skeins (s : State) (n : Nat) (f : Partition → Partition) : (s.modPart n f).skeins = s.skeins := rfl
@[simp] theorem modPart_vfs (s : State) (n : Nat) (f : Partition → Partition) : (s.modPart n f).vfs = s.vfs := rfl
@[simp] theorem modPart_files (s : State) (n : Nat) (f : Partition → Partition) : (s.modPart n f).files = s.files := rfl
@[simp] theorem modPart_nvme (s : State) (n : Nat) (f : Partition → Partition) : (s.modPart n f).nvme = s.nvme := rfl
@[simp] theorem modPart_quarantined (s : State) (n : Nat) (f : Partition → Partition) : (s.modPart n f).quarantined = s.quarantined := rfl
@[simp] theorem modPart_groups (s : State) (n : Nat) (f : Partition → Partition) : (s.modPart n f).groups = s.groups := rfl
@[simp] theorem modPart_uints (s : State) (n : Nat) (f : Partition → Partition) : (s.modPart n f).uints = s.uints := rfl
@[simp] theorem modPart_grants (s : State) (n : Nat) (f : Partition → Partition) : (s.modPart n f).grants = s.grants := rfl
@[simp] theorem modPart_failedUnits (s : State) (n : Nat) (f : Partition → Partition) : (s.modPart n f).failedUnits = s.failedUnits := rfl
@[simp] theorem modPart_egressed (s : State) (n : Nat) (f : Partition → Partition) : (s.modPart n f).egressed = s.egressed := rfl
@[simp] theorem modPart_errorLog (s : State) (n : Nat) (f : Partition → Partition) : (s.modPart n f).errorLog = s.errorLog := rfl
@[simp] theorem modPart_coreRead (s : State) (n : Nat) (f : Partition → Partition) : (s.modPart n f).coreRead = s.coreRead := rfl
@[simp] theorem modPart_reserves (s : State) (n : Nat) (f : Partition → Partition) : (s.modPart n f).reserves = s.reserves := rfl
@[simp] theorem modPart_appInts (s : State) (n : Nat) (f : Partition → Partition) : (s.modPart n f).appInts = s.appInts := rfl
@[simp] theorem modPart_hem (s : State) (n : Nat) (f : Partition → Partition) : (s.modPart n f).hem = s.hem := rfl
@[simp] theorem modPart_inbound (s : State) (n : Nat) (f : Partition → Partition) : (s.modPart n f).inbound = s.inbound := rfl
@[simp] theorem modPart_posted (s : State) (n : Nat) (f : Partition → Partition) : (s.modPart n f).posted = s.posted := rfl
@[simp] theorem modPart_heldOutside (s : State) (n : Nat) (f : Partition → Partition) : (s.modPart n f).heldOutside = s.heldOutside := rfl
@[simp] theorem modPart_windowReads (s : State) (n : Nat) (f : Partition → Partition) : (s.modPart n f).windowReads = s.windowReads := rfl
@[simp] theorem modPart_ioPages (s : State) (n : Nat) (f : Partition → Partition) : (s.modPart n f).ioPages = s.ioPages := rfl
@[simp] theorem modPart_nextId (s : State) (n : Nat) (f : Partition → Partition) : (s.modPart n f).nextId = s.nextId := rfl
@[simp] theorem modPart_own (s : State) (n : Nat) (f : Partition → Partition) : (s.modPart n f).own = s.own := rfl
@[simp] theorem modPart_tables (s : State) (n : Nat) (f : Partition → Partition) : (s.modPart n f).tables = s.tables := rfl
@[simp] theorem modPart_bootImagesOk (s : State) (n : Nat) (f : Partition → Partition) : (s.modPart n f).bootImagesOk = s.bootImagesOk := rfl
@[simp] theorem modPart_images (s : State) (n : Nat) (f : Partition → Partition) : (s.modPart n f).images = s.images := rfl
@[simp] theorem modPart_failedImage (s : State) (n : Nat) (f : Partition → Partition) : (s.modPart n f).failedImage = s.failedImage := rfl
@[simp] theorem modPart_agenda (s : State) (n : Nat) (f : Partition → Partition) : (s.modPart n f).agenda = s.agenda := rfl
@[simp] theorem modPart_turn (s : State) (n : Nat) (f : Partition → Partition) : (s.modPart n f).turn = s.turn := rfl
@[simp] theorem modPart_issuing (s : State) (n : Nat) (f : Partition → Partition) : (s.modPart n f).issuing = s.issuing := rfl
@[simp] theorem modPart_free (s : State) (n : Nat) (f : Partition → Partition) : (s.modPart n f).free = s.free := rfl

/-! The part that each change does touch. -/

theorem setSkein_skeins (s : State) (k : Skein) : (s.setSkein k).skeins = putBy (·.id) k s.skeins := rfl
theorem setCtx_ctxs (s : State) (c : Context) : (s.setCtx c).ctxs = putBy (·.id) c s.ctxs := rfl
theorem setGrid_grids (s : State) (g : Grid) : (s.setGrid g).grids = putBy (·.id) g s.grids := rfl
theorem setBlock_blocks (s : State) (b : Block) : (s.setBlock b).blocks = s.blocks.map fun x => if x.grid == b.grid && x.num == b.num then b else x := rfl
theorem setVf_vfs (s : State) (v : VF) : (s.setVf v).vfs = putBy (·.id) v s.vfs := rfl
theorem modCluster_clusters (s : State) (n : Nat) (f : Cluster → Cluster) : (s.modCluster n f).clusters = s.clusters.modify n f := rfl
theorem modCore_cores (s : State) (n : Nat) (f : Core → Core) : (s.modCore n f).cores = s.cores.modify n f := rfl
theorem modDie_dieSt (s : State) (n : Nat) (f : Die → Die) : (s.modDie n f).dieSt = s.dieSt.modify n f := rfl
theorem modPart_parts (s : State) (n : Nat) (f : Partition → Partition) : (s.modPart n f).parts = s.parts.modify n f := rfl

/-! One split of a skein changed. -/

@[simp] theorem setSplit_id (k : Skein) (p : Split) : (k.setSplit p).id = k.id := rfl
@[simp] theorem setSplit_ctx (k : Skein) (p : Split) : (k.setSplit p).ctx = k.ctx := rfl
@[simp] theorem setSplit_grid (k : Skein) (p : Split) : (k.setSplit p).grid = k.grid := rfl
@[simp] theorem setSplit_block (k : Skein) (p : Split) : (k.setSplit p).block = k.block := rfl
@[simp] theorem setSplit_num (k : Skein) (p : Split) : (k.setSplit p).num = k.num := rfl
@[simp] theorem setSplit_window (k : Skein) (p : Split) : (k.setSplit p).window = k.window := rfl
@[simp] theorem setSplit_lanes (k : Skein) (p : Split) : (k.setSplit p).lanes = k.lanes := rfl
@[simp] theorem setSplit_sets (k : Skein) (p : Split) : (k.setSplit p).sets = k.sets := rfl
@[simp] theorem setSplit_swlo (k : Skein) (p : Split) : (k.setSplit p).swlo = k.swlo := rfl
@[simp] theorem setSplit_lfm (k : Skein) (p : Split) : (k.setSplit p).lfm = k.lfm := rfl
@[simp] theorem setSplit_lfmSet (k : Skein) (p : Split) : (k.setSplit p).lfmSet = k.lfmSet := rfl
@[simp] theorem setSplit_stack (k : Skein) (p : Split) : (k.setSplit p).stack = k.stack := rfl
@[simp] theorem setSplit_nextUid (k : Skein) (p : Split) : (k.setSplit p).nextUid = k.nextUid := rfl
@[simp] theorem setSplit_cur (k : Skein) (p : Split) : (k.setSplit p).cur = k.cur := rfl
@[simp] theorem setSplit_pend (k : Skein) (p : Split) : (k.setSplit p).pend = k.pend := rfl
@[simp] theorem setSplit_stores (k : Skein) (p : Split) : (k.setSplit p).stores = k.stores := rfl
@[simp] theorem setSplit_streams (k : Skein) (p : Split) : (k.setSplit p).streams = k.streams := rfl
@[simp] theorem setSplit_lastW (k : Skein) (p : Split) : (k.setSplit p).lastW = k.lastW := rfl
@[simp] theorem setSplit_lastM (k : Skein) (p : Split) : (k.setSplit p).lastM = k.lastM := rfl
@[simp] theorem setSplit_cmds (k : Skein) (p : Split) : (k.setSplit p).cmds = k.cmds := rfl
@[simp] theorem setSplit_mq (k : Skein) (p : Split) : (k.setSplit p).mq = k.mq := rfl
@[simp] theorem setSplit_faults (k : Skein) (p : Split) : (k.setSplit p).faults = k.faults := rfl
@[simp] theorem setSplit_preqs (k : Skein) (p : Split) : (k.setSplit p).preqs = k.preqs := rfl
@[simp] theorem setSplit_wbs (k : Skein) (p : Split) : (k.setSplit p).wbs = k.wbs := rfl
@[simp] theorem setSplit_stop (k : Skein) (p : Split) : (k.setSplit p).stop = k.stop := rfl
@[simp] theorem setSplit_recipe (k : Skein) (p : Split) : (k.setSplit p).recipe = k.recipe := rfl
@[simp] theorem setSplit_removed (k : Skein) (p : Split) : (k.setSplit p).removed = k.removed := rfl
@[simp] theorem setSplit_backing (k : Skein) (p : Split) : (k.setSplit p).backing = k.backing := rfl
@[simp] theorem setSplit_flaw (k : Skein) (p : Split) : (k.setSplit p).flaw = k.flaw := rfl
@[simp] theorem setSplit_badRegs (k : Skein) (p : Split) : (k.setSplit p).badRegs = k.badRegs := rfl
@[simp] theorem setSplit_acquired (k : Skein) (p : Split) : (k.setSplit p).acquired = k.acquired := rfl

end Sys2Proof.Machine
end

