-- ==== Sys2Proof/Laws/Keys.lean ====
section
/-! SUPPORT. Reading a keyed part back after it was replaced, and reading another one. -/

namespace Sys2Proof.Machine

/-- Looking up a key after its element was replaced gives the new element, if there was one. -/
theorem find_putBy_same {α : Type} (key : α → Nat) (x : α) (l : List α) :
    (putBy key x l).find? (fun y => key y == key x) = (l.find? (fun y => key y == key x)).map fun _ => x := by
  induction l with
  | nil => rfl
  | cons y t ih =>
    simp only [putBy, List.map_cons, List.find?_cons] at *
    by_cases h : key y = key x
    · simp [h]
    · have h' : (key y == key x) = false := by simp [h]
      simp only [h', Bool.false_eq_true, if_false]
      exact ih

/-- Looking up another key is not affected. -/
theorem find_putBy_other {α : Type} (key : α → Nat) (x : α) (n : Nat) (h : n ≠ key x) (l : List α) :
    (putBy key x l).find? (fun y => key y == n) = l.find? (fun y => key y == n) := by
  induction l with
  | nil => rfl
  | cons y t ih =>
    simp only [putBy, List.map_cons, List.find?_cons] at *
    by_cases hy : key y = key x
    · have h1 : (key x == n) = false := by simp; omega
      have h2 : (key y == n) = false := by simp; omega
      simp only [hy, beq_self_eq_true, if_true, h1]
      rw [hy] at h2
      exact ih
    · have h' : (key y == key x) = false := by simp [hy]
      simp only [h', Bool.false_eq_true, if_false]
      split
      · rfl
      · exact ih

/-- A skein just written is read back. -/
theorem skein_setSkein_same {s : State} {k : Skein} (h : (s.skein? k.id).isSome) :
    (s.setSkein k).skein? k.id = some k := by
  have e := find_putBy_same (fun x : Skein => x.id) k s.skeins
  simp only [State.skein?, State.setSkein] at *
  rw [e]
  cases hf : s.skeins.find? (fun y => y.id == k.id) with
  | none => rw [hf] at h; cases h
  | some y => rfl

/-- Another skein is not affected. -/
theorem skein_setSkein_other (s : State) (k : Skein) (sid : Nat) (h : sid ≠ k.id) :
    (s.setSkein k).skein? sid = s.skein? sid :=
  find_putBy_other (fun x : Skein => x.id) k sid h s.skeins

/-- A skein that was found has the identity it was looked up by. -/
theorem skein_id {s : State} {sid : Nat} {k : Skein} (h : s.skein? sid = some k) : k.id = sid := by
  have := List.find?_some h
  simpa using this

/-- A split that was found has the identity it was looked up by. -/
theorem split_uid {k : Skein} {uid : Nat} {p : Split} (h : k.split? uid = some p) : p.uid = uid := by
  have := List.find?_some h
  simpa using this

/-- A split just written is read back. -/
theorem split_setSplit_same {k : Skein} {p : Split} (h : (k.split? p.uid).isSome) :
    (k.setSplit p).split? p.uid = some p := by
  have e := find_putBy_same (fun x : Split => x.uid) p k.splits
  simp only [Skein.split?, Skein.setSplit] at *
  rw [e]
  cases hf : k.splits.find? (fun y => y.uid == p.uid) with
  | none => rw [hf] at h; cases h
  | some y => rfl

/-- What the issuing skein and split are: running, and READY (R137, R138). -/
theorem current_cases {s : State} {k : Skein} {p : Split} (h : s.current = some (k, p)) :
    s.skein? k.id = some k ∧ k.split? p.uid = some p ∧ k.stop = none ∧ p.st = .ready := by
  simp only [State.current] at h
  split at h
  · cases h
  · split at h
    · cases h
    · rename_i hk
      split at h
      · cases h
      · rename_i hp
        split at h
        · rename_i hc
          simp only [Option.some.injEq, Prod.mk.injEq] at h
          obtain ⟨rfl, rfl⟩ := h
          simp only [Bool.and_eq_true, Option.isNone_iff_eq_none, beq_iff_eq] at hc
          have e1 := skein_id hk
          have e2 := split_uid hp
          exact ⟨e1 ▸ hk, e2 ▸ hp, hc.1, hc.2⟩
        · cases h

end Sys2Proof.Machine
end

