-- ==== Sys2Proof/Laws/Issue.lean ====
section
/-! SUPPORT. Everything that issuing a word can do (R72, R87, R137, R200, R344). -/

namespace Sys2Proof.Machine

/-- With no split issuing, a word has no meaning. -/
theorem issue_none {i : Instr} {s : State} {body : Iss → Res State} (h : s.current = none) :
    issue i s body = .fault .noIssuer := by
  simp only [issue, h]

/-- The illegal-instruction trap of the group comes before the word's own checks. -/
theorem issue_illegal {i : Instr} {s : State} {body : Iss → Res State} {k : Skein} {p : Split} {word : Addr} {detail : Nat}
    (h : s.current = some (k, p)) (hf : groupFault i (p.hints.gpc.getD p.pc) p.pc p.hints = some (word, detail)) :
    issue i s body = .next (s.trapStop k p (p.hints.gpc.getD p.pc) word (dnr 1 detail) p.em [] p.co) := by
  simp only [issue, h, hf]

/-- A word whose checks pass has its effect. -/
theorem issue_ok {i : Instr} {s t : State} {body : Iss → Res State} {k : Skein} {p : Split}
    (h : s.current = some (k, p)) (hf : groupFault i (p.hints.gpc.getD p.pc) p.pc p.hints = none)
    (hb : body (Iss.start s k p) = .ok t) :
    issue i s body = .next (t.afterWord k.id p.uid (k.swlo.getLsbD 1) p.counted) := by
  simp only [issue, h, hf, hb]

/-- A word whose checks meet a trap is stopped there, with none of its effect. -/
theorem issue_trap {i : Instr} {s : State} {body : Iss → Res State} {k : Skein} {p : Split} {code : BitVec 16} {lfm : Mask}
    {addrs : List (Nat × Nat)} {set : OSet}
    (h : s.current = some (k, p)) (hf : groupFault i (p.hints.gpc.getD p.pc) p.pc p.hints = none)
    (hb : body (Iss.start s k p) = .error (.trap code lfm addrs set)) :
    issue i s body = .next (s.trapStop k p (p.hints.gpc.getD p.pc) p.pc code lfm addrs set) := by
  simp only [issue, h, hf, hb]

/-- A word whose checks meet a translation fault parks its split with itself to perform again, or waits for room in the fault
buffer. -/
theorem issue_park {i : Instr} {s : State} {body : Iss → Res State} {k : Skein} {p : Split} {kind : Nat}
    {vas : List (Nat × Nat)} {bad : Bool} {kept : Option Kept}
    (h : s.current = some (k, p)) (hf : groupFault i (p.hints.gpc.getD p.pc) p.pc p.hints = none)
    (hb : body (Iss.start s k p) = .error (.park kind vas bad kept)) :
    issue i s body = .next (s.meetFault k p (p.hints.gpc.getD p.pc) p.pc kind vas bad
      (some ⟨i, p.pc, { p.hints with gpc := some (p.hints.gpc.getD p.pc) }, kept, p.counted⟩)) := by
  simp only [issue, h, hf, hb]

/-- A word whose checks meet a resource in use stalls its split. -/
theorem issue_stall {i : Instr} {s : State} {body : Iss → Res State} {k : Skein} {p : Split} {on : StallOn}
    (h : s.current = some (k, p)) (hf : groupFault i (p.hints.gpc.getD p.pc) p.pc p.hints = none)
    (hb : body (Iss.start s k p) = .error (.stall on)) :
    issue i s body = .next (s.stallOn k p on) := by
  simp only [issue, h, hf, hb]

/-- A word that sends a request to PCIe memory stalls its split until the completion. -/
theorem issue_send {i : Instr} {s t : State} {body : Iss → Res State} {k : Skein} {p : Split} {lanes : Mask}
    (h : s.current = some (k, p)) (hf : groupFault i (p.hints.gpc.getD p.pc) p.pc p.hints = none)
    (hb : body (Iss.start s k p) = .error (.send lanes t)) :
    issue i s body = .next (t.stallOn (t.withSplit k p) p (.pcie lanes [])) := by
  simp only [issue, h, hf, hb]

/-- A word whose read meets an uncorrectable error traps with the error counted. -/
theorem issue_dataError {i : Instr} {s t : State} {body : Iss → Res State} {k : Skein} {p : Split} {code : BitVec 16} {lfm : Mask}
    {addrs : List (Nat × Nat)} {set : OSet}
    (h : s.current = some (k, p)) (hf : groupFault i (p.hints.gpc.getD p.pc) p.pc p.hints = none)
    (hb : body (Iss.start s k p) = .error (.dataError code lfm addrs set t)) :
    issue i s body = .next (t.trapStop (t.withSplit k p) p (p.hints.gpc.getD p.pc) p.pc code lfm addrs set) := by
  simp only [issue, h, hf, hb]

/-- Issuing a word of a running split always answers a next state. -/
theorem issue_next {i : Instr} {s : State} {body : Iss → Res State} {k : Skein} {p : Split} (h : s.current = some (k, p)) :
    ∃ t, issue i s body = .next t := by
  cases hf : groupFault i (p.hints.gpc.getD p.pc) p.pc p.hints with
  | some w => exact ⟨_, issue_illegal h (word := w.1) (detail := w.2) hf⟩
  | none =>
    cases hb : body (Iss.start s k p) with
    | ok t => exact ⟨_, issue_ok h hf hb⟩
    | error c =>
      cases c with
      | trap code lfm addrs set => exact ⟨_, issue_trap h hf hb⟩
      | park kind vas bad kept => exact ⟨_, issue_park h hf hb⟩
      | stall on => exact ⟨_, issue_stall h hf hb⟩
      | send lanes t => exact ⟨_, issue_send h hf hb⟩
      | dataError code lfm addrs set t => exact ⟨_, issue_dataError h hf hb⟩

/-- Binding in the checks of a word: an answer that goes on. -/
theorem res_bind_ok {α β : Type} {x : Res α} {f : α → Res β} {a : α} (h : x = .ok a) : (x >>= f) = f a := by
  rw [h]; rfl

/-- Binding in the checks of a word: a cause that is met. -/
theorem res_bind_error {α β : Type} {x : Res α} {f : α → Res β} {c : Check} (h : x = .error c) : (x >>= f) = .error c := by
  rw [h]; rfl

/-- A condition that holds lets a word go on. -/
theorem need_true {i : Iss} {code : BitVec 16} {lfm : Mask} : i.need true code lfm = .ok () := rfl

/-- A condition that fails is a trap with the sets read so far. -/
theorem need_false {i : Iss} {code : BitVec 16} {lfm : Mask} :
    i.need false code lfm = .error (.trap code lfm [] (i.rd ||| i.p.co)) := rfl

end Sys2Proof.Machine
end

