-- ==== Sys2Proof/Laws/Memory.lean ====
section
/-! SUPPORT. Every operation on the cells of a space keeps their canonical form. -/

namespace Sys2Proof.Machine

/-- No cell of the list stands at or below an address. -/
def above (a : Nat) (l : List Host.Cell) : Prop := ∀ c ∈ l, a < c.1

/-- The canonical form, one cell at a time. -/
theorem wf_cons (x : Nat) (b : Byte) (t : List Host.Cell) :
    Memory.wf ((x, b) :: t) = true ↔ b ≠ 0#8 ∧ above x t ∧ Memory.wf t = true := by
  induction t generalizing x b with
  | nil => simp [Memory.wf, above]
  | cons c t ih =>
    obtain ⟨y, d⟩ := c
    have h := ih y d
    simp only [Memory.wf, Bool.and_eq_true, bne_iff_ne, ne_eq, decide_eq_true_eq] at *
    constructor
    · rintro ⟨⟨hb, hx⟩, ht⟩
      refine ⟨hb, ?_, ht⟩
      intro c hc
      rcases List.mem_cons.mp hc with rfl | hc
      · exact hx
      · exact Nat.lt_trans hx ((h.mp ht).2.1 c hc)
    · rintro ⟨hb, hx, ht⟩
      exact ⟨⟨hb, hx (y, d) List.mem_cons_self⟩, ht⟩

/-- A put keeps every cell above an address that it is above itself. -/
theorem cellPut_above {a x : Nat} {b : Byte} {l : List Host.Cell} (hx : x < a) (h : above x l) :
    above x (cellPut a b l) := by
  induction l with
  | nil => intro c hc; simp only [cellPut] at hc; split at hc <;> simp_all
  | cons q t ih =>
    obtain ⟨y, d⟩ := q
    have hy : x < y := h (y, d) List.mem_cons_self
    have ht : above x t := fun c hc => h c (List.mem_cons_of_mem _ hc)
    have ih := ih ht
    intro c hc
    simp only [cellPut] at hc
    split at hc
    · split at hc
      · exact h c hc
      · rcases List.mem_cons.mp hc with rfl | hc
        · exact hx
        · exact h c hc
    · split at hc
      · split at hc
        · exact ht c hc
        · rcases List.mem_cons.mp hc with rfl | hc
          · exact hx
          · exact ht c hc
      · rcases List.mem_cons.mp hc with rfl | hc
        · exact hy
        · exact ih c hc

/-- Writing one byte keeps the canonical form. -/
theorem cellPut_wf {l : List Host.Cell} (a : Nat) (b : Byte) (h : Memory.wf l = true) :
    Memory.wf (cellPut a b l) = true := by
  induction l with
  | nil => simp only [cellPut]; split <;> simp_all [Memory.wf]
  | cons q t ih =>
    obtain ⟨y, d⟩ := q
    obtain ⟨hd, hy, ht⟩ := (wf_cons y d t).mp h
    have ih := ih ht
    simp only [cellPut]
    split
    · rename_i hlt
      split
      · exact h
      · rename_i hb
        refine (wf_cons _ _ _).mpr ⟨hb, ?_, h⟩
        intro c hc
        rcases List.mem_cons.mp hc with rfl | hc
        · exact hlt
        · exact Nat.lt_trans hlt (hy c hc)
    · rename_i hge
      split
      · rename_i heq
        subst heq
        split
        · exact ht
        · rename_i hb
          exact (wf_cons _ _ _).mpr ⟨hb, hy, ht⟩
      · rename_i hne
        exact (wf_cons _ _ _).mpr ⟨hd, cellPut_above (by omega) hy, ih⟩

/-- Writing bytes keeps the canonical form. -/
theorem cellsWrite_wf {l : List Host.Cell} (a : Nat) (bs : List Byte) (h : Memory.wf l = true) :
    Memory.wf (cellsWrite l a bs) = true := by
  induction bs generalizing l a with
  | nil => exact h
  | cons b t ih => exact ih (a + 1) (cellPut_wf a b h)

/-- Leaving cells out keeps the canonical form. -/
theorem filter_wf {l : List Host.Cell} (p : Host.Cell → Bool) (h : Memory.wf l = true) :
    Memory.wf (l.filter p) = true := by
  induction l with
  | nil => rfl
  | cons q t ih =>
    obtain ⟨y, d⟩ := q
    obtain ⟨hd, hy, ht⟩ := (wf_cons y d t).mp h
    simp only [List.filter_cons]
    split
    · exact (wf_cons _ _ _).mpr ⟨hd, fun c hc => hy c (List.mem_of_mem_filter hc), ih ht⟩
    · exact ih ht

/-- Clearing a range keeps the canonical form. -/
theorem cellsClear_wf {l : List Host.Cell} (a n : Nat) (h : Memory.wf l = true) :
    Memory.wf (cellsClear l a n) = true := filter_wf _ h

/-- In canonical cells an address below every cell reads 0. -/
theorem cellGet_above {a : Nat} {l : List Host.Cell} (h : above a l) : cellGet l a = 0#8 := by
  induction l with
  | nil => rfl
  | cons q t ih =>
    obtain ⟨y, d⟩ := q
    have hy : a < y := h (y, d) List.mem_cons_self
    simp only [cellGet]
    rw [if_neg (by omega)]
    exact ih fun c hc => h c (List.mem_cons_of_mem _ hc)

/-- The memory of the machine after reset is in canonical form. -/
theorem reset_wf : Memory.wf State.reset.mem = true := rfl

end Sys2Proof.Machine
end

