-- ==== Sys2Proof/Laws/Operands.lean ====
section
/-! SUPPORT. Everything that the operand checks can do, and what a lane instruction completes with (R14, R18, R22, R32, R33,
R87, R88). -/

namespace Sys2Proof.Machine

/-- Operands that meet no failed register pass as they are. -/
theorem intact_ok {i x : Iss} {ops : List Opd} (h : i.intact ops = .ok x) : x = i := by
  unfold Iss.intact at h
  simp only at h
  split at h
  · injection h with h; exact h.symm
  · cases h

/-- A word that is no replay passes its operand checks only with operands inside the window and aligned. With no write outstanding it then
reads the skein's own lane files, and nothing else changes. -/
theorem operands_of_no_pend {i x : Iss} {ops : List Opd} (hn : i.kept = none) (hp : i.k.pend = []) (h : i.operands ops = .ok x) :
    x = { i with rd := i.readSets i.k ops, files := i.k.lanes } := by
  have e : { i.k with pend := [] } = i.k := by rw [← hp]
  unfold Iss.operands Iss.operandsBut at h
  rw [hn] at h
  simp only [e, hp, List.isEmpty_nil, if_true] at h
  split at h
  · simp [Iss.trap] at h
  · split at h
    · simp [Iss.trap] at h
    · exact (intact_ok h).trans (by rw [hn])

/-- The operand checks leave the hints, the addresses and the split of the word as they were, and of the skein all but its lane files,
its outstanding writes and its failed registers. -/
theorem operands_keeps {i x : Iss} {ops : List Opd} (h : i.operands ops = .ok x) :
    x.h = i.h ∧ x.pc = i.pc ∧ x.gpc = i.gpc ∧ x.p = i.p ∧
      x.k = { i.k with lanes := x.k.lanes, pend := x.k.pend, badRegs := x.k.badRegs } := by
  unfold Iss.operands Iss.operandsBut at h
  split at h
  · injection h with h
    subst h
    exact ⟨rfl, rfl, rfl, rfl, rfl⟩
  · simp only at h
    split at h
    · simp [Iss.trap] at h
    · split at h
      · simp [Iss.trap] at h
      · split at h
        · have := intact_ok h
          subst this
          exact ⟨rfl, rfl, rfl, rfl, rfl⟩
        · split at h
          · simp [Iss.trap] at h
          · have := intact_ok h
            subst this
            exact ⟨rfl, rfl, rfl, rfl, rfl⟩

/-- A lane instruction whose meaning is the frame with a row's operands and value gives what the row says. -/
theorem laneOp_gives {i : Instr} (r : LaneRow)
    (he : ∀ s, exec i s = laneOp i r.ws r.d r.a r.b r.useD r.useB s r.value) : r.Gives i := by
  intro s k p x hs ho
  have e := (operands_keeps ho).1
  unfold Completes
  rw [he]
  unfold laneOp
  apply issue_ok hs.1 hs.2
  unfold LaneRow.opds at ho
  show (Iss.operands _ _ >>= _) = _
  rw [res_bind_ok ho]
  unfold LaneRow.at
  rw [e]

/-- A row gives what another row gives when they agree on every operand that they can read. -/
theorem gives_congr {i : Instr} {r q : LaneRow} (h : r.Gives i)
    (hw : q.ws = r.ws ∧ q.d = r.d ∧ q.a = r.a ∧ q.b = r.b ∧ q.useB = r.useB ∧ q.useD = r.useD)
    (hv : ∀ (x : Iss) (l : Nat), q.at x l % 2 ^ (4 * (r.ws x.h).d.slices) = r.at x l % 2 ^ (4 * (r.ws x.h).d.slices)) :
    q.Gives i := by
  intro s k p x hs ho
  obtain ⟨h1, h2, h3, h4, h5, h6⟩ := hw
  have eo : q.opds = r.opds := by
    funext y; unfold LaneRow.opds; rw [h1, h2, h3, h4, h5, h6]
  rw [eo] at ho
  have := h s k p x hs ho
  have ew : x.wr q.d (q.ws x.h).d.slices (q.at x) x.rset = x.wr r.d (r.ws x.h).d.slices (r.at x) x.rset := by
    rw [h1, h2]; unfold Iss.wr imageOf; simp only [hv]
  rw [ew]
  exact this

/-- A word whose meaning is an issue completes with what its body answers. -/
theorem completes_of_body {i : Instr} {s t : State} {k : Skein} {p : Split} {body : Iss → Res State}
    (he : exec i s = issue i s body) (hs : Starts i s k p) (hb : body (Iss.start s k p) = .ok t) : Completes i s k p t :=
  he.trans (issue_ok hs.1 hs.2 hb)

/-- A word whose meaning is an issue traps with the cause that its body meets. -/
theorem traps_of_body {i : Instr} {s : State} {k : Skein} {p : Split} {body : Iss → Res State} {code : BitVec 16}
    {lfm : Mask} {addrs : List (Nat × Nat)} {set : OSet} (he : exec i s = issue i s body) (hs : Starts i s k p)
    (hb : body (Iss.start s k p) = .error (.trap code lfm addrs set)) : Traps i s k p code lfm addrs set :=
  he.trans (issue_trap hs.1 hs.2 hb)

/-- What the start of a word leaves of the issue's fields (R72, R138). -/
@[simp] theorem start_em (s : State) (k : Skein) (p : Split) : (Iss.start s k p).p.em = p.em := rfl
@[simp] theorem start_co (s : State) (k : Skein) (p : Split) : (Iss.start s k p).p.co = p.co := rfl
@[simp] theorem start_uid (s : State) (k : Skein) (p : Split) : (Iss.start s k p).p.uid = p.uid := rfl
@[simp] theorem start_members (s : State) (k : Skein) (p : Split) : (Iss.start s k p).p.members = p.members := rfl
@[simp] theorem start_h (s : State) (k : Skein) (p : Split) : (Iss.start s k p).h = p.hints := rfl
@[simp] theorem start_pc (s : State) (k : Skein) (p : Split) : (Iss.start s k p).pc = p.pc := rfl
@[simp] theorem start_gpc (s : State) (k : Skein) (p : Split) : (Iss.start s k p).gpc = p.hints.gpc.getD p.pc := rfl
@[simp] theorem start_id (s : State) (k : Skein) (p : Split) : (Iss.start s k p).k.id = k.id := rfl
@[simp] theorem start_rd (s : State) (k : Skein) (p : Split) : (Iss.start s k p).rd = 0 := rfl

end Sys2Proof.Machine
end

