-- ==== Sys2Proof/WellFormed.lean ====
section
/-! DEFINITION. Well-formed instructions: a row that is a word, with widths, codes and numbers its row accepts (R80 to R86). -/

namespace Sys2Proof

/-- The word form of an instruction is one that R80 to R86 accept. -/
def WellFormed (i : Instr) : Prop := (encode i).isSome = true ∧ accepts i = true

end Sys2Proof
end

