-- ==== Sys2Proof/Tests/Slice0.lean ====
section
/-! SUPPORT. Tests: words decoded bit by bit, ill-formed terms, single steps worked out from the rules by hand, and for each
obligation with hypotheses a concrete state that meets them together. -/

namespace Sys2Proof.Tests
open Sys2Proof Sys2Proof.Machine
set_option Elab.async false

/-- One skein, on core 0 of cluster 0, in the block of one grid, with the register values `vals` from v0 up in every lane. -/
def world (vals : List Nat) : State :=
  let s := State.reset.withFetchWord 32 0
  let g := { fetchGrid with spad := 8192, bays := 4, acc := 4, spo := 0 }
  let img : LaneFile := vals.foldr (fun v f => (f <<< 32) ||| BitVec.ofNat 1024 v) 0
  let ker : Kernel := ⟨0, 256, 1, 8192, 4, 4, 1, 0⟩
  { s with
    diesUp := BitVec.allOnes 24, stacksUp := BitVec.allOnes 24, seamsUp := BitVec.allOnes 38,
    issuing := some (0, 0), grids := [g], blocks := [Block.fresh g 0 0 [0]],
    skeins := s.skeins.map fun k => { k with lanes := List.replicate 32 img },
    parts := s.parts.modify 0 fun p => { p with
      used := true, otable := 1 :: p.otable.tail, modules := [3, 7], selfIndex := 1, hbm := [0], nextFrame := 16 },
    ctxs := [{ fetchCtx with objs := [⟨0, 65536, 65536, 131072, 0, 1, [ker], 0⟩], regions := [⟨0, 65536, 5, 0, 0, 7, 0, 0⟩] }],
    clusters := s.clusters.modify 0 fun c => { c with part := some 0, wins := [⟨0, 4096, [], [1, 1, 1, 1]⟩] } }

/-- A word starts in a state and its checks, written as in the statement, all answer; the last of them is a condition. -/
def meets (i : Instr) (s : State) (checks : Skein → Split → Iss → Res Bool) : Bool :=
  match s.current with
  | none => false
  | some (k, p) =>
    (groupFault i (p.hints.gpc.getD p.pc) p.pc p.hints).isNone &&
      (match checks k p (Iss.start s k p) with
       | .ok b => b
       | .error _ => false)

/-- A world with its skein, its split or its context changed. -/
def withSkein (f : Skein → Skein) (s : State) : State := { s with skeins := s.skeins.map f }
def withSplit (f : Split → Split) (s : State) : State := withSkein (fun k => { k with splits := k.splits.map f }) s
def withCtx (f : Context → Context) (s : State) : State := { s with ctxs := s.ctxs.map f }

/-- A check whose answer is kept only as passed. -/
def passes (i : Instr) (s : State) (checks : Skein → Split → Iss → Res α) : Bool :=
  meets i s fun k p o => do
    let _ ← checks k p o
    pure true

/-- A word starts in a state. -/
def starts (i : Instr) (s : State) : Bool := meets i s fun _ _ _ => pure true

/-! ## Decoding: words written bit by bit from the formats of R59 to R69 and the opcode map of R80 to R86 -/

theorem test_decode_arithmetic :
    decode 0b000010_000_00000001_00000010_0000011#32 = .ok (.sub .i4 1 2 3) ∧
    decode 0b000011_001_00000001_00000010_0000011#32 = .ok (.mul .i8 1 2 3) ∧
    decode 0b000100_010_11111111_00000010_0000011#32 = .ok (.mulh .i16 255 2 3) ∧
    decode 0b000110_101_00001000_11111111_0000011#32 = .ok (.mad .f16 8 255 3) ∧
    decode 0b000111_110_00000001_00000010_1111111#32 = .ok (.min .b16 1 2 127) ∧
    decode 0b001110_100_00010000_00000000_0100000#32 = .ok (.subus .i64 16 0 32) := by decide

theorem test_decode_logic :
    decode 0b010010_000_00000001_00000010_0000011#32 = .ok (.andn .i4 1 2 3) ∧
    decode 0b010110_011_00000001_00000010_0000011#32 = .ok (.rot .i32 1 2 3) ∧
    decode 0b011000_011_00000001_00000010_0000011#32 = .ok (.bfi .i32 1 2 3) ∧
    decode 0b011110_111_00000001_00000010_0000011#32 = .ok (.cmpleu .f32 1 2 3) ∧
    decode 0b011111_001_00000001_00000010_0000011#32 = .ok (.sel .i8 1 2 3) ∧
    decode 0b100000_110_00000001_00000010_0000011#32 = .ok (.dot2B16 1 2 3) := by decide

theorem test_decode_immediate_and_unary :
    decode 0b100001_011_00001000_00010000_1000000#32 = .ok (.addi .i32 8 16 64) ∧
    decode 0b101001_000_00001000_00010000_0000001#32 = .ok (.cmplti .i4 8 16 1) ∧
    decode 0b101011_011_00001000_00010000_0000000#32 = .ok (.mov .i32 8 16) ∧
    decode 0b101011_111_00001000_00010000_1_100_1_10#32 = .ok (.cvt .f32 8 16 .i64 1 2) := by decide

theorem test_decode_control :
    decode 0b101111_000_00010000_000000000000001#32 = .ok (.call 16 1) ∧
    decode 0b101101_111_00000001_111111111111111#32 = .ok (.bz 1 0x3FFFF) ∧
    decode 0b110001_100_00000000_000000000000000#32 = .ok (.launch 0 0x20000) ∧
    decode 0b110010_110_00000000_00000000_0000000#32 = .ok .yieldI := by decide

theorem test_decode_memory :
    decode 0b110100_000_00100000_00001_00_0000_0000#32 = .ok (.stg .i4 32 1 0) ∧
    decode 0b110101_011_00001000_00010_00_00_0_0_0101#32 = .ok (.lds .i32 8 2 5) ∧
    decode 0b110101_011_00001000_00010_00_00_1_1_0000#32 = .ok (.stc .i32 8 2) ∧
    decode 0b110110_101_00001_00_1_00010_00_0110_0000#32 = .ok (.aor 5 1 0 1 2 0 0) := by decide

theorem test_decode_skein_and_engines :
    decode 0b110111_011_00000001_00000010_0000011#32 = .ok (.shfl .i32 1 2 3) ∧
    decode 0b111000_010_00000001_00000010_0001010#32 = .ok (.lblq 1 2) ∧
    decode 0b111001_010_00000001_00000010_001_0100#32 = .ok (.spawn 1 2 4) ∧
    decode 0b111010_100_00000000_00000000_0000000#32 = .ok .ibar ∧
    decode 0b111011_100_00000001_00000010_0000000#32 = .ok (.uint 1 2) ∧
    decode 0b111100_101_00000001_00000000_1000000#32 = .ok (.wcollBcast 1) ∧
    decode 0b111101_101_00000001_00000010_0010000#32 = .ok (.mfreeAcc 1 2) ∧
    decode 0b111110_111_00000001_00000000_000_0011#32 = .ok (.getfr 1 3) ∧
    decode 0b111111_100_00000000000000000_111111#32 = .ok (.lka 63) := by decide

/-- R69, R86: words that no row has. -/
theorem test_decode_rejects :
    (decode 0#32).toOption = none ∧ (decode 0xFFFFFFFF#32).toOption = none ∧
    (decode 0b110010_111_00000000_00000000_0000000#32).toOption = none ∧
    (decode 0b101010_000_00000101_00000001_1111111#32).toOption = none ∧
    (decode 0b110010_011_00000000_00000000_0000001#32).toOption = none ∧ decodeBytes [1, 2, 3] = .error .shortFetch := by
  decide

/-! ## Well-formedness: one ill-formed term for each check -/

theorem test_wellformed_accepts : WellFormed (.add .f32 0 0 0) ∧ WellFormed (.cvt .f32 0 0 .i64 1 3) := by
  unfold WellFormed; decide
theorem test_illformed_event : ¬WellFormed (.skeinResume 0) := by unfold WellFormed; decide
theorem test_illformed_width : ¬WellFormed (.mulh .f16 0 0 0) ∧ ¬WellFormed (.sqrt .i32 0 0) ∧ ¬WellFormed (.ldg .f32 0 0 0 0) := by
  unfold WellFormed; decide
theorem test_illformed_byte_swap : ¬WellFormed (.bswap .i4 0 0) := by unfold WellFormed; decide
theorem test_illformed_extension : ¬WellFormed (.sxt .i8 0 0 1) := by unfold WellFormed; decide
theorem test_illformed_conversion :
    ¬WellFormed (.cvt .i32 0 0 .i32 0 0) ∧ ¬WellFormed (.cvt .i32 0 0 .i16 0 0) ∧ ¬WellFormed (.cvt .f16 0 0 .f32 1 0) := by
  unfold WellFormed; decide
theorem test_illformed_register : ¬WellFormed (.rds .i64 0 0) ∧ ¬WellFormed (.rds .i32 0 0x11) ∧ ¬WellFormed (.krd 0 64) := by
  unfold WellFormed; decide
theorem test_illformed_atomic :
    ¬WellFormed (.aadd 7 0 0 0 0 0 0) ∧ ¬WellFormed (.aadd 0 0 3 0 0 0 0) ∧ ¬WellFormed (.aadd 0 0 2 0 0 0 0) ∧
    ¬WellFormed (.axchg 0 0 0 1 0 0 0) ∧ ¬WellFormed (.aadd 0 0 0 1 0 2 0) := by unfold WellFormed; decide
theorem test_illformed_selectors :
    ¬WellFormed (.fence 0 0) ∧ ¬WellFormed (.fence 1 5) ∧ ¬WellFormed (.wcopy 0 0 6) ∧ ¬WellFormed (.wfill 0 0 3) ∧
    ¬WellFormed (.close 0 2 0) := by unfold WellFormed; decide
theorem test_illformed_perm : ¬WellFormed (.perm 0x00A0) ∧ ¬WellFormed (.perm 0x0081) := by unfold WellFormed; decide

/-! ## Effects: one step each, with values worked out from the rules by hand -/

/-- A register of lane 0 after an instruction and the landing of its long-latency write. -/
def after (i : Instr) (s : State) (r n : Nat) : Option Nat :=
  match exec i s with
  | .next t => (t.skein? 0).map fun k =>
    ofBits (((k.pend.foldl (fun f q => mergeLanes f q.img q.masks) k.lanes).getD 0 0)) (4 * r) (4 * n)
  | _ => none
where
  ofBits (f : LaneFile) (a n : Nat) : Nat := f.toNat / 2 ^ a % 2 ^ n

/-- The code of the stop that an instruction ends in. -/
def trapOf (i : Instr) (s : State) : Option Nat :=
  match exec i s with
  | .next t => (t.skein? 0).bind fun k => k.stop.map (·.record.code.toNat)
  | _ => none

/-- R91: wraps. -/
theorem test_add_wraps : after (.add .i32 16 0 8) (world [0xFFFFFFFF, 2]) 16 8 = some 1 := by decide +kernel
/-- R91: 1.0 + 2.0 = 3.0. -/
theorem test_add_float : after (.add .f32 16 0 8) (world [0x3F800000, 0x40000000]) 16 8 = some 0x40400000 := by decide +kernel
/-- R92: the high half of −1 × 2, signed and unsigned. -/
theorem test_mulh : after (.mulh .i32 16 0 8) (world [0xFFFFFFFF, 2]) 16 8 = some 0xFFFFFFFF := by decide +kernel
theorem test_mulhu : after (.mulhu .i32 16 0 8) (world [0xFFFFFFFF, 2]) 16 8 = some 1 := by decide +kernel
/-- R94: 100 + 100 in I8. -/
theorem test_adds_clamps : after (.adds .i8 16 0 8) (world [100, 100]) 16 2 = some 127 := by decide +kernel
/-- R96: the amount is taken modulo the width. -/
theorem test_shl_amount : after (.shl .i32 16 0 8) (world [1, 33]) 16 8 = some 2 := by decide +kernel
theorem test_sar_sign : after (.sar .i8 16 0 8) (world [0x80, 1]) 16 2 = some 0xC0 := by decide +kernel
/-- R102: −1 is the immediate 127. -/
theorem test_addi_sign : after (.addi .i32 16 0 127) (world [5]) 16 8 = some 4 := by decide +kernel
/-- R116: the link is the address after the CALL. -/
theorem test_call_link : after (.call 16 5) (world []) 16 16 = some 4 := by decide +kernel
/-- R161: SHFL takes lane 3's value. -/
theorem test_shfl : after (.shfl .i32 16 0 8) (withSkein (fun k => { k with
    lanes := (List.range 32).map fun l => BitVec.ofNat 1024 (l * 10 + 3 * 2 ^ 32) }) (world [])) 16 8 = some 30 := by decide +kernel
/-- R29, R118: a load reads its bytes with the lowest address as the low byte. -/
theorem test_load_little_endian :
    after (.ldg .i32 16 4 0 0) { world [0, 0, 0, 0, 0x1000] with mem := cellsWrite (world []).mem 0x51000 [1, 2, 3, 4] } 16 8 =
      some 0x04030201 := by decide +kernel
/-- R119, R248: a store's bytes reach memory when it is performed. -/
theorem test_store_performed :
    (match exec (.stg .i32 16 4 0) (withSplit (fun p => { p with em := 1 }) (world [0, 0, 0x04030201, 0, 0x1000])) with
     | .next t => match exec (.storePerformed 0 0) t with
       | .next u => cellsRead u.mem 0x51000 4
       | _ => []
     | _ => []) = [1, 2, 3, 4] := by decide +kernel
/-- R14, R18, R27, R86: the traps of a word. -/
theorem test_trap_window : trapOf (.add .i32 250 0 0) (world []) = some 0x8201 := by decide +kernel
theorem test_trap_alignment : trapOf (.add .i64 8 0 0) (world []) = some 0x8202 := by decide +kernel
theorem test_trap_illegal : trapOf (.illegalInstruction 0) (world []) = some 0x8100 := by decide +kernel
theorem test_trap_origin :
    trapOf (.stg .i32 16 4 0) (withSkein (fun k => { k with sets := List.replicate 32 2 }) (world [0, 0, 0, 0, 0x1000])) =
      some 0x8500 := by decide +kernel
/-- The first instruction after reset is the one that is placed. -/
theorem test_step_runs_the_word :
    (match step (State.reset.withFetchWord 32 0x84000005) with
     | .next t => (t.skein? 0).elim 0 fun k => (k.lanes.getD 31 0).toNat
     | _ => 0) = 5 := by decide +kernel

/-! ## Witnesses: a concrete state and operands that meet the hypotheses of each obligation

The checks of a word are written as the obligation writes them. Whether a signature verifies is not decided by the model
(log 15), so no concrete state meets the hypothesis that an installation succeeds. -/

/-! ### Encoding and the step -/

theorem witness_DecodeOfEncode : encode (.add .f32 255 255 127) = some 0x07FFFFFF#32 := by decide
theorem witness_EncodeOfDecode : decode 0x07FFFFFF#32 = .ok (.add .f32 255 255 127) := by decide

theorem witness_UnassignedWordsTrap :
    (decode 0#32).toOption = none ∧ fMajor 0#32 ≠ 0x3F ∧ starts .nop (world []) = true ∧ isWord (.mulh .f16 0 0 0) = true ∧
    accepts (.mulh .f16 0 0 0) = false ∧ fMajor (wordOf (.mulh .f16 0 0 0)) ≠ 0x3F ∧
    ((world []).current.elim false fun q => q.2.hints == Hints.empty) = true := by decide +kernel

theorem witness_StepRunsTheFetchedWord :
    let s := State.reset.withFetchWord 32 0x04000000
    s.agenda = [] ∧ s.halted = false ∧ s.idleCycle = false ∧ s.faultsDue.isNone = true ∧
    (s.nextCand.elim false fun c => (s.startIssue c).current.elim false fun q => q.2.again.isNone &&
      match (s.startIssue c).fetch q.1 q.2 with
      | .word w _ => decide (decode w = .ok (.add .i4 0 0 0))
      | _ => false) = true := by decide +kernel

/-- The same where the split has an instruction to perform again. -/
theorem witness_StepRunsTheFetchedWord_again :
    let s := withSplit (fun p => { p with again := some ⟨.nop, 0, Hints.empty, default, false⟩ }) (State.reset.withFetchWord 32 0x04000000)
    s.agenda = [] ∧ s.halted = false ∧ s.idleCycle = false ∧ s.faultsDue.isNone = true ∧
    (s.nextCand.elim false fun c => (s.startIssue c).current.elim false fun q => q.2.again.isSome) = true := by decide +kernel

/-- Which cycles are gated is an unknown of the model (log 7), so no concrete state meets the hypothesis of that clause. -/
theorem witness_StepWithoutAWord :
    isWord (.skeinResume 0) = false ∧ ({ State.reset with frozen := true } : State).agenda = [] ∧
    ({ State.reset with stopped := true } : State).frozen = false ∧
    ((world []).skeins.any fun k => k.stop.isNone && k.splits.any fun p => (world []).resolved k p .wringer) = true := by
  decide +kernel

/-! ### Lane instructions -/

theorem witness_LaneInstructionsComplete :
    passes (.add .i32 8 16 24) (world [1, 2, 3]) (fun _ _ o => o.operands ((rowT .i32 8 16 24 false addC).opds o)) = true ∧
    passes (.mad .i64 0 16 32) (world [1, 2, 3]) (fun _ _ o => o.operands ((rowT .i64 0 16 32 true madC).opds o)) = true ∧
    passes (.movi .i4 255 127) (world []) (fun _ _ o => o.operands [opdOut 255 1]) = true := by decide +kernel

theorem witness_IntegerArithmetic :
    let v : Widths := ⟨.i8, .i4, .i8⟩
    v.d.isInt = true ∧ 15 < 2 ^ v.a.bits ∧ 255 < 2 ^ v.b.bits ∧ 255 < 2 ^ v.d.bits ∧
    (laneRow (.add .i8 0 2 4)).isSome = true := by decide

theorem witness_SaturationLogicAndShifts :
    passes (.adds .i32 8 16 24) (world [1, 2, 3]) (fun _ _ o => o.operands ((rowT .i32 8 16 24 false addsC).opds o)) = true ∧
    passes (.rot .i4 8 16 24) (world [1, 2, 3]) (fun _ _ o => o.operands ((rowT .i4 8 16 24 false rotC).opds o)) = true := by
  decide +kernel

theorem witness_ImmediateRows :
    passes (.addi .i32 8 16 127) (world [1, 2, 3]) (fun _ _ o =>
      o.operands ((rowI .i32 8 16 127 true fun _ _ _ => 0).opds o)) = true ∧
    passes (.movi .i64 0 64) (world []) (fun _ _ o => o.operands [opdOut 0 16]) = true := by decide +kernel

theorem witness_BitFunctions :
    Width.i4.isInt = true ∧ 15 < 2 ^ Width.i4.bits ∧ (∀ j, Width.i4.bits - 4 ≤ j → j < Width.i4.bits →
      (BitVec.ofNat 4 0).getLsbD j = false) ∧ 15 < 2 ^ (extWidth 0).bits := by
  refine ⟨by decide, by decide, ?_, by decide⟩
  intro j _ _
  simp

theorem witness_FloatingRounding : 0xFFFF < 2 ^ (1 + fmtF16.eb + fmtF16.mb) ∧ fmtF16.value 0x7C00 ≠ .nan ∧
    fmtF16.value 0x7E00 = .nan := by decide +kernel

/-- An exact sum, an exact product, and a value that lies on an integer. -/
theorem witness_FloatingRounding_values :
    Fl.isSum [.fin false 1 0, .fin false 1 0] (.fin false 1 1) ∧ Fl.isProduct (.fin false 3 0) (.fin true 5 1) (.fin true 15 1) ∧
    (∀ r : Rnd, r.gives false 1 1) ∧ Width.f32.isFloat = true ∧ (fmtOf .f32).value 0x7FC00000 = .nan := by
  refine ⟨⟨[(false, 1, 0), (false, 1, 0)], rfl, ?_, by decide⟩, ⟨?_, ?_, ?_, ?_⟩, ?_, by decide, by decide +kernel⟩
  · norm_num [Fl.num]
  · simp
  · simp
  · simp
  · rintro n m e k p g h1 h2
    injection h1 with h1 h3 h4
    injection h2 with h2 h5 h6
    subst_vars
    rfl
  · intro r
    cases r <;> norm_num [Rnd.gives]

theorem witness_FloatingCompares : Width.f32.isFloat = true ∧ (fmtOf .f32).value 0x7FC00000 = .nan ∧
    (fmtOf .f32).value 0x7F800000 = .inf false ∧ (fmtOf .f32).value 0xFF800000 = .inf true ∧
    (∃ n m e, (fmtOf .f32).value 0x80000000 = .fin n m e) ∧ ∃ n m e, (fmtOf .f32).value 0x3F800000 = .fin n m e :=
  ⟨by decide +kernel, by decide +kernel, by decide +kernel, by decide +kernel, ⟨_, _, _, rfl⟩, ⟨_, _, _, rfl⟩⟩

/-- The word goes on and its skein is not stopped. -/
def goesOn (i : Instr) (s : State) : Bool :=
  match exec i s with
  | .next t => (t.skein? 0).elim false fun k => k.stop.isNone
  | _ => false

theorem witness_LaneFrame : laneOut (.add .i32 8 16 24) Hints.empty = some (8, 8) ∧ starts .nop (world []) = true ∧
    ((world []).current.elim false fun q => q.1.pend.isEmpty && !q.1.swlo.getLsbD 1) = true ∧
    goesOn (.add .i32 8 16 24) (world []) = true := by decide +kernel

/-! ### Memory, reset, placement, stops -/

theorem witness_MemoryReadsBack : Memory.wf State.reset.mem = true ∧ Memory.wf (cellsWrite [] 0 [1, 0, 2]) = true := by
  decide +kernel

/-- A step answers a next state. -/
def moves' (s : State) : Bool := match step s with | .next _ => true | _ => false

theorem witness_MemoryStaysCanonical : State.reset.memOk ∧ moves' State.reset = true :=
  ⟨⟨by decide, by decide, by decide +kernel, by decide⟩, by decide +kernel⟩
theorem witness_PartsStay : State.reset.shapeOk ∧ moves' State.reset = true := by
  unfold State.shapeOk
  decide +kernel

theorem witness_StopEntry : ((world []).skein? 0).isSome = true ∧ 0 < (world []).clusters.length := by decide +kernel

/-- The stop in which a word ends meets a condition, with the splits of its skein. -/
def stopIs (i : Instr) (s : State) (f : Stop → List Split → Bool) : Bool :=
  match exec i s with
  | .next t => (t.skein? 0).elim false fun k => k.stop.elim false fun st => f st k.splits
  | _ => false

/-- A split that moves at the resumption, at the end of a recipe stub and elsewhere, and one that does not. -/
theorem witness_Resumption :
    stopIs (.trap 0) (world []) (fun st ps => st.record.cause == 2 && ps.any fun p => p.uid == st.uid && p.stub.isNone) = true ∧
    stopIs (.brk 0) (withSplit (fun p => { p with stub := some (4, 64) }) (world [])) (fun st ps =>
      st.record.cause == 3 && ps.any fun p => p.uid == st.uid && p.stub == some (st.record.word + 4, 64)) = true ∧
    stopIs (.tack 0) (withCtx (fun c => { c with objs := c.objs.map (fun o => { o with nrec := 1 }), onCl := [⟨0, .stopping, 0, false⟩] })
      (world [])) (fun st _ => st.record.cause == 5 && st.record.imm == 0) = true ∧
    stopIs (.illegalInstruction 0) (world []) (fun st _ => st.record.cause == 0) = true ∧
    ((world []).skein? 0).elim false (fun k => k.stop.isNone && (k.split? 0).isSome) = true := by decide +kernel

/-! ### Checks, loads, stores -/

/-- A long-latency write of lane 0's v0, by what it loaded, with four words of lookahead left. -/
def aPend (src : List (Nat × Nat × Loc)) : Pend := ⟨0, 0, 0, 0, [(0, 4)], [], 1, [1], [15], [], src⟩

/-- The operand check of a world's issuing split answers as asked. -/
def checkIs (s : State) (ops : Mask → List Opd) (f : Iss → Bool) (g : BitVec 16 → Mask → Bool) : Bool :=
  s.current.elim false fun q => match (Iss.start s q.1 q.2).operands (ops q.2.em) with
    | .ok y => f y
    | .error (.trap c l _ _) => g c l
    | .error (.dataError c l _ _ _) => g c l
    | .error _ => false

theorem witness_OperandChecks :
    checkIs (world []) (fun em => [opdIn 248 8 em]) (fun _ => true) (fun _ _ => false) = true ∧
    checkIs (world []) (fun em => [opdIn 249 8 em]) (fun _ => false) (fun c _ => c == 0x8201) = true ∧
    checkIs (world []) (fun em => [opdIn 8 16 em]) (fun _ => false) (fun c _ => c == 0x8202) = true ∧
    checkIs (withSkein (fun k => { k with swlo := 1, pend := [aPend []] }) (world [])) (fun em => [opdIn 0 8 em]) (fun _ => false)
      (fun c _ => c == 0x8700) = true ∧
    checkIs (withSkein (fun k => { k with badRegs := [(3, 0)] }) (world [])) (fun em => [opdIn 0 8 em]) (fun _ => false)
      (fun c l => c == 0xCC06 && l == 8) = true ∧
    checkIs (withSkein (fun k => { k with badRegs := [(3, 1)] }) (world [])) (fun em => [opdIn 0 8 em]) (fun _ => true)
      (fun _ _ => false) = true ∧
    checkIs (withSplit (fun p => { p with again := some ⟨.nop, 0, Hints.empty, some default, false⟩ }) (world [])) (fun em => [opdIn 249 8 em])
      (fun y => y.kept.isSome) (fun _ _ => false) = true := by
  decide +kernel

/-- The checks of a store of v2 at the address pair (v4, v5), and of a load to v2. -/
def storeChecks (sp : Space) (o : Iss) (p : Split) : Res Unit := do
  let x ← o.operands [opdPair 32 p.em, opdIn 16 8 p.em]
  let (_, y) ← x.policy 0 true
  y.aligned 4 (y.ea 4)
  let as ← y.map sp 2 needStore (y.lanesAt 4 4)
  y.hold true as
def loadChecks (sp : Space) (o : Iss) (p : Split) : Res ReadView := do
  let x ← o.operands [opdPair 32 p.em, opdOut 16 8]
  let (q, y) ← x.policy 0 false
  y.aligned 4 (y.ea 4)
  let as ← y.map sp 1 needLoad (y.lanesAt 4 4)
  y.load q as

theorem witness_StoreOrigin :
    (storeRow (.stg .i32 16 4 0)).isSome = true ∧
    passes (.stg .i32 16 4 0) (world [1, 2, 3, 0, 0x1000]) (fun _ p o => storeChecks .g o p) = true ∧
    passes (.sts .i32 16 4) (world [1, 2, 3, 0, 8188]) (fun _ p o => storeChecks .s o p) = true ∧
    passes (.stc .i32 16 4) (world [1, 2, 3, 0, 4092]) (fun _ p o => storeChecks .c o p) = true ∧
    meets (.stg .i32 16 4 0) (withSkein (fun k => { k with sets := List.replicate 32 2 }) (world [1, 2, 3, 0, 0x1000]))
      (fun _ p o => do
        let x ← o.operands [opdPair 32 p.em, opdIn 16 8 p.em]
        let as ← x.map .g 2 needStore (x.lanesAt 4 4)
        pure (as.any fun a => a.parts.any fun b => b.sets.any fun e => (2 ||| p.co) &&& ~~~e != 0)) = true := by
  decide +kernel

theorem witness_StoreFrame : goesOn (.stg .i32 16 4 0) (world [1, 2, 3, 0, 0x1000]) = true ∧
    goesOn (.sts .i32 16 4) (world [1, 2, 3, 0, 8188]) = true ∧ goesOn (.stc .i32 16 4) (world [1, 2, 3, 0, 4092]) = true := by
  decide +kernel

theorem witness_LoadsComplete :
    passes (.ldg .i32 16 4 0 0) (world [1, 2, 3, 0, 0xFFFC]) (fun _ p o => loadChecks .g o p) = true ∧
    passes (.lds .i32 16 4 0) (world [1, 2, 3, 0, 8188]) (fun _ p o => loadChecks .s o p) = true ∧
    passes (.ldc .i32 16 4 0) (world [1, 2, 3, 0, 4092]) (fun _ p o => loadChecks .c o p) = true ∧
    ((world []).skeins.all fun k => k.stores.isEmpty && ((world []).core k.coreId).l1.isEmpty && ((world []).die k.die).pcie.isEmpty &&
      decide (16 + 8 ≤ k.window) && k.splits.all fun p => p.em == 0xFFFFFFFF) = true := by decide +kernel

theorem witness_StorePerformedFrame :
    let e : PStore := ⟨[0], locG 0x51000, [7], []⟩
    let f : PStore := ⟨[0], locG 0x51000, [8], []⟩
    let s := withSkein (fun k => { k with stores := [f, e] }) (world [])
    (s.skein? 0).isSome = true ∧ s.blocked f = false ∧ f.meets e = true := by decide +kernel

/-! ### Hints, transfers, divergence -/

/-- A world whose split has read some hint words. -/
def hinted (h : Hints) : State := withSplit (fun p => { p with pc := 4, hints := { h with gpc := some 0 } }) (world [])

/-- XIMM before ADD, which has no immediate; MIXW with a floating width before an integer ADD; a rejected group; and a
reserved kind. -/
theorem witness_HintWords :
    (hinted { Hints.empty with ximm := some 1, kinds := [0] }).current.isSome = true ∧ hintFits 0 0x05840818#32 = false ∧
    encode (.add .i32 8 16 24) = some 0x05840818#32 ∧ fMajor 0x05840818#32 ≠ 0x3F ∧
    (let h : Hints := { Hints.empty with mixw := some 0b111_011_011#9, kinds := [3] }
     (hinted h).current.isSome = true ∧ hintFits 3 0x05840818#32 = true ∧ hintSuits 3 h 0x05840818#32 = false) ∧
    (hinted { Hints.empty with kinds := [0, 0], bad := some (0, 1) }).current.isSome = true ∧ isWord (.add .i32 8 16 24) = true ∧
    (decode 0xFE800000#32).toOption = none ∧ fMajor 0xFE800000#32 = 0x3F := by decide +kernel

/-- A world whose lanes hold their own number in v0. -/
def lanesWorld : State := withSkein (fun k => { k with lanes := (List.range 32).map (BitVec.ofNat 1024) }) (world [])

theorem witness_BranchesComplete :
    starts (.bra 0x1FFFF) (world []) = true ∧ starts .nop (world []) = true ∧
    meets (.bz 0 5) (world [2]) (fun _ p o => do
      let x ← o.operands [opdIn 0 1 p.em]
      pure (laneIds.all fun l => x.bit0 l 0 == false)) = true ∧
    meets (.bnz 0 5) (world [1]) (fun _ p o => do
      let x ← o.operands [opdIn 0 1 p.em]
      pure (laneIds.all fun l => x.bit0 l 0 == true)) = true ∧
    meets (.bz 0 5) lanesWorld (fun _ p o => do
      let x ← o.operands [opdIn 0 1 p.em]
      pure (x.bit0 1 0 && !x.bit0 0 0)) = true := by decide +kernel

theorem witness_CallLinks : passes (.call 240 0) (world []) (fun _ _ o => o.operands [opdOut 240 16]) = true := by
  decide +kernel

/-- With no active lane. -/
def idle (s : State) : State := withSplit (fun p => { p with em := 0 }) s

theorem witness_RegisterTransfersComplete :
    meets (.ret 0) (world [8]) (fun _ p o => do
      let x ← o.operands [opdIn 0 16 p.em]
      pure (laneIds.all fun l => x.raw l 0 16 == 8)) = true ∧
    meets (.jmpi 0) (world [8]) (fun _ p o => do
      let x ← o.operands [opdIn 0 16 p.em]
      pure (laneIds.all fun l => x.raw l 0 16 == 8)) = true ∧
    meets (.calli 16 0) (world [8]) (fun _ p o => do
      let x ← o.operands [opdIn 0 16 p.em, opdOut 16 16]
      pure (laneIds.all fun l => x.raw l 0 16 == 8)) = true ∧
    passes (.calli 16 0) (idle (world [])) (fun _ p o => o.operands [opdIn 0 16 p.em, opdOut 16 16]) = true := by
  decide +kernel

/-- An entry of the stack whose paths are the two halves of the lanes. -/
def half : StackSlot := ⟨true, 8, false, 0xFFFFFFFF, 0, 0xFFFFFFFF, 0xFFFF0000, 4, 0, 1, none⟩
def nested (pc : Addr) (e : StackSlot) : State :=
  withSkein (fun k => { k with stack := [e], splits := k.splits.map fun p => { p with pc := pc, inner := some 0, members := 0xFFFF } })
    (world [])

theorem witness_DivergenceCompletes :
    meets (.split 0 5) lanesWorld (fun _ p o => do
      let x ← o.operands [opdIn 0 1 p.em]
      pure (decide (x.k.stack.length < 256) && laneIds.all fun l => (0xAAAAAAAA#32).getLsbD l == (p.em.getLsbD l && x.bit0 l 0))) =
      true ∧
    starts .join (nested 4 half) = true ∧ starts .join (nested 8 half) = true ∧ starts .yieldI (world []) = true := by
  decide +kernel

/-- EXIT of one of two splits, and of the last split of a skein, whose exit every barrier awaits. -/
theorem witness_DivergenceCompletes_exit :
    let two : State := withSkein (fun k => { k with
      splits := k.splits.flatMap fun p => [{ p with members := 0xFFFF, em := 0xFFFF }, { p with uid := 1, members := 0xFFFF0000 }] })
      (world [])
    let left (x : Iss) : Skein := x.k.exit x.p x.s.issueTicks
    meets .exit two (fun _ _ x => pure (!x.s.exitArrives (left x))) = true ∧
    meets .exit (world []) (fun _ _ x => do
      let _ ← x.releaseIf (fun _ => true) true
      pure (x.s.exitArrives (left x))) = true := by decide +kernel

theorem witness_SplitAndJoin :
    (0xAAAAAAAA#32 ≠ 0 ∧ 0xFFFFFFFF#32 &&& ~~~0xAAAAAAAA#32 ≠ 0) ∧
    (let e := { half with arrived := 0xFFFFFFFF }; e.used = true ∧ e.arrived = e.rejoin ∧ e.rejoin ≠ 0) := by decide

/-! ### Cross-lane words and registers -/

/-- Two operands of a cross-lane word at v0 and v2. -/
def crossChecks (n m : Nat) (p : Split) (o : Iss) : Res Iss := o.operands [opdIn 0 n (routed p.em p.hints.srcA), opdOut 16 m]

theorem witness_CrossLaneComplete :
    passes (.ballot 16 0) lanesWorld (fun _ p o => crossChecks 1 8 p o) = true ∧
    passes (.any .i32 16 0) lanesWorld (fun _ p o => crossChecks 1 8 p o) = true ∧
    passes (.all .i4 16 0) lanesWorld (fun _ p o => crossChecks 1 1 p o) = true ∧
    passes (.eqmask .i64 16 0) lanesWorld (fun _ p o => crossChecks 16 8 p o) = true ∧
    passes (.shfl .i32 16 0 8) lanesWorld (fun _ p o => do
      let x ← o.operands [opdIn 0 8 0, opdIn 8 2 (routed p.em p.hints.srcB), opdOut 16 8]
      x.operands [opdIn 0 8 (routed p.em fun l => p.hints.srcA (x.raw (p.hints.srcB l) 8 2 % 32))]) = true ∧
    passes (.any .i32 16 0) (idle lanesWorld) (fun _ p o => crossChecks 1 8 p o) = true := by decide +kernel

/-- One operand in the highest active lane. -/
def topChecks (a n : Nat) (p : Split) (o : Iss) : Res Iss := o.operands [opdIn a n (topLane p.em p.hints.srcA)]

theorem witness_RegisterWordsComplete :
    passes (.rds .i32 8 2) (world []) (fun _ _ o => o.operands [opdOut 8 8]) = true ∧
    passes (.rds .i64 16 16) (world []) (fun _ _ o => o.operands [opdOut 16 16]) = true ∧
    passes (.wrsEm 0) (world [5]) (fun _ p o => topChecks 0 8 p o) = true ∧
    passes (.wrsSw 0) (world [5]) (fun _ p o => topChecks 0 8 p o) = true ∧
    passes (.rdcyc 16) (world []) (fun _ _ o => o.operands [opdOut 16 16]) = true ∧
    passes (.krd 8 63) (world []) (fun _ _ o => o.operands [opdOut 8 8]) = true ∧
    passes (.kwr 0 8) (world []) (fun _ p o => topChecks 8 8 p o) = true ∧
    passes (.kwr 0 8) (idle (world [])) (fun _ p o => topChecks 8 8 p o) = true ∧
    passes (.lblr 8 0) (world []) (fun _ _ o =>
      (o.landReg 0).operandsBut false [⟨0, 1, 1, 0, false, false⟩, opdOut 8 4]) = true ∧
    passes (.lblq 8 16) (world []) (fun _ p o => o.operands [opdIn 16 16 p.em, opdOut 8 4]) = true ∧
    ((world []).current.elim false fun q =>
      (((world []).blockOf q.1).ks.getD 0 default).writer == none) = true := by decide +kernel

/-- A k register that another skein writes. -/
theorem witness_RegisterWordsComplete_taken :
    let s := world []
    let s1 := { s with blocks := s.blocks.map fun b => { b with ks := b.ks.map fun r => { r with writer := some 1 } } }
    starts (.kwr 0 8) s1 = true ∧
    (s1.current.elim false fun q => ((s1.blockOf q.1).ks.getD 0 default).writer != some q.1.num) = true := by decide +kernel

/-! ### Atomics, barriers, caches -/

theorem witness_AtomicOperations :
    (255 < 2 ^ 8 ∧ 128 < 2 ^ 8) ∧ ((locG 64).span 4).all (fun e => e.addr != (locG 68).addr) = true := by decide

/-- The checks of an atomic on 32 bits at (v4, v5) with its data in v0. -/
def atomChecks (op : AtomOp) (f : AtomF) (o : Iss) (p : Split) : Res Iss := do
  let x ← o.operands (f.opds op p.em)
  x.aligned (f.bits / 8) (x.ea f.n)
  let as ← x.map f.space 3 needAtomic (x.lanesAt f.n (f.bits / 8))
  x.atomType op f as
  x.origin (x.rd ||| p.co) as
  x.hold true as
  x.sound as
  let y ← if f.releases then x.release (decide (1 ≤ f.scope)) else .ok x
  let z ← y.flush (as.flatMap LaneAcc.locs)
  z.atomPcie as

theorem witness_AtomicsComplete :
    (atomRow (.aadd 0 0 0 0 4 0 0)).isSome = true ∧
    passes (.aadd 0 0 0 0 4 0 0) (world [1, 2, 3, 0, 0x1000]) (fun _ p o => atomChecks .add ⟨0, 0, 0, 0, 4, 0, 0⟩ o p) = true ∧
    passes (.acas 6 0 1 0 4 3 15) (world [1, 2, 3, 0, 4088]) (fun _ p o => atomChecks .cas ⟨6, 0, 1, 0, 4, 3, 15⟩ o p) = true ∧
    passes (.aor 0 0 0 1 4 0 0) (world [1, 2, 3, 0, 0x1000]) (fun _ p o => atomChecks .or ⟨0, 0, 0, 1, 4, 0, 0⟩ o p) = true ∧
    passes (.amin 0 0 0 0 4 0 0) (idle (world [])) (fun _ p o => o.operands (AtomF.opds ⟨0, 0, 0, 0, 4, 0, 0⟩ .min p.em)) =
      true := by decide +kernel

/-- A world whose page at 0 is mapped to PCIe memory, with or without a completion of the split's request. -/
def pcieMapped (done : List PReq) : State :=
  withSkein (fun k => { k with preqs := done })
    { world [1, 2, 3, 0, 0x1000] with
      mem := memPut8 (world []).mem 0x40000 (pteMake 0 0x30000000 2 3 0) }

/-- An atomic whose lanes lie in PCIe memory: without a completion, with one that refuses lane 0, and with a success. -/
theorem witness_AtomicsComplete_pcie :
    let at0 (done : List PReq) (f : Iss → List LaneAcc → Bool) : Bool :=
      meets (.aadd 0 0 0 0 4 0 0) (withSplit (fun p => { p with em := 1 }) (pcieMapped done)) fun _ p o => do
        let x ← o.operands (AtomF.opds ⟨0, 0, 0, 0, 4, 0, 0⟩ .add p.em)
        let as ← x.map .g 3 needAtomic (x.lanesAt 4 4)
        x.atomType .add ⟨0, 0, 0, 0, 4, 0, 0⟩ as
        x.origin (x.rd ||| p.co) as
        x.hold true as
        x.sound as
        let z ← x.flush (as.flatMap LaneAcc.locs)
        pure (f z as)
    at0 [] (fun z as => (as.filter LaneAcc.onPcie).length == 1 && z.completion.isNone) = true ∧
    at0 [⟨0, 0, none, 0, [], some 1, false, []⟩] (fun z as => (as.filter LaneAcc.onPcie).length == 1 && z.completion == some 1) = true ∧
    at0 [⟨0, 0, none, 0, [], some 0, false, []⟩] (fun z as => match z.atomPcie as with | .ok _ => true | .error _ => false) = true := by decide +kernel

theorem witness_BlockBarriersComplete :
    passes (.bar 15) (world []) (fun _ p o =>
      Iss.release { o with k := o.k.modSplit p.uid fun q => { q with st := .held (.bar 15) } } true) = true ∧
    ((world []).current.elim false fun q => (world []).overArrives q.1 15 q.2.members == 0) = true ∧
    passes (.bararr 0 8 15) (world []) (fun _ _ o => do
      let x ← o.operands [opdOut 8 4]
      x.release true) = true ∧
    passes (.bardrop 0) (world []) (fun _ _ o => o.release true) = true ∧
    meets (.barwait 0 8) (world [0, 0]) (fun _ p o => do
      let x ← o.operands [opdIn 8 4 p.em]
      pure (x.raw 0 8 4 == 0)) = true ∧
    meets (.barwait 0 8) (world [0, 7]) (fun _ p o => do
      let x ← o.operands [opdIn 8 4 p.em]
      pure (x.raw 0 8 4 == 7)) = true ∧
    passes (.barwait 0 8) (idle (world [])) (fun _ p o => o.operands [opdIn 8 4 p.em]) = true := by decide +kernel

theorem witness_BlockBarriersComplete_phase :
    (Bar.fresh 1).a + 1 = (Bar.fresh 1).e ∧ (Bar.fresh 2).a + 1 ≠ (Bar.fresh 2).e := by decide

/-- A skein all of whose lanes arrive, at a barrier that awaits it alone, and one some of whose lanes do. -/
theorem witness_BlockBarriersComplete_arrival :
    ((world []).skeins.all fun k => ((world []).block? k.grid k.block).elim false fun b => decide (15 < b.bars.length) &&
      k.living == 0xFFFFFFFF && ((b.bars.getD 15 default).skeinArrives k.num).2) = true ∧
    ((Bar.fresh 2).skeinArrives 0).2 = false := by decide +kernel

/-- The checks of a word on scratchpad barriers whose offset register is v1, on the object at 16. -/
def sbChecks (r : SbRow) (p : Split) (o : Iss) : Res Bool := do
  let x ← o.operands (opdIn r.y.toNat 8 p.em :: r.ops p.em)
  let off ← x.sbOffset r.y.toNat
  match off with
  | none => pure false
  | some off =>
    let acc : LaneAcc := ⟨lowest x.p.em, off, [⟨x.k.loc .s off, 16, 0, x.s.blockSets (x.k.loc .s off) 16⟩]⟩
    x.hold r.store [acc]
    let _ ← if r.init then pure () else x.sound [acc]
    let y ← x.flush acc.locs
    let o := (y.s.blockOf y.k).sbRead off
    let _ ← if r.arrival then y.release true else .ok y
    pure (r.ok y o && (!r.store || y.rset.subset (y.s.rangeSet ((y.s.blockOf y.k).sloc off) 16)) && (!r.arrival || o.out != 0))

/-- A world with a barrier object of one arrival at offset 16, and v0 = 1, v1 = 16. -/
def sbWorld : State :=
  match (world [1, 16]).blocks.head? with
  | some b => (world [1, 16]).sbPut b 16 ⟨0, 1, 1, 1, 0, 0⟩
  | none => world []

/-- The row's checks pass. -/
def sbPasses (i : Instr) (s : State) : Bool := (sbRow i).elim false fun r => meets i s fun _ p o => sbChecks r p o

theorem witness_ScratchpadBarriersComplete :
    sbPasses (.sbinit 0 8) (world [1, 8176]) = true ∧ sbPasses (.sbarr 16 8 0) sbWorld = true ∧
    sbPasses (.sbexp 0 8) sbWorld = true ∧ sbPasses (.sbwait 0 8) sbWorld = true ∧ sbPasses (.sbdrop 8) sbWorld = true ∧
    meets (.sbdrop 8) (idle sbWorld) (fun _ p o => do
      let x ← o.operands [opdIn 8 8 p.em]
      let off ← x.sbOffset 8
      pure off.isNone) = true := by decide +kernel

/-- The ranges at (v0, v1) of v2 bytes. -/
def rangeChecks (need : Need) (o : Iss) : Res Unit := do
  let x ← o.rangeOperands 0 16
  let as ← x.mapG 4 need (x.ranges 0 16)
  let _ ← x.flushIf fun e => e.loc.sp == .g && (as.flatMap LaneAcc.lines).eraseDups.any fun n => e.loc.addr / 64 == n.1

theorem witness_FencesAndCachesComplete :
    passes (.fence 3 4) (world []) (fun _ _ o => o.landOwn.release true) = true ∧
    passes (.clean 0 16) (world [0x1000, 0, 64]) (fun _ _ o => rangeChecks needLoad o) = true ∧
    passes (.inval 0 16) (world [0x1000, 0, 64]) (fun _ _ o => rangeChecks needLoad o) = true ∧
    passes (.icinv 0 16) (world [0x1000, 0, 64]) (fun _ _ o => rangeChecks needCode o) = true ∧
    starts .ibar (world []) = true ∧
    passes (.pref 0 16) (world [0x1000, 0, 64]) (fun _ _ o => o.rangeOperands 0 16) = true ∧
    passes (.ipref 0 16) (world [0x1000, 0, 64]) (fun _ _ o => o.rangeOperands 0 16) = true := by decide +kernel

/-- FENCE.SY with a completed write-back of its own. -/
theorem witness_FencesAndCachesComplete_awaited :
    let s := withSkein (fun k => { k with wbs := [0], preqs := [⟨0, 0, none, 0, [], some 0, false, []⟩] }) (world [])
    meets (.fence 1 4) s (fun _ p o => do
      let x ← o.landOwn.release false
      pure (x.k.wbs.contains p.uid && x.completion.isSome)) = true := by decide +kernel

theorem witness_StreamsComplete :
    meets (.stream 0 32 0) (world [0x1000, 0, 64, 2]) (fun _ p o => do
      let x ← o.operands [⟨0, 32, 32, topLane p.em id, true, false⟩, opdOut 32 1]
      let (_, y) ← x.policy 0 false
      pure (streamOk (signed 32 (x.raw 31 16 8)) (x.raw 31 24 8) && (y.s.streamSlots y.k.coreId).isEmpty)) = true ∧
    passes (.stream 0 32 0) (idle (world [])) (fun _ p o =>
      o.operands [⟨0, 32, 32, topLane p.em id, true, false⟩, opdOut 32 1]) = true ∧
    meets (.stream 0 32 0) (withSkein (fun k => { k with streams := [⟨0, 0, 0, 64, 2, 0, -1, 0⟩, ⟨1, 1, 0, 64, 2, 0, -1, 0⟩] })
      (world [0x1000, 0, 64, 2])) (fun _ _ o => pure ((List.range 2).all fun m => o.k.streams.any (·.handle == m))) = true ∧
    meets (.streamx 0) (world [1]) (fun _ p o => do
      let x ← o.operands [opdIn 0 1 (topLane p.em id)]
      pure (decide (x.raw 31 0 1 ≤ 1))) = true ∧
    meets (.streamx 0) (world [15]) (fun _ p o => do
      let x ← o.operands [opdIn 0 1 (topLane p.em id)]
      pure (x.raw 31 0 1 == 15)) = true := by decide +kernel

/-- The checks of SPILL and FILL of v0 with the record's address in (v4, v5) and the control in v6. -/
def spillChecks (o : Iss) (p : Split) : Res Unit := do
  let y ← o.spillOperands 32 fun c => ⟨0, c, 1, p.em, true, false⟩
  let (sp, c) ← y.spillCtl 32
  let as ← y.map sp 2 needStore (y.records 0 32 c)
  y.origin y.rset as
  y.hold true as
def fillChecks (o : Iss) (_ : Split) : Res ReadView := do
  let y ← o.spillOperands 32 fun c => ⟨0, c, 1, 0, false, true⟩
  let (sp, c) ← y.spillCtl 32
  let as ← y.map sp 1 needLoad (y.records 0 32 c)
  y.load 0 as

theorem witness_SpillAndFillComplete :
    passes (.spill 0 32) (world [1, 2, 3, 0, 0x1000, 0, 32]) (fun _ p o => spillChecks o p) = true ∧
    passes (.fill 0 32 0) (world [1, 2, 3, 0, 0x1000, 0, 32]) (fun _ p o => fillChecks o p) = true ∧
    passes (.spill 0 32) (world [1, 2, 3, 0, 16, 0, 512 + 1]) (fun _ p o => spillChecks o p) = true ∧
    passes (.fill 0 32 0) (idle (world [])) (fun _ _ o => o.spillOperands 32 fun c => ⟨0, c, 1, 0, false, true⟩) = true ∧
    passes (.spill 0 32) (idle (world [])) (fun _ p o => o.spillOperands 32 fun c => ⟨0, c, 1, p.em, true, false⟩) = true := by
  decide +kernel

/-! ### Spawning, waiting for bits, service words -/

theorem witness_SpawnAndLaunchComplete :
    meets (.spawn 0 32 0) (world [5, 0, 0, 0]) (fun _ p o => do
      let x ← o.operands [⟨0, 32, 32, p.em, true, false⟩, opdOut 32 1]
      let _ ← x.release true
      pure (laneIds.all fun l => x.s.spawnable x.k (x.raw l 16 16))) = true ∧
    meets (.launch 0 0) (world [0x1000, 0, 0x2000, 0]) (fun _ p o => do
      let x ← o.operands [⟨0, 32, 1, p.em, true, false⟩, ⟨0, 8, 1, 0, false, true⟩]
      let as ← x.mapG 1 needLoad (x.active.map fun l => (l, x.raw l 0 16, 128))
      let v ← x.load 0 as
      let _ ← v.i.release true
      pure (x.k.num == 0 && (o.s.objOf o.k).elim false fun q => q.kernels.any fun n => q.code + n.entry == (p.pc + 4 * 0).toNat)) = true ∧
    passes (.launch 0 0) (idle (world [])) (fun _ p o =>
      o.operands [⟨0, 32, 1, p.em, true, false⟩, ⟨0, 8, 1, 0, false, true⟩]) = true := by
  decide +kernel

theorem witness_SpawnAndLaunchComplete_statuses :
    let s := world []
    ((s.grids.all fun g => g.level != 9 && !s.drains g.part) = true ∧ s.childCount 0 0 < 16) ∧
    ({ fetchGrid with level := 9 } : Grid).level = 9 := by decide +kernel

/-- What holds of the skein and its split. -/
def here (s : State) (f : Skein → Split → Bool) : Bool :=
  (s.skein? 0).elim false fun k => (k.split? 0).elim false (f k)

/-- A running skein held in a BITWAIT on bit 1 of the word at an address, and what its poll reads there. -/
def bitHeld (s : State) (va : Nat) (f : State → Skein → List (Option (Loc × OSet)) → Bool) : Bool :=
  let t := withSplit (fun p => { p with st := .held (.bitwait default [(0, va, 1)]) }) s
  here t fun k p => k.stop.isNone && p.st == .held (.bitwait default [(0, va, 1)]) && f t k (t.bitPages k [(0, va, 1)])

theorem witness_BitwaitCompletes :
    meets (.bitwait 0 16) (world [0x1000, 0, 33]) (fun _ p o => do
      let x ← o.operands [opdPair 0 p.em, opdIn 16 8 p.em]
      x.aligned 4 fun l => x.raw l 0 16
      let as ← x.mapG 1 needLoad (x.active.map fun l => (l, (x.raw l 0 16 + 4 * (x.raw l 16 8 / 32)) % 2 ^ 64, 4))
      x.sound as
      let w ← x.pcieReady as
      let y ← w.flush (as.flatMap LaneAcc.locs)
      pure (as.all fun q => !y.s.bitSet y.k.die q.first (x.raw q.lane 16 8 % 32))) = true ∧
    meets (.bitwait 0 16) { world [0x1000, 0, 33] with mem := cellsWrite (world []).mem 0x51004 [2] } (fun _ p o => do
      let x ← o.operands [opdPair 0 p.em, opdIn 16 8 p.em]
      let as ← x.mapG 1 needLoad (x.active.map fun l => (l, (x.raw l 0 16 + 4 * (x.raw l 16 8 / 32)) % 2 ^ 64, 4))
      let w ← x.pcieReady as
      let y ← w.flush (as.flatMap LaneAcc.locs)
      pure (as.all fun q => y.s.bitSet y.k.die q.first (x.raw q.lane 16 8 % 32))) = true ∧
    bitHeld { world [] with mem := cellsWrite (world []).mem 0x51004 [2] } 0x1004 (fun s k ls =>
      ls.mapM id == some [(locG 0x51004, 1)] && s.bitSet k.die (locG 0x51004) 1) = true ∧
    bitHeld (world []) 0x1004 (fun s k ls => ls.mapM id == some [(locG 0x51004, 1)] && !s.bitSet k.die (locG 0x51004) 1) = true ∧
    bitHeld (world []) 0x90000 (fun _ k ls => ls.contains none && k.flaw.isNone) = true ∧
    passes (.bitwait 0 16) (idle (world [])) (fun _ p o => o.operands [opdPair 0 p.em, opdIn 16 8 p.em]) = true := by
  decide +kernel

theorem witness_ServiceWordsComplete :
    starts (.trap 127) (world []) = true ∧ starts (.brk 0) (world []) = true ∧ starts (.tack 1) (world []) = true ∧
    meets (.tack 0) (world []) (fun k p o => pure (((o.s.ctxOf k).objAt p.pc.toNat).elim false (·.nrec == 1) &&
      !o.s.preempting k)) = true ∧
    meets (.tack 0) { world [] with ctxs := (world []).ctxs.map fun c => { c with onCl := [⟨0, .stopping, 0, false⟩] } }
      (fun k _ o => pure (o.s.preempting k)) = true ∧
    passes (.syscall 127) (world []) (fun _ p o => do
      let x ← o.operands [opdIn 0 32 p.em]
      x.release true) = true ∧
    starts (.syscall 0) (idle (world [])) = true := by decide +kernel

/-- A world with an interrupt target whose record lies at 0x2000. -/
def uintWorld : State := { world [1, 63] with uints := [⟨1, 0, 0x2000, 0, some 3, 0⟩] }

theorem witness_UserInterruptsComplete :
    meets (.uint 16 0) uintWorld (fun _ p o => do
      let x ← o.operands [opdPair 0 p.em, opdOut 16 1]
      let y ← x.release true
      y.sound (y.s.records y.rset (y.active.map fun l => (l, y.raw l 0 8, y.raw l 8 8)))
      pure (y.raw 0 0 8 == 1 && y.raw 0 8 8 == 63)) = true ∧
    (uintWorld.uints.find? (·.handle == 1)).elim false (fun t => (uintWorld.recordPage t).elim false fun f =>
      f.set == 1 && ((locG f.pa).span 8).all fun l => !uintWorld.owned l && !uintWorld.pinned l) = true ∧
    Memory.wf uintWorld.mem = true ∧ (2#16 &&& ~~~1#16) ≠ 0 := by decide +kernel

/-! ### Engines, batches, baskets -/

/-- The arguments of a Wringer command from v0 up with its control in v8, and the checks every command makes. -/
def wringerChecks (regs other : List (Nat × Nat)) (o : Iss) (p : Split) : Res Iss := do
  let x ← o.operands (argOpds 0 regs other p.em)
  let _ ← x.release true
  pure x

theorem witness_WringerCommandsComplete_copies :
    meets (.wcopy 0 64 0) (world [0x1000, 0, 0, 0, 128, 0, 0, 0, 0]) (fun _ p o => do
      let x ← wringerChecks [(0, 16), (2, 16), (4, 8)] [(64, 8)] o p
      let bar ← x.control 64
      let A ← x.region .g needLoad (x.arg 0 0 16) (x.arg 0 4 8)
      let B ← x.region .s needStore (x.arg 0 2 16) (x.arg 0 4 8)
      x.checkBarrier bar
      pure (B.takes (A.set ||| x.rset))) = true ∧
    meets (.wfill 0 64 2) (world [0, 0, 0, 0, 128, 7, 0, 0, 0]) (fun _ p o => do
      let x ← wringerChecks [(0, 16), (4, 8), (5, 8)] [(64, 8)] o p
      let bar ← x.control 64
      let B ← x.region .c needStore (x.arg 0 0 16) (x.arg 0 4 8)
      x.checkBarrier bar
      pure (B.takes x.rset)) = true ∧
    meets (.wsend 0) (world [0x1000, 0, 0x2000, 0, 128, 1]) (fun _ p o => do
      let x ← wringerChecks [(0, 16), (2, 16), (4, 8), (5, 8)] [] o p
      let _ ← x.region .g needLoad (x.arg 0 0 16) (x.arg 0 4 8)
      pure (decide (x.arg 0 5 8 < (x.s.part (x.s.ctxOf x.k).part).modules.length))) = true := by decide +kernel

/-- The list at 64 of S is one zero, and each element has 4 bytes. -/
theorem witness_WringerCommandsComplete_lists :
    meets (.wgath 0 64 0) (world [0x1000, 0, 0, 0, 1, 0x2000001, 64, 0, 0]) (fun _ p o => do
      let x ← wringerChecks [(0, 16), (2, 16), (4, 8), (5, 8), (6, 8)] [(64, 8)] o p
      let (_, count, z) ← x.gatherLimits 0
      let bar ← x.control 64
      let (list, _) ← x.indexList (x.arg 0 6 8) count
      let es ← x.regions .g needLoad z [x.arg 0 0 16]
      let B ← x.region .s needStore (x.arg 0 2 16) (count * z)
      x.checkBarrier bar
      pure (B.takes (es.foldl (fun u e => u ||| e.set) (list.set ||| x.rset)))) = true ∧
    meets (.wscat 0 64 1) (world [0, 0, 0x1000, 0, 1, 0x2000001, 64, 0, 0]) (fun _ p o => do
      let x ← wringerChecks [(0, 16), (2, 16), (4, 8), (5, 8), (6, 8)] [(64, 8)] o p
      let (_, count, z) ← x.gatherLimits 0
      let bar ← x.control 64
      let (list, _) ← x.indexList (x.arg 0 6 8) count
      let A ← x.region .s needLoad (x.arg 0 0 16) (count * z)
      let es ← x.regions .g needStore z [x.arg 0 2 16]
      x.checkBarrier bar
      pure (es.all fun e => e.takes (A.set ||| list.set ||| x.rset))) = true ∧
    meets (.wcollGather 0) { world [0x1000, 0, 0x2000, 0, 4, 9, 0] with groups := [⟨9, 0, [3, 7], 1, 1, true⟩] }
      (fun _ p o => do
        let x ← wringerChecks [(0, 16), (2, 16), (4, 8), (5, 8), (6, 8)] [] o p
        let A ← x.region .g needLoad (x.arg 0 0 16) (x.arg 0 4 8)
        let B ← x.region .g needStore (x.arg 0 2 16) 8
        pure ((A.set ||| x.rset).subset 1 && B.takes 1)) = true := by decide +kernel

/-- Any queued command. -/
def aCmd (order : Nat) : Cmd := ⟨order, 1, 0, 0, .local, [], none, none, [], [], false, [], []⟩
def aMCmd (order : Nat) : MCmd := ⟨order, 1, .mzero 0, 0, none, none, [], []⟩

theorem witness_WringerCommandsComplete_limits :
    starts (.wsend 0) (idle (world [])) = true ∧ starts (.mma 0) (idle (world [])) = true ∧
    (withSkein (fun k => { k with cmds := (List.range 32).map aCmd }) (world [])).current.elim false
      (fun q => decide (32 ≤ q.1.cmds.length)) = true ∧
    (withSkein (fun k => { k with mq := (List.range 64).map aMCmd }) (world [])).current.elim false
      (fun q => decide (64 ≤ q.1.mq.length)) = true := by decide +kernel

/-- A world whose skein has claimed bay 0 and tile 0. -/
def mangleWorld (vals : List Nat) : State :=
  { world vals with blocks := (world vals).blocks.map fun b => (b.claim false 0 1 (some 0) 1).claim true 0 1 (some 0) 1 }

theorem witness_MangleWordsComplete_claims :
    meets (.mbayBay 8 0 0) (world [4]) (fun _ p o => do
      let x ← o.operands [opdIn 0 8 (topLane p.em id), opdOut 8 8]
      pure (freeRun ((x.s.blockOf x.k).claims false) (x.raw 31 0 8) == some 0)) = true ∧
    meets (.mbayAcc 8 0 0) (world [5]) (fun _ p o => do
      let x ← o.operands [opdIn 0 8 (topLane p.em id), opdOut 8 8]
      pure (freeRun ((x.s.blockOf x.k).claims true) (x.raw 31 0 8) == none)) = true ∧
    meets (.mfreeBay 0 8) (mangleWorld [0, 1]) (fun _ p o => do
      let x ← o.operands [opdIn 0 8 (topLane p.em id), opdIn 8 8 (topLane p.em id)]
      pure (((x.s.blockOf x.k).claims false)[0]? == some (some 0))) = true ∧
    starts (.mbayAcc 8 0 0) (idle (world [])) = true := by decide +kernel

theorem witness_MangleWordsComplete_commands :
    meets (.mwload 0) (mangleWorld [0x1000, 0, 0x2000, 0, 0, 0]) (fun _ p o => do
      let x ← o.operands (argOpds 0 [(0, 16), (2, 16), (5, 8)] [] p.em)
      let _ ← x.release true
      let _ ← x.region .g needLoad (x.marg 0 0 16) (weightBytes (frWfmt p.fr))
      let _ ← x.region .g needLoad (x.marg 0 2 16) (scaleBytes (groupOf (frGrp p.fr)))
      pure (x.claimed false 0)) = true ∧
    meets (.mma 0) (mangleWorld [0, 0, 0, 0, 128, 0]) (fun _ p o => do
      let x ← o.operands (argOpds 0 [(0, 16), (4, 8), (5, 8)] [] p.em)
      let _ ← x.release true
      let _ ← x.regions .s needLoad (128 * actBytes (frAfmt p.fr)) ((List.range 32).map fun r => r * x.marg 0 4 8)
      pure (x.claimed false 0 && x.claimed true 0 && strideOk (x.marg 0 4 8) (128 * actBytes (frAfmt p.fr)))) = true ∧
    meets (.mdrain 0) (mangleWorld [0, 0, 0, 0, 128, 0]) (fun _ p o => do
      let x ← o.operands (argOpds 0 [(0, 16), (4, 8), (5, 8)] [] p.em)
      let _ ← x.release true
      let rows ← x.regions .s needStore (32 * outBytes (frOfmt p.fr)) ((List.range 32).map fun r => r * x.marg 0 4 8)
      pure (x.claimed true 0 && strideOk (x.marg 0 4 8) (32 * outBytes (frOfmt p.fr)) && rows.all fun r => r.takes 1)) = true ∧
    meets (.mzero 0) (mangleWorld [0, 0, 0, 0, 0, 0]) (fun _ p o => do
      let x ← o.operands (argOpds 0 [(5, 8)] [] p.em)
      let _ ← x.release true
      pure (x.claimed true 0)) = true := by decide +kernel

theorem witness_BatchesAndFormatsComplete :
    meets (.close 0 0 0) (world []) (fun k _ o => do
      let _ ← o.operands [opdOut 0 4]
      pure (!k.closeBlocked 0)) = true ∧
    meets (.waitb 0 1) (world [0]) (fun k p o => do
      let x ← o.operands [opdIn 0 4 (topLane p.em id)]
      pure (k.asked 1 (BitVec.ofNat 16 (x.raw 31 0 4)) == [])) = true ∧
    meets (.testb 8 0 0 0) (withSkein (fun k => { k with cmds := [aCmd 3] }) (world [1])) (fun k p o => do
      let x ← o.operands [opdIn 0 4 (topLane p.em id), opdOut 8 1]
      pure (k.asked 0 (BitVec.ofNat 16 (x.raw 31 0 4)) != [])) = true ∧
    meets (.setfr 0) (world [0x3F000]) (fun _ p o => do
      let x ← o.operands [opdIn 0 8 (topLane p.em id)]
      pure (frOk (BitVec.ofNat 32 (x.raw 31 0 8)))) = true ∧
    meets (.setfr 0) (world [0x40000]) (fun _ p o => do
      let x ← o.operands [opdIn 0 8 (topLane p.em id)]
      pure (!frOk (BitVec.ofNat 32 (x.raw 31 0 8)))) = true ∧
    passes (.getfr 0 0) (world []) (fun _ _ o => o.operands [opdOut 0 8]) = true := by decide +kernel

/-- A world with a basket of one-slice entries in slot 63 of cluster 0, and its handle in v0. -/
def basketWorld (st : BasketSt) (ring : List (Nat × OSet)) : State :=
  (world [63]).modBasket 0 63 fun _ => ⟨st, 0, 0, 1, (0, 0), 16, 16, 0, 1, ring⟩

/-- The checks of a basket word on entries at v4. -/
def basketChecks (read : Bool) (s : State) (i : Instr) : Bool :=
  meets i s fun k p o => do
    let x ← o.basketOperands 0
    let v := x.raw (highest p.em) 0 8
    let q := x.s.basket (hCluster v) (hSlot v)
    let y ← x.operands [⟨32, q.perLane, 1, if read then 0xFFFFFFFF else 0, read, !read⟩]
    let _ ← y.release true
    pure (!x.s.staleHandle v && q.inScope (hCluster v) k && y.rset.subset q.set)

theorem witness_BasketWordsComplete :
    basketChecks true (basketWorld .opened []) (.qpush 32 0 0) = true ∧
    basketChecks true (basketWorld .retiring []) (.qpush 32 0 0) = true ∧
    basketChecks false (basketWorld .opened [(5, 1)]) (.qpop 32 0 0) = true ∧
    basketChecks false (basketWorld .opened []) (.qtry 32 0 0) = true ∧
    passes (.qpop 32 0 0) (idle (world [])) (fun _ _ o => o.basketOperands 0) = true := by decide +kernel

/-! ### Events of skeins, engines and fetching -/

/-- The world with its split in a state. -/
def inState (st : SplitSt) (s : State) : State := withSplit (fun p => { p with st := st }) s

/-- A load of the byte at 0x1000 of lane 0. -/
def aLoad : Pend := aPend [(0, 0x1000, locG 0x51000)]
/-- A stop by a trap with a code and a cause. -/
def aStop (code : BitVec 16) (cause : Nat) (go : Bool) (s : State) : State :=
  withSkein (fun k => { k with stop := some ⟨{ k.record 0 0 1 with code := code, cause := cause }, 0, none, false, go⟩ }) s
/-- A call of lane 0, unanswered or answered. -/
def aCall (num : Nat) (args : List (BitVec 32)) (r : Option (List (BitVec 32) × OSet)) (s : State) : State :=
  inState (.parked (.syscall [⟨0, num, args, r⟩] 1 4 0)) s

theorem witness_SkeinEventsComplete :
    here (withSkein (fun k => { k with pend := [aPend []] }) (world [])) (fun k _ => k.pend.length == 1) = true ∧
    here (inState (.joinWait false) (world [])) (fun k p => k.stop.isNone && p.st == .joinWait false && k.splits.length == 1) =
      true ∧
    here (withSplit (fun p => { p with yielded := some ([(5, 0)], 64) }) (world [])) (fun _ p =>
      p.yielded == some ([(5, 0)], 64) && (world []).leftOrIssued (64 - 64) (5, 0)) = true ∧
    here (inState (.held (.sbwait default 16 [0])) sbWorld) (fun k _ =>
      [0].contains ((sbWorld.blockOf k).sbRead 16).phase && k.stop.isNone) = true ∧
    here (inState (.held (.sbwait default 16 [7])) sbWorld) (fun k _ => !(([7] : List Nat).contains ((sbWorld.blockOf k).sbRead 16).phase) &&
      k.flaw.isNone && (((sbWorld.blockOf k).sloc 16).span 16).all fun l => !sbWorld.owned l && !sbWorld.failedAt l) = true ∧
    (let s : State := { sbWorld with failedUnits := [{ sp := .s, own := (0, 0), unit := 0 }] }
     here s (fun k _ => (((s.blockOf k).sloc 16).span 16).any s.failedAt) = true) ∧
    here (withSplit (fun p => { p with yielded := some ([], 64) }) (world [])) (fun _ p => p.yielded == some ([], 64)) = true ∧
    here (inState (.held (.waitb 0 0 [])) (world [])) (fun k _ => (k.outstanding 0).isEmpty) = true ∧
    here (aStop 0x8100 0 true (world [])) (fun k _ => k.stop.elim false (·.go) && (world []).mayResume k) = true ∧
    here (aCall 3 [] (some ([7], 1)) (world [])) (fun k p => p.em.getLsbD 0 && !((world []).ctxOf k).over) = true ∧
    here (world []) (fun k _ => k.stop.isNone && k.flaw.isNone && k.pend.all fun q => !q.loads 1 3) = true ∧
    here (withSkein (fun k => { k with pend := [aPend [], aLoad] }) (world [])) (fun k p =>
      k.stop.isNone && !(aPend []).loads 1 3 && aLoad.loads 1 3 && k.splits.find? aLoad.counts == some p) = true := by
  decide +kernel

/-- A skein with one Wringer command. -/
def cmdWorld (c : Cmd) : State := { withSkein (fun k => { k with cmds := [c] }) (world []) with nextId := 6 }
/-- The same with a failed unit at 0x51000. -/
def failedUnit (s : State) : State := { s with failedUnits := [{ sp := .g, own := (0, 0), unit := 0x51000 / 32 }] }
/-- A partition with a hem port and a route. -/
def linked (s : State) : State := s.modPart 0 fun q => { q with hemPorts := [2], routes := [5] }
/-- A command of the world is the one whose turn it is. -/
def turnOf (s : State) (c : Cmd) : Bool :=
  here s fun k _ => k.cmds.find? (·.order == 5) == some c && s.nextWringer k.coreId == some k.id

/-- A command with a fault, one without lines, one with a line, and one that owes a decrement on a sound or a failed object. -/
theorem witness_EngineEventsComplete_wringer :
    let ln : DstLine := ⟨[(locG 0x51000, .val 7)], [locG 0x51000]⟩
    let late : DstLine := ⟨[(locG 0x52000, .later (locG 0x51000))], [locG 0x52000]⟩
    let one : Cmd := { aCmd 5 with lines := [ln] }
    let owing : Cmd := { aCmd 5 with barrier := some 16, owes := [64] }
    let object : List Loc := (⟨.s, (0, 0), 16⟩ : Loc).span 16
    turnOf (cmdWorld { aCmd 5 with fault := some 0x8403 }) { aCmd 5 with fault := some 0x8403 } = true ∧
    turnOf (cmdWorld (aCmd 5)) (aCmd 5) = true ∧ turnOf (cmdWorld one) one = true ∧ (cmdWorld one).lineReady one ln = true ∧
    (cmdWorld one).failedLater [.val 7] = none ∧
    (let c : Cmd := { aCmd 5 with lines := [late] }
     let s := failedUnit (cmdWorld c)
     turnOf s c = true ∧ s.lineReady c late = true ∧ (s.failedLater (late.bytes.map (·.2))).isSome = true) ∧
    turnOf (cmdWorld owing) owing = true ∧ here (cmdWorld owing) (fun k _ => (cmdWorld owing).decrementFree k owing &&
      decide (((cmdWorld owing).blockOf k).sloc 16 = ⟨.s, (0, 0), 16⟩) && object.all fun l => !(cmdWorld owing).failedAt l) = true ∧
    (let s : State := { cmdWorld owing with failedUnits := [{ sp := .s, own := (0, 0), unit := 0 }] }
     (object.find? s.failedAt).isSome = true) := by decide +kernel

/-- A send to another module, with and without a port, one into this module, one whose source failed, and the messages of others. -/
theorem witness_EngineEventsComplete_sends :
    let far : Cmd := { aCmd 5 with kind := .wsend 0 0x2000 [some (.val 7)] 1 }
    let near (dst : Nat) : Cmd := { aCmd 5 with kind := .wsend 1 dst [some (.val 7)] 1 }
    let late : Cmd := { aCmd 5 with kind := .wsend 0 0x2000 [some (.later (locG 0x51000))] 1 }
    let cut : Cmd := { aCmd 5 with kind := .wsend 0 0x2000 [none] 1 }
    turnOf (cmdWorld far) far = true ∧ (cmdWorld far).srcReady 5 [.val 7] = true ∧ ((cmdWorld far).part 0).selfIndex = 1 ∧
    ((cmdWorld far).part 0).hemPorts = [] ∧
    (let q := (linked (cmdWorld far)).part 0
     q.hemPorts = [2] ∧ q.routes = [5] ∧ q.lost.contains 0 = false) ∧ turnOf (linked (cmdWorld far)) far = true ∧
    (let s := failedUnit (cmdWorld late)
     turnOf s late = true ∧ (s.failedLater [.later (locG 0x51000)]).isSome = true) ∧ turnOf (cmdWorld cut) cut = true ∧
    ([0x2000, 0x90000].all fun d => turnOf (cmdWorld (near d)) (near d)) = true ∧
    (let m := (cmdWorld (near 0x2000)).sendMap 0 0x2000 1
     m.sendDst 0 0x2000 1 1 = [some (locG 0x52000)] ∧ m.sendHeld [some (locG 0x52000)] = false) ∧
    (((cmdWorld (near 0x90000)).sendMap 0 0x90000 1).sendDst 0 0x90000 1 1).contains none = true ∧
    (cmdWorld { aCmd 4 with lines := [⟨[(locG 0x52000, .val 7)], [locG 0x52000]⟩] }).sendHeld [some (locG 0x52000)] = true ∧
    ({ world [] with modSt := .up } : State).alive = true ∧ (world []).inbound = [] ∧
    (routeCode (cmdWorld far) 0 far).isSome = true := by decide +kernel

/-- A collective of two members, this module the second: the other's contribution is there and agrees, differs, or tells of a
reset or a lost route; and one route is lost. -/
theorem witness_EngineEventsComplete_collectives :
    let coll : Cmd := { aCmd 5 with kind := .wcoll 3 9 1 0 [some (.val 7)] }
    let s : State := linked { cmdWorld coll with groups := [⟨9, 0, [3, 7], 1, 1, true⟩] }
    let same : Contribution := { member := 0, kind := 3, len := 1, root := 0, data := [1] }
    (s.groups.any fun g => g.handle == 9 && !s.earlierColl 9 5 && s.srcReady 5 [.val 7] &&
      (List.range g.members.length).all fun m => m == g.self || [same].any (·.member == m)) = true ∧
    (s.failedLater [.val 7]).isNone = true ∧ (s.part 0).reaches 3 = true ∧ ((cmdWorld coll).part 0).reaches 3 = false ∧
    { same with kind := 4 } ≠ same ∧ ({ same with reset := true } : Contribution).reset = true ∧
    ({ same with lost := true } : Contribution).lost = true ∧
    ((s.modPart 0 fun p => { p with lost := [3] }).part 0).lost.contains ([3, 7].getD 0 0) = true ∧
    (routeCode s 3 coll).isSome = true := by decide +kernel

/-- A skein with one Mangle command. -/
def mcmdWorld (c : MCmd) : State := withSkein (fun k => { k with mq := [c] }) (mangleWorld [])

theorem witness_EngineEventsComplete_mangle :
    ((mcmdWorld (aMCmd 5)).starters 0).map (·.id) = [0] ∧ (mcmdWorld (aMCmd 5)).weight 0 0 0 = 1 ∧
    ((mcmdWorld (aMCmd 5)).cluster 0).turns = none ∧
    ([(0, 0), (0, 1), (5, 1)].all fun t => let s := (mcmdWorld (aMCmd 5)).modCluster 0 fun c => { c with turns := some t }
      (s.cluster 0).turns == some t && (s.starters 0).map (·.id) == [0]) = true ∧
    (let s := { mcmdWorld { aMCmd 5 with started := some 0 } with issueTicks := 2 }
     0 + (MKind.mzero 0).cycles ≤ s.issueTicks) ∧
    here (mcmdWorld { aMCmd 5 with started := some 0, fault := some 0xCC02 }) (fun k _ => k.mq.length == 1) = true ∧
    ((failedUnit (world [])).failedLater ({ aMCmd 5 with kind := .mma 0 0 [.later (locG 0x51000)] 0 } : MCmd).laters).isSome =
      true := by
  decide +kernel

/-- A tile, a bay and a command on each: the hypotheses of the two clauses of what is performed. -/
theorem witness_MangleWordsComplete_performed :
    let s := mangleWorld []
    here s (fun k _ => (s.block? k.grid k.block).elim false fun b => (b.tiles[0]?).isSome && (b.bays[0]?).isSome && Memory.wf b.cells) =
      true ∧ ({ aMCmd 5 with kind := .mma 0 0 [] 2 } : MCmd).kind = .mma 0 0 [] 2 ∧ 32 * outBytes 4 ≤ 128 ∧
    ({ aMCmd 5 with kind := .mdrain 0 0 128 4 2 0 0 } : MCmd).kind = .mdrain 0 0 128 4 2 0 0 := by decide +kernel

/-- A skein with a stream over its page. -/
def streamWorld (va : Nat) : State :=
  withSkein (fun k => { k with streams := [⟨0, 0, va, 64, 2, 0, -1, 0⟩] }) (world [])

theorem witness_FetchAndPcieEventsComplete_fetch :
    here (streamWorld 0x1000) (fun k _ => k.streams.any (fun x => decide (x.next < x.count) && decide ((x.next : Int) ≤ x.position + 16)) &&
      (streamWorld 0x1000).aheadPa ((world []).ctxOf k) needLoad 0x1000 == some 0x51000) = true ∧
    here (streamWorld 0x20000) (fun k _ => (streamWorld 0x20000).aheadPa ((world []).ctxOf k) needLoad 0x20000 == none) = true ∧
    ({ streamWorld 0x1000 with failedUnits := [{ sp := .g, own := (0, 0), unit := 0x51000 / 32 }] } : State).failedLine (0x51000 / 64) =
      true ∧ (streamWorld 0x1000).failedLine (0x51000 / 64) = false ∧
    here (world []) (fun k p => k.stop.isNone && (world []).mayFetchAhead k p 64 &&
      (match (world []).translate ((world []).ctxOf k) 64 with
       | .leaf l => l.ex && ((world []).ctxOf k).mayRead l.set && !(world []).failedLine (l.pa / 64)
       | _ => false)) = true ∧
    (let s := (world []).modCore 0 fun c => { c with fills := [⟨0x1400, []⟩] }
     0 < s.cores.length ∧ ((s.core 0).fills.find? (·.line == 0x1400)).isSome = true) := by decide +kernel

/-- A world whose cluster holds one entry of the fault buffer. -/
def faultWorld (vas : List (Nat × Nat)) (bad : Bool) : State :=
  (world []).modCluster 0 fun c => { c with fbuf := [⟨0, 0, 0, 0, 0, 1, vas, bad⟩] }

/-- The same with a held region around the address, no page of which is mapped. -/
def heldWorld : State :=
  let s := faultWorld [(0, 0x90000)] false
  let r : Region := ⟨0x90000, 65536, 6, 0, 0, 7, 0, 0⟩
  { s with ctxs := s.ctxs.map fun c => { c with regions := [r] } }

theorem witness_FetchAndPcieEventsComplete_faults :
    ((faultWorld [(0, 0x1000)] true).cluster 0).fbuf.any (·.malformed) = true ∧
    (faultWorld [(0, 0x90000)] false).ctxs.all (fun c => !c.over && (c.region? 0x90000).isNone) = true ∧
    ((heldWorld.ctxs.all fun c => (c.region? 0x90000).isSome && decide (heldWorld.walk c 0x90000 = .unmapped)) = true) ∧
    (world []).commandHolds 0 1 = false := by decide +kernel

/-- A world with a request to PCIe memory in flight. -/
def pcieWorld : State :=
  withSkein (fun k => { k with preqs := [⟨0, 0, none, 0, [], none, false, []⟩] }) (inState (.stalled (.pcie 1 [])) (world []))

/-- A virtual function with both queues live and its window at the context's page. -/
def aVf : VF :=
  { (default : VF) with
    id := 1, part := 0, tenant := 0, ctx := 0, winBase := 0x60000, winUnits := 1, status := 15, qenable := [true, true],
    qsize := [256, 256], drvFeatures := 0x100000000 }

theorem witness_FetchAndPcieEventsComplete_pcie :
    here { pcieWorld with ticks := 87500000 - 1, frozenTicks := 1 } (fun k p => k.preqs.any (fun r => r.uid == p.uid &&
      r.status == none && decide (r.sent + 87500000 ≤ 87500000 - 1 + 1)) && p.st == .stalled (.pcie 1 []) && k.stop.isNone) = true ∧
    ({ world [] with ctxs := [{ fetchCtx with regions := [⟨0, 65536, 0x30000000, 0, 2, 3, 0, 1⟩] }] } : State).ctxs.any
      (fun c => c.regions.any fun r => r.kind == 1 && decide (r.frame * 65536 ≤ 0x300000000000)) = true ∧
    aVf.winBase ≤ 0x60000 ∧ 0x60000 + 4 ≤ aVf.winBase + aVf.winUnits * 65536 ∧
    (world []).posted = [] ∧ paType 0x300000000000 = 2 ∧ paType 0x30000000000F = 2 ∧ paType 0x3FFFFFFFFFFF = 2 ∧
    ((locG 0x60000).span 4).all (fun l => !(world []).owned l && !(world []).pinned l) = true ∧
    (let c : Cmd := { aCmd 5 with lines := [⟨[(locG 0x60000, .val 7)], [locG 0x60000]⟩] }
     ((locG 0x60000).span 4).any (fun l => (cmdWorld c).owned l || (cmdWorld c).pinned l) = true) := by decide +kernel

/-! ### Events of the dispatcher and of pre-emption -/

theorem witness_DispatcherEventsComplete_grids :
    (let w := (world []).modCluster 0 fun c => { c with bins := [{ entry := 0, grid := 0, args := [7], vset := 1, coset := 1, started := 0 }] }
     let s := { w with ticks := 4096 }
     ((s.cluster 0).bins.all fun b => decide (b.started + s.binPeriod 0 b ≤ s.ticks)) = true) ∧
    (let s := withSkein (fun k => { k with splits := [] }) (world [])
     (s.blocks.all s.mayRetire) = true) ∧
    (let s := { world [] with blocks := [], skeins := [], grids := [{ fetchGrid with avail := [(0, 0)] }] }
     (s.cluster 0).online = true ∧ ((s.placeables 0 fun _ _ => 1).map (·.blk)) = [0] ∧ (s.grids.all fun g => s.fits g 0) = true) := by decide +kernel

/-- A grid with a block held on bit 0 of the word at 0x1000, which is set. -/
def heldGrid : State :=
  { world [] with
    mem := cellsWrite (world []).mem 0x51000 [1],
    grids := [{ fetchGrid with producer := 0x1000, p := 1, m := 1, q := 1, held := [0] }] }

theorem witness_DispatcherEventsComplete_dependency :
    (heldGrid.grids.all fun g => g.held.contains 0 && g.dependsOn 0 == some 0 &&
      (match heldGrid.depBit g 0 with | .ok b => b | .error _ => false)) = true := by decide +kernel

/-- A record in the cluster's mender. -/
def recordWorld (cause : Nat) (code : BitVec 16) (dbg : Option Nat) : State :=
  let s := (world []).modCluster 0 fun c => { c with records := [{ (default : Record) with cause := cause, code := code }] }
  { s with ctxs := s.ctxs.map fun c => { c with dbg := dbg } }

theorem witness_DispatcherEventsComplete_mender :
    recoverable 0x8100 = false ∧ recoverable 0x0C00 = true ∧
    ([(0, 0x8100#16, none), (6, 0x0C03#16, none), (2, 0x9200#16, none), (3, 0x9100#16, some 0), (4, 0#16, some 0), (4, 0#16, none)].all
      fun x => ((recordWorld x.1 x.2.1 x.2.2).cluster 0).records.length == 1 && (recordWorld x.1 x.2.1 x.2.2).ctxs.all (·.dbg == x.2.2)) =
      true ∧
    ((withCtx (fun c => { c with ending := some [0], code := some 0x8100 }) (world [])).ctxs.all fun c => c.ending == some [0]) =
      true ∧ ((world []).skeins.all fun k => k.preqs.isEmpty) = true ∧
    (let s := (world []).modCluster 0 fun c => { c with stages := c.stages.set 63 ⟨true, 63, 1, 0, 0, 3, false⟩ }
     ((s.cluster 0).stages[63]?).elim false (·.valid) = true ∧ 0 < s.clusters.length) := by decide +kernel

/-- A launch descriptor of one block at entry 0, and a code object of one word of code. -/
def aDesc : List Byte := List.replicate 24 0 ++ bytesLE 4 1 ++ List.replicate 100 0
def anImage : ObjImage := ⟨0x100000, [0, 0, 0, 0], 0, [], 0, [], 0, [], [], none, none, []⟩

theorem witness_DispatcherEventsComplete_submissions :
    ((world []).ctxs.all fun c => !c.over && !(world []).drains c.part &&
      ((world []).parseDesc c .finwesin .finwesin aDesc).isSome) = true ∧
    recipesOk anImage.recipeBytes = true ∧ kernelOk ⟨0, 256, 1, 8192, 4, 4, 1, 0⟩ = true ∧
    (((world []).loadSection 0 (objBase anImage .code) (objRelocated anImage .code anImage.codeBytes) (tenantBit 0) 5).isSome &&
      ((world []).loadSection 0 (objBase anImage .data) (objRelocated anImage .data anImage.dataBytes) (tenantBit 0) 3).isSome) =
      true := by decide +kernel

/-- A world whose context is in a state of pre-emption on cluster 0. -/
def phaseWorld (x : CtxOn) (s : State) : State := { s with ctxs := s.ctxs.map fun c => { c with onCl := [x] } }

theorem witness_PreemptionComplete :
    (let s := { phaseWorld ⟨0, .running, 0, false⟩ (world []) with ticks := 64 * 2 ^ 16 }
     (s.ctxs.all fun c => !c.over && c.onCl.any fun x => x.phase == .running &&
       decide (x.since + (s.sliceOf c.part - (s.cluster x.cl).debt c.tenant) ≤ s.ticks)) = true) ∧
    (let s := phaseWorld ⟨0, .stopping, 0, false⟩ (withSkein (fun k => { k with splits := [] }) (world []))
     (s.ctxs.all fun c => c.phase 0 == .stopping) = true ∧
       ((s.stopAllStuck 0 0).skeins.all fun k => k.stop.isNone && k.splits.isEmpty) = true) ∧
    (let s := phaseWorld ⟨0, .stopping, 0, false⟩ (aStop 0 5 false (world []))
     ((s.stopAllStuck 0 0).skeins.all fun k => k.stop.elim false (·.record.cause == 5)) = true) ∧
    (let s := phaseWorld ⟨0, .draining, 0, false⟩ (world [])
     (s.ctxs.all fun c => c.phase 0 == .draining) = true ∧
       (s.skeins.all fun k => k.cmds.isEmpty && k.mq.isEmpty && k.stores.isEmpty && k.preqs.isEmpty) = true) ∧
    (let s := { phaseWorld ⟨0, .draining, 0, true⟩ (world []) with ticks := 5 * 64 * 2 ^ 16 }
     (s.ctxs.all fun c => decide (4 * s.sliceOf c.part ≤ c.overrun + s.runningOverrun c)) = true ∧
       0 + s.sliceOf 0 / 8 ≤ s.ticks) ∧
    ((phaseWorld ⟨0, .saved, 0, false⟩ (world [])).ctxs.all fun c => c.phase 0 == .saved && c.savedBlocks.isEmpty) = true := by
  decide +kernel

theorem witness_PreemptionComplete_blocks :
    (let s := { phaseWorld ⟨0, .stopping, 0, false⟩ (world []) with grids := [{ fetchGrid with idem := true }] }
     (s.blocks.all fun b => s.grids.all fun g => s.mayDrop b g && (s.skeinsOf b).all fun k =>
       k.cmds.isEmpty && k.stores.isEmpty && !k.calling) = true) ∧
    (let s := withSkein (fun k => { k with cmds := [aCmd 3] }) { phaseWorld ⟨0, .stopping, 0, false⟩ (world []) with
       grids := [{ fetchGrid with idem := true }] }
     (s.blocks.all fun b => s.grids.all fun g => s.mayDrop b g && (s.skeinsOf b).all fun k => !k.cmds.isEmpty) = true) ∧
    (let s := phaseWorld ⟨0, .draining, 0, false⟩ (world [])
     (s.ctxs.all fun c => c.phase 0 == .draining) = true ∧ (s.blocks.all fun b => !b.dropping && b.ctx == 0 && b.cluster == 0) = true) ∧
    (let b := Block.fresh fetchGrid 0 0 [0]
     let s := { phaseWorld ⟨0, .saved, 0, false⟩ (world []) with skeins := [], blocks := [] }
     (s.restoreBlocks 0 0 [b]).2 = []) := by decide +kernel

/-! ### Service calls -/

/-- The unanswered call of lane 0 satisfies a condition. -/
def asked (s : State) (f : Req → Bool) : Bool := (s.request 0 0 0).elim false f
/-- A service answers. -/
def served (r : Serve α) : Bool := match r with | .ok _ => true | .error _ => false

theorem witness_ServiceCallsComplete_memory :
    asked (aCall 0 [0, 0, 0, 0] none (world [])) (fun r => r.arg 3 == 0) = true ∧
    asked (aCall 1 [65536, 0, 0, 0] none (world [])) (fun r =>
      r.pair 0 % pageBytes 0 == 0 && (r.s.oset r.c.part 0).subset r.c.readMask) = true ∧
    asked (aCall 1 [65536, 0, 1, 0] none { world [] with clusters := (world []).clusters.modify 0 fun c => { c with wins := [] } })
      (fun r => (r.s.cluster 0).wins.isEmpty) = true ∧
    asked (aCall 2 [0, 0, 65536, 0] none (world [])) (fun r => r.c.holdsRange [0, 2] (r.pair 0) (r.arg 2)) = true ∧
    asked (aCall 3 [0, 7168, 1024, 1] none (world [])) (fun r => decide (r.arg 1 + r.arg 2 ≤ r.s.spaceSize r.k .s)) = true ∧
    asked (aCall 3 [1, 3072, 1024, 1] none (world [])) (fun r => decide (r.arg 1 + r.arg 2 ≤ r.s.spaceSize r.k .c)) = true := by
  decide +kernel

theorem witness_ServiceCallsComplete_baskets :
    asked (aCall 0x28 [4, 0, 1, 0] none (world [])) (fun r => decide (r.arg 1 + 16 * 16 ≤ r.s.spaceSize r.k .s) &&
      !r.s.hitsBasket r.k .s 0 256 && ((r.s.cluster 0).baskets.getD 0 Basket.reset).st == .free) = true ∧
    asked (aCall 0x28 [0x24C, 0, 1, 0] none (world [])) (fun r =>
      decide ((r.s.cluster 0).basketBytes + 2 ^ 12 * 256 ≤ 2 ^ 21)) = true ∧
    asked (aCall 0x29 [63, 0, 0, 0] none (basketWorld .opened [])) (fun r => r.basketOk (r.arg 0)) = true ∧
    asked (aCall 0x2A [63, 4096, 0, 0] none (basketWorld .opened [])) (fun r => r.basketOk (r.arg 0)) = true ∧
    asked (aCall 0x2B [63, 0, 0, 0] none ((world []).modCluster 0 fun c => { c with
      stages := c.stages.set 63 ⟨true, 63, 1, 0, 0, 3, false⟩ })) (fun r =>
      ((r.s.cluster 0).stages[63]?).elim false fun x => x.valid && x.ctx == r.c.id) = true ∧
    asked (aCall 0x30 [0, 0, 16777216, 0] none (world [])) (fun r =>
      r.c.objs.any fun o => o.kernels.any fun q => o.code + q.entry == r.pair 0) = true ∧
    asked (aCall 0x3A [] none (world [])) (fun r => r.call.num == 0x3A) = true := by decide +kernel

/-- A world with bytes at 0x1000. -/
def dataWorld (bs : List Byte) : State := { world [] with mem := cellsWrite (world []).mem 0x51000 bs }

theorem witness_ServiceCallsComplete_groups :
    asked (aCall 0x31 [0x1000, 0, 2, 1] none (dataWorld [0, 0, 1, 0])) (fun r =>
      (match r.read (r.pair 0) (2 * r.arg 2) 0 with
       | .ok q => q.2.1 == [0, 0, 1, 0]
       | .error _ => false) && (r.s.part 0).selfIndex == 1) = true ∧
    asked (aCall 0x38 [0x1000, 0, 0, 0] none (dataWorld [0, 0x20])) (fun r => served (r.read (r.pair 0) 16 0)) = true ∧
    asked (aCall 0x38 [0x1000, 0, 1, 0] none (dataWorld [0, 0x20])) (fun r => r.s.grids.any fun g => g.id == 0 && g.part == 0) =
      true ∧
    asked (aCall 0x39 [1, 0, 0, 0] none uintWorld) (fun r =>
      r.s.uints.any fun t => t.handle == r.arg 0 && t.kind != 2 && t.ctx == r.c.id) = true := by decide +kernel

/-- A world with an open file and an open socket, a namespace, and destinations. -/
def fileWorld (bs : List Byte) : State :=
  let s := dataWorld bs
  { s with
    ctxs := s.ctxs.map fun c => { c with descs := [⟨1, 0, [0x61], 3, true⟩, ⟨2, 0, [6, 0, 80, 0], 0, false⟩] },
    files := [⟨0, 0, [0x61], [7]⟩],
    parts := s.parts.modify 0 fun p => { p with namespaces := [1], dests := [⟨1, 0, ofBytesLE [6, 0, 80, 0], 0⟩] } }

theorem witness_TransfersComplete_files :
    asked (aCall 0x10 [0x1000, 0, 1, 0] none (fileWorld [0x61, 0])) (fun r =>
      (match r.string (r.pair 0) 256 0 with
       | .ok q => pathOf q.2.1 == some [0x61]
       | .error _ => false) && (r.s.file? 0 0 [0x61]).isSome) = true ∧
    asked (aCall 0x11 [1, 4, 0x1000, 0] none (fileWorld [0, 0x20])) (fun r => !r.inFlight && served (do
      let (q, buf, _, x) ← r.ioRecord
      q.reach needStore buf (r.arg 1) x)) = true ∧
    asked (aCall 0x12 [1, 4, 0x1000, 0] none (fileWorld [0, 0x20])) (fun r => !r.inFlight && served (do
      let (q, buf, _, x) ← r.ioRecord
      let (u, _, y) ← q.read buf (r.arg 1) x
      u.reach needLoad buf (r.arg 1) y)) = true ∧
    asked (aCall 0x13 [1, 0, 0, 0] none (fileWorld [])) (fun r => r.c.descs.any fun e => e.num == 1 && e.isFile) = true := by
  decide +kernel

theorem witness_TransfersComplete_sockets :
    asked (aCall 0x18 [7, 1, 0x1000, 0] none (fileWorld [6, 0])) (fun r => served (r.read (r.pair 2) 24 0)) = true ∧
    asked (aCall 0x19 [2, 4, 0x1000, 0] none (fileWorld [1, 2, 3, 4])) (fun r =>
      (match r.read (r.pair 2) (r.arg 1) 0 with
       | .ok q => (q.2.2 ||| q.1.argset) == 1#16 <<< 0
       | .error _ => false) && (r.s.part 0).dests.any fun e => e.kind == 1 && e.target == ofBytesLE [6, 0, 80, 0]) = true ∧
    asked (aCall 0x1A [2, 4, 0x1000, 0] none (fileWorld [])) (fun r => served (r.reach needStore (r.pair 2) (r.arg 1) 0)) = true ∧
    asked (aCall 0x1B [2, 0, 0, 0] none (fileWorld [])) (fun r => r.c.descs.any fun e => e.num == 2 && !e.isFile) = true := by
  decide +kernel

/-- EGRESS of four bytes at 0x2000 to destination 0, a memory window, without a policy. -/
def egressWorld : State :=
  let s := dataWorld [0, 0x20]
  { s with parts := s.parts.modify 0 fun p => { p with dests := [⟨0, 0, 0, 0⟩] } }

theorem witness_TransfersComplete_egress :
    asked (aCall 0x20 [0, 4, 0x1000, 0] none egressWorld) (fun r => served (do
      let (q, buf, rest, x) ← r.ioRecord
      let (u, _, y) ← q.read buf (r.arg 1) x
      if (u.gate (y ||| u.argset) rest).toOption == some (0, 0) then .ok () else .error none)) = true ∧
    (let c : Nvme := { (default : Nvme) with id := 5, frames := [3] }
     let s : State := { world [] with nvme := [c], quarantined := [3], ticks := 52500000000 }
     s.nvme.find? (·.id == c.id) = some c ∧ c.resetting = false ∧ c.sent + 52500000000 ≤ s.ticks + s.frozenTicks ∧
       (c.frames.any fun f => s.quarantined.contains f) = true ∧ ((world []).quarantined.isEmpty) = true) := by decide +kernel

/-! ### Hosts, management, power -/

/-- A virtual function with a request in its queue; its window lies at the context's page. -/
def vfWorld (request : List Byte) : State :=
  { world [] with vfs := [{ aVf with winBase := 0x50000, chains := [(0, ⟨request, 16⟩)] }] }
/-- A request of a type with its fields at 8, 16, 24 and 28. -/
def aRequest (t a b c d : Nat) : List Byte :=
  bytesLE 2 t ++ List.replicate 6 0 ++ bytesLE 8 a ++ bytesLE 8 b ++ bytesLE 4 c ++ bytesLE 4 d

theorem witness_RequestsComplete :
    (vfWorld []).vfs.all (fun v => v.live 0 && v.live 1 && ((vfWorld []).ctx? v.ctx).isSome) = true ∧
    [aRequest 1 0x1000 0 0 0, aRequest 2 0 0x100000 65536 0, aRequest 3 0 0x100000 65536 0, aRequest 4 0x2000 0 0 0,
      aRequest 5 1 0 0 0].all (fun r => (chainType ⟨r, 16⟩).isSome) = true ∧
    chainType ⟨aRequest 6 0 0 0 0, 16⟩ = none ∧
    (let s := { vfWorld [] with mem := cellsWrite (vfWorld []).mem 0x51000 aDesc }
     (s.ctxs.all fun x => (s.parseDesc x (.queue 0 (s.windowSet x 0x51000 128)) (.queue 1 0) (cellsRead s.mem 0x51000 128)).isSome &&
       x.code.isNone && (x.regions ++ x.shared).all fun r => !r.meets 0x100000 65536) = true) ∧
    ((locG 0x51000).span 128).all (fun l => !(vfWorld []).owned l) = true ∧ (vfWorld []).quarantined = [] ∧
    ((List.range 1).map (0x100000 / 65536 + ·)).all (fun q => !(vfWorld []).commandHolds 0 q) = true ∧
    (let s := { withCtx (fun c => { c with regions := [⟨0x100000, 65536, 0x30000000, 0, 2, 3, 0, 1⟩] }) (vfWorld []) with
       ioPages := [(1, 0)] }
     s.ctxs.all (fun x => (x.region? 0x100000).elim false fun r => r.kind == 1 && r.frame == 0x30000000 + 0) = true ∧
       s.ioPages.findIdx? (· == (1, 0)) = some 0) ∧
    (let u := (vfWorld []).ioGrow [(1, 0)]
     u.ioPages.findIdx? (· == (1, 0)) = some 0 ∧ u.ioPages.length ≤ 2 ^ 28 ∧ (vfWorld []).quarantined = []) ∧
    (vfWorld []).posted = [] ∧ ((vfWorld []).failedIn 0x51000 128).isNone = true ∧
    ((failedUnit (vfWorld [])).failedIn 0x51000 128).isSome = true ∧ (vfWorld []).stopped = false ∧
    (let s := { linked (vfWorld []) with groups := [⟨9, 0, [3, 7], 1, 1, true⟩] }
     (s.part 0).hemPorts = [2] ∧ (s.part 0).routes = [5] ∧ (s.groups.any fun g => g.ctx == aVf.ctx) = true) ∧
    (State.oset (vfWorld []) 0 0).subset (tenantBit 0) = true ∧
    ([⟨1, 2, 0, 1, none, 0⟩] : List UTarget).any (fun g => g.handle == 1 && g.kind == 2 && g.who == 1) = true := by
  decide +kernel

theorem witness_HostAccessesComplete :
    ((vfWorld []).vf? 1).isSome = true ∧ ((locG 0x50000).span 4).all (fun l => !(vfWorld []).owned l && !(vfWorld []).pinned l) = true ∧
    (vfWorld []).heldOutside = [] ∧ (vfWorld []).postedOver 0x50000 4 = false ∧
    (((locG 0x51000).span 4).find? (vfWorld []).failedAt).isNone = true ∧
    (((locG 0x51000).span 4).find? (failedUnit (vfWorld [])).failedAt).isSome = true ∧
    ({ vfWorld [] with posted := [(0x50000, [1])] } : State).postedOver 0x50000 4 = true ∧
    (Outside.app 3 0x200000000000 (.load 4)).agent = some (3, true) ∧ (Outside.window 1 ⟨2, 0⟩ 4).agent = some (1, false) ∧
    ((world []).failedIn 0x200000000000 4).isNone = true ∧ ((failedUnit (world [])).failedIn 0x51000 4).isSome = true ∧
    ({ world [] with reserves := [⟨3, 0x50000, 4, 0⟩] } : State).stands ⟨3, 0x50000, 4, 0⟩ = true ∧
    paType 0x50000 = 0 ∧ paExists 0 0x50000 = true ∧ paType 0x200000000000 = 1 ∧ paType 0x20000000000F = 1 ∧
    ({ world [] with modSt := .up } : State).alive = true ∧
    ([AppOp.load 4, .store [1, 2], .amo .swap 4 1 true true, .amocas 8 0 1 false false, .lr 8 true false, .sc [1, 2, 3, 4] false true].all
      fun op => appShaped op 0x50000 && appShaped op 0x200000000000 && !(world []).appHeld 0x50000 op) = true ∧
    (let s := { withCtx (fun c => { c with domain := some 3 }) (world []) with grants := [⟨5, 3, 0, 0, 1⟩] }
     (s.grants.find? fun g => g.domain == 3 && g.piece == 0x50000 / 65536) = some ⟨5, 3, 0, 0, 1⟩ ∧
       (s.grantSet ⟨5, 3, 0, 0, 1⟩).subset (s.domainTenants 3) = true ∧
       (s.grants.find? fun g => g.domain == 4 && g.piece == 0x50000 / 65536) = none) ∧
    (match (world []).svcPiece 0 ⟨false, false, false, false⟩ 0 1 with
     | .ok q => q.2.type == 0
     | .error _ => false) = true := by decide +kernel

/-- A policy body for partition 0 with destination 0, identity 1 and one use. -/
def aBody (uses : Nat) : List Byte :=
  bytesLE 2 1 ++ bytesLE 2 1 ++ bytesLE 4 1 ++ List.replicate 40 0 ++ bytesLE 8 64 ++ bytesLE 4 uses ++ List.replicate 68 0

theorem witness_ManagementComplete :
    (world []).serving = [] ∧ ([0, 1, 2].all fun n => !(world []).busy ⟨n, 7, false⟩) = true ∧
    (let m : Mailbox := { Mailbox.reset with doorbell := true }
     ({ world [] with mailboxes := [m, m] } : State).busy ⟨0, 7, false⟩ = true) ∧
    ({ world [] with serving := [(⟨2, 7, false⟩, 0)] } : State).serving = [(⟨2, 7, false⟩, 0)] ∧ (world []).quiesced 0 = false ∧
    ((world []).modPart 0 fun q => { q with st := .quiesced }).quiesced 0 = true ∧
    (world []).targetOk 0 = true ∧ (world []).targetOk 0xFF = true ∧
    (withCtx (fun c => { c with finished := true, gids := [5], code := some 0xC100 }) (world [])).ctxs.any (fun c =>
      c.finished && c.gids.contains 5 && severity (c.code.getD 0) == 3) = true ∧
    ((world []).ctxOfGrid 0).isSome = true ∧ (aBody 1).length = 128 ∧ bodyField (aBody 1) 56 4 ≠ 0 ∧
    bodyField (aBody 0) 56 4 = 0 ∧
    (match (world []).install (aBody 1) [] with | .error _ => true | .ok _ => false) = true ∧
    (let s := { withCtx (fun c => { c with dbg := some 0 }) (world []) with dbgQueue := [(default : Record)] }
     (s.dbgQueue.find? fun r => s.dbgBy ⟨0, 7, false⟩ r.ctx).isSome = true ∧ s.dbgBy ⟨1, 7, false⟩ 0 = false) ∧
    (let s := withCtx (fun c => { c with dbg := some 0 })
       (withSkein (fun k => { k with stop := some ⟨{ k.record 0 0 1 with cause := 3 }, 0, none, true, false⟩ }) (world []))
     (s.dbgSkein ⟨0, 7, false⟩ ⟨0, 0, 0, 0, 0, 0, 256⟩).elim false (fun k => (s.dbgItem k ⟨0, 0, 0, 0, 0, 0, 256⟩).isSome &&
       (s.dbgPut k ⟨0, 0, 0, 2, 0, 0, 0⟩ [1]).isSome) = true) ∧
    (world []).mailboxes[1]? = some Mailbox.reset ∧ Mailbox.reset.doorbell = false ∧
    (Mailbox.reset.write 0x10 1).2 = true ∧ (Mailbox.reset.write 0 1).2 = false ∧
    (world []).gen.getLsbD 0 = false ∧ ({ world [] with gen := 1 } : State).gen.getLsbD 0 = true ∧
    0x14 ∉ [1, 2, 3, 4, 5, 6, 7, 8, 0x10, 0x11, 0x12, 0x13] := by decide +kernel

theorem witness_ModuleEventsComplete :
    State.reset.cap.toNat < 4201 ∧ State.reset.debugMode = false ∧ ({ State.reset with debugMode := true } : State).debugMode = true ∧
    firstUnverified (default : BootConfig) = none ∧
    (let cfg : BootConfig := { (default : BootConfig) with
       partitionsOk := true, stacksUp := BitVec.allOnes 24, diesUp := BitVec.allOnes 24, seamsUp := BitVec.allOnes 38 }
     bootPartitionsOk cfg = true ∧ cfg.offlineClusters = [] ∧ cfg.portsFailed = [] ∧ cfg.ethFailed = [] ∧ cfg.nvmeFailed = []) ∧
    ({ State.reset with frozen := true } : State).frozen = true ∧ State.reset.shifted = false ∧
    ((List.range 24).all fun d => (reached (BitVec.allOnes 38 &&& ~~~(1#38 <<< 0))).contains d) = true := by decide +kernel

/-! ### Functions, stops and further clauses -/

/-- R55: the first bytes of SHAKE256 of no bytes, as FIPS 202's example gives them: 46 B9 DD 2B. -/
theorem test_shake256_of_nothing : (shake256 []).toNat % 2 ^ 32 = 0x2BDDB946 := by decide +kernel

/-- R106: the root of 4.0, 2 to the power of 3.0, the logarithm of 8.0, and the cosine of one half-turn. -/
theorem test_floating_functions :
    after (.sqrt .f32 16 0) (world [0x40800000]) 16 8 = some 0x40000000 ∧
    after (.exp2 .f32 16 0) (world [0x40400000]) 16 8 = some 0x41000000 ∧
    after (.log2 .f32 16 0) (world [0x41000000]) 16 8 = some 0x40400000 ∧
    after (.cos .f32 16 0) (world [0x3F800000]) 16 8 = some 0xBF800000 := by decide +kernel
/-- R103: NEG keeps the pattern of a NaN but for its sign. -/
theorem test_neg_float : after (.neg .f32 16 0) (world [0x7FC00001]) 16 8 = some 0xFFC00001 := by decide +kernel

theorem witness_BitFunctions_float : Width.f32.isFloat = true ∧ 0x7FC00001 < 2 ^ Width.f32.bits ∧
    ([Instr.mov .f32 16 0, .neg .f32 16 0, .abs .f32 16 0].all fun i => (laneRow i).isSome) = true := by decide

/-- NaN, the infinities, the zeros, a negative number, an integer, a half, and powers of two. -/
theorem witness_FloatingRounding_functions :
    let v := (fmtOf .f32).value
    ([Instr.sqrt .f32 0 0, .rcp .f32 0 0, .rsq .f32 0 0, .exp2 .f32 0 0, .log2 .f32 0 0, .sin .f32 0 0, .cos .f32 0 0].all fun i =>
      (laneRow i).isSome) = true ∧
    v 0x7FC00000 = .nan ∧ v 0x7F800000 = .inf false ∧ v 0xFF800000 = .inf true ∧
    (match v 0x80000000 with | .fin n 0 _ => n | _ => false) = true ∧
    (match v 0xBF800000 with | .fin n m _ => n && m != 0 | _ => false) = true ∧
    (match v 0x40400000 with | .fin false m e => decide (m * 2 ^ (e + 64).toNat = 3 * 2 ^ 64) | _ => false) = true ∧
    (match v 0x3F000000 with | .fin false m e => decide (2 * m * 2 ^ (e + 64).toNat = 2 ^ 64) | _ => false) = true ∧
    (match v 0x3F800000 with | .fin false m e => decide (m * 2 ^ (e + 64).toNat = 2 ^ 64) | _ => false) = true := by decide +kernel

/-- A world of one active lane whose page at 0 has given permissions and a set. -/
def paged (perm : Nat) (set : Nat) (vals : List Nat) : State :=
  withSplit (fun p => { p with em := 1 }) { world vals with mem := memPut8 (world vals).mem 0x40000 (pteMake set 5 0 perm 0) }

/-- An access in one space at the address pair (v4, v5) of lane 0, and what holds of its address. -/
def accessAt (i : Instr) (s : State) (f : AccessRow → Iss → Nat → Bool) : Bool :=
  (accessRow i).elim false fun r => meets i s fun _ p o => do
    let x ← o.operands (r.ops p.em)
    let (_, y) ← x.policy r.pol r.store
    pure (f r y (y.ea r.n 0))

/-- The leaf that an address of the split's context reaches. -/
def leafAt (y : Iss) (va : Nat) (f : Leaf → Bool) : Bool :=
  match y.s.translate (y.s.ctxOf y.k) va with | .leaf e => f e | _ => false

/-- Where accesses stop: misaligned, out of range, in a basket's storage, unmapped with and without a free entry, not permitted, veiled. -/
theorem witness_LoadsComplete_stops :
    accessAt (.ldg .i32 16 4 0 0) (paged 7 0 [0, 0, 0, 0, 0x1002]) (fun r _ a => a % r.bytes != 0) = true ∧
    accessAt (.sts .i32 16 4) (paged 7 0 [0, 0, 0, 0, 8192]) (fun r y a => a % r.bytes == 0 && r.sp == .s &&
      decide (y.s.spaceSize y.k .s < a + r.bytes)) = true ∧
    (let s := ((paged 7 0 [0, 0, 0, 0, 32]).modBasket 0 63 fun _ => ⟨.opened, 0, 0, 0, (0, 0), 16, 16, 0, 1, []⟩)
     accessAt (.lds .i32 16 4 0) s (fun r y a => y.s.hitsBasket y.k r.sp a r.bytes) = true ∧ trapOf (.lds .i32 16 4 0) s = some 0x8406) ∧
    accessAt (.aadd 0 0 0 0 4 0 0) (paged 7 0 [0, 0, 0, 0, 0x90000]) (fun r y a => a % r.bytes == 0 &&
      decide (y.s.translate (y.s.ctxOf y.k) a = .unmapped) && decide ((y.s.cluster y.k.cluster).fbuf.length < 64) &&
      !y.k.swlo.getLsbD 1 && decide (y.k.cluster < y.s.clusters.length)) = true ∧
    accessAt (.ldg .i32 16 4 0 0) ((paged 7 0 [0, 0, 0, 0, 0x90000]).modCluster 0 fun c => { c with fbuf := List.replicate 64 default })
      (fun _ y a => decide (y.s.translate (y.s.ctxOf y.k) a = .unmapped) && decide (64 ≤ (y.s.cluster y.k.cluster).fbuf.length)) = true ∧
    accessAt (.stg .i32 16 4 0) (paged 1 0 [0, 0, 0, 0, 0x1000]) (fun r y a => leafAt y a fun e => r.need.wr && !e.wr) = true ∧
    accessAt (.ldg .i32 16 4 0 0) (withCtx (fun c => { c with readMask := 0 }) (paged 7 0 [0, 0, 0, 0, 0x1000])) (fun r y a => leafAt y a fun e => r.need.mask && e.rd &&
      e.set &&& ~~~(y.s.ctxOf y.k).readMask != 0) = true := by decide +kernel
/-- R118, R119, R185, R200: the codes of those stops. -/
theorem test_access_traps :
    trapOf (.ldg .i32 16 4 0 0) (paged 7 0 [0, 0, 0, 0, 0x1002]) = some 0x8202 ∧
    trapOf (.sts .i32 16 4) (paged 7 0 [0, 0, 0, 0, 8192]) = some 0x8403 ∧
    trapOf (.stg .i32 16 4 0) (paged 1 0 [0, 0, 0, 0, 0x1000]) = some 0x8401 := by decide +kernel
theorem test_access_veiled : trapOf (.ldg .i32 16 4 0 0) (withCtx (fun c => { c with readMask := 0 }) (paged 7 0 [0, 0, 0, 0, 0x1000])) = some 0x8402 := by decide +kernel

/-- Targets that differ, and one that is no multiple of 4. -/
theorem witness_RegisterTransfersComplete_traps :
    meets (.ret 0) lanesWorld (fun _ p o => do
      let x ← o.operands [opdIn 0 16 p.em]
      pure (p.em.getLsbD 0 && x.raw 1 0 16 != x.raw 0 0 16)) = true ∧
    meets (.calli 16 0) (world [6]) (fun _ p o => do
      let x ← o.operands [opdIn 0 16 p.em, opdOut 16 16]
      pure (p.em.getLsbD 0 && laneIds.all fun l => x.raw l 0 16 == 6)) = true ∧
    trapOf (.jmpi 0) lanesWorld = some 0x8203 ∧ trapOf (.ret 0) (world [6]) = some 0x8202 := by decide +kernel

theorem witness_DivergenceCompletes_traps :
    (let s := withSkein (fun k => { k with stack := List.replicate 256 half }) lanesWorld
     passes (.split 0 5) s (fun _ p o => o.operands [opdIn 0 1 p.em]) = true ∧
       (s.current.elim false fun q => decide (256 ≤ q.1.stack.length)) = true) ∧
    meets .join (world []) (fun _ p _ => pure p.inner.isNone) = true ∧ trapOf .join (world []) = some 0x8205 := by decide +kernel

/-- An atomic on PCIe memory whose request expired. -/
theorem witness_AtomicsComplete_expired :
    meets (.aadd 0 0 0 0 4 0 0) (withSplit (fun p => { p with em := 1 }) (pcieMapped [⟨0, 0, none, 0, [], none, true, []⟩])) (fun _ p o => do
      let x ← o.operands (AtomF.opds ⟨0, 0, 0, 0, 4, 0, 0⟩ .add p.em)
      let as ← x.map .g 3 needAtomic (x.lanesAt 4 4)
      x.hold true as
      let z ← x.flush (as.flatMap LaneAcc.locs)
      pure ((as.filter LaneAcc.onPcie).length == 1 && z.request.elim false (·.expired))) = true := by decide +kernel

/-- A world whose block's barrier 0 has one part of the skein. -/
def barWorld (p : BarPart) : State :=
  { world [] with blocks := (world []).blocks.map fun b => { b with bars := b.bars.set 0 { Bar.fresh 1 with parts := [p] } } }

/-- A part that has arrived, and one of which some of the split's lanes have. -/
theorem witness_BlockBarriersComplete_overArrival :
    (let s := barWorld ⟨true, true, false, 0⟩
     (s.current.elim false fun q => (((s.blockOf q.1).bars.getD 0 default).partOf q.1.num).arrived && q.2.members != 0) = true ∧
       starts (.bar 0) s = true ∧ trapOf (.bar 0) s = some 0x8A00) ∧
    (let s := barWorld ⟨true, false, false, 3⟩
     (s.current.elim false fun q =>
       let x := ((s.blockOf q.1).bars.getD 0 default).partOf q.1.num
       x.participant && !x.arrived && x.lanes &&& q.2.members != 0) = true ∧
       passes (.bararr 0 8 0) s (fun _ _ o => o.operands [opdOut 8 4]) = true ∧ trapOf (.bardrop 0) s = some 0x8A00) := by decide +kernel

/-- The traps of R224: offsets that differ, a wrong multiple, out of range, no object, a set that is not taken, no arrival left. -/
theorem witness_ScratchpadBarriersComplete_traps :
    meets (.sbdrop 0) lanesWorld (fun _ p o => pure (p.em.getLsbD 0 && o.raw 1 0 8 != o.raw 0 0 8)) = true ∧
    trapOf (.sbdrop 0) lanesWorld = some 0x8203 ∧ trapOf (.sbdrop 8) (world [0, 8]) = some 0x8202 ∧
    trapOf (.sbdrop 8) (world [0, 8192]) = some 0x8403 ∧ trapOf (.sbdrop 8) (world [0, 16]) = some 0x8204 ∧
    trapOf (.sbinit 0 8) (world [0, 16]) = some 0x8204 := by decide +kernel
theorem witness_ScratchpadBarriersComplete_late :
    let spent : State := match (world [1, 16]).blocks.head? with
      | some b => (world [1, 16]).sbPut b 16 ⟨0, 1, 0, 1, 64, 0⟩
      | none => world []
    trapOf (.sbarr 16 8 0) spent = some 0x8A10 ∧
    trapOf (.sbexp 0 8) (withSkein (fun k => { k with sets := List.replicate 32 2 }) sbWorld) = some 0x8500 := by decide +kernel

/-- FENCE.SY whose write-back's request expired. -/
theorem witness_FencesAndCachesComplete_expired :
    let s := withSkein (fun k => { k with wbs := [0], preqs := [⟨0, 0, none, 0, [], none, true, []⟩] }) (world [])
    meets (.fence 1 4) s (fun _ p o => do
      let x ← o.landOwn.release false
      pure (x.k.wbs.contains p.uid && x.request.elim false (·.expired))) = true := by decide +kernel

/-- A thread whose entry is no kernel of one skein, and the states in which a thread finds a bin, the last place of one, or none. -/
theorem witness_SpawnAndLaunchComplete_bins :
    trapOf (.spawn 0 32 0) (world [5, 0, 4, 0]) = some 0x8204 ∧
    meets (.spawn 0 32 0) (world [5, 0, 4, 0]) (fun _ p o => do
      let x ← o.operands [⟨0, 32, 32, p.em, true, false⟩, opdOut 32 1]
      pure (p.em.getLsbD 0 && !x.s.spawnable x.k (x.raw 0 16 16))) = true ∧
    (let bin (n : Nat) : Bin := ⟨0, 0, List.replicate n 7, 1, 1, 0, []⟩
     let s (bs : List Bin) : State := (world []).modCluster 0 fun c => { c with bins := bs }
     fetchGrid.level ≠ 9 ∧ ((s []).cluster 0).bins = [] ∧ 64 ≤ ((s (List.replicate 64 ⟨4, 0, [], 1, 1, 0, []⟩)).cluster 0).bins.length ∧
       ([3, 31].all fun n => decide (((s [bin n]).cluster 0).bins = [] ++ bin n :: []) && (bin n).entry == 0 && (bin n).grid == fetchGrid.id) =
         true ∧ 0 < (s []).clusters.length) := by decide +kernel

/-- A skein with a window of 31 slices. -/
theorem witness_ServiceWordsComplete_window :
    let s := withSkein (fun k => { k with window := 31 }) (world [])
    starts (.syscall 0) s = true ∧ s.skeins.all (fun k => decide (k.window < 32)) = true ∧ trapOf (.syscall 0) s = some 0x8201 := by
  decide +kernel

/-- An engine command whose arguments, first region, second region, permission, barrier or set is at fault. -/
theorem witness_WringerCommandsComplete_stops :
    trapOf (.wcopy 0 64 0) (world [0x1001, 0, 0, 0, 128, 0, 0, 0, 0]) = some 0x8204 ∧
    trapOf (.wcopy 0 64 0) (world [0x1000, 0, 8192, 0, 128, 0, 0, 0, 0]) = some 0x8403 ∧
    trapOf (.wcopy 0 64 0) (world [0x1000, 0, 0, 0, 128, 0, 0, 0, 0x80000008]) = some 0x8202 ∧
    trapOf (.wcopy 0 64 0) (world [0x1000, 0, 0, 0, 128, 0, 0, 0, 0x80000010]) = some 0x8204 ∧
    trapOf (.wfill 0 64 2) (withSkein (fun k => { k with sets := List.replicate 32 2 }) (world [0, 0, 0, 0, 128, 7, 0, 0, 0])) =
      some 0x8500 ∧
    trapOf (.wsend 0) (world [0x1000, 0, 0x2000, 0, 128, 2]) = some 0x8204 ∧
    trapOf (.wcollGather 0) (world [0x1000, 0, 0x2000, 0, 4, 9, 0]) = some 0x8204 := by decide +kernel
theorem witness_WringerCommandsComplete_regions :
    trapOf (.wgath 0 64 0) (world [0x1000, 0, 0, 0, 1, 0x2000001, 8192, 0, 0]) = some 0x8403 ∧
    trapOf (.wscat 0 64 1) (world [8192, 0, 0x1000, 0, 1, 0x2000001, 64, 0, 0]) = some 0x8403 ∧
    trapOf (.wcopy 255 64 0) (world []) = some 0x8201 ∧
    meets (.wcopy 0 64 0) (world [0x90000, 0, 0, 0, 128, 0, 0, 0, 0]) (fun _ p o => do
      let x ← wringerChecks [(0, 16), (2, 16), (4, 8)] [(64, 8)] o p
      pure (decide (x.s.translate (x.s.ctxOf x.k) 0x90000 = .unmapped) &&
        (match x.region .g needLoad (x.arg 0 0 16) (x.arg 0 4 8) with | .error (.park _ _ _ _) => true | _ => false))) = true ∧
    ((([0x8401, 0x8402].zip [pteMake 0 5 0 0 0, pteMake 0 5 0 7 0]).all fun q =>
      let s := { world [0x1000, 0, 0, 0, 128, 0, 0, 0, 0] with mem := memPut8 (world []).mem 0x40000 q.2 }
      trapOf (.wcopy 0 64 0) (if q.1 == 0x8402 then withCtx (fun c => { c with readMask := 0 }) s else s) == some q.1) = true) := by
  decide +kernel

/-- Bytes dealt out to the lines of a destination, one of which is lost. -/
theorem witness_EngineEventsComplete_lines :
    let a := locG 0x51000
    let b := locG 0x52000
    let ls : List DstLine := [⟨[(a, .val 0)], [a]⟩, ⟨[(b, .val 0)], [b]⟩]
    fillLines [a, b] [5, 6] [1] ls = [⟨[(a, .val 5)], [a]⟩, ⟨[], [b]⟩] ∧ fillLines [b, a] [5, 6] [] ls =
      [⟨[(a, .val 6)], [a]⟩, ⟨[(b, .val 5)], [b]⟩] := by decide

/-- A collective of which this module's first byte is lost. -/
theorem witness_EngineEventsComplete_lost :
    let coll : Cmd := { aCmd 5 with kind := .wcoll 3 9 1 0 [some (.later (locG 0x51000)), none] }
    let s : State := failedUnit (linked { cmdWorld coll with groups := [⟨9, 0, [3, 7], 1, 1, true⟩] })
    (s.failedLater [.later (locG 0x51000)]).isSome = true ∧ s.srcReady 5 [.later (locG 0x51000)] = true := by decide +kernel

theorem witness_MangleWordsComplete_stops :
    trapOf (.mbayBay 8 0 0) (world [0]) = some 0x8204 ∧ trapOf (.mfreeBay 0 8) (mangleWorld [1, 1]) = some 0x8204 ∧
    trapOf (.mwload 0) (mangleWorld [0x1001, 0, 0x2000, 0, 0, 0]) = some 0x8204 ∧
    trapOf (.mma 0) (mangleWorld [8176, 0, 0, 0, 128, 0]) = some 0x8403 ∧
    trapOf (.mdrain 0) (mangleWorld [0, 0, 0, 0, 130, 0]) = some 0x8204 ∧
    trapOf (.mzero 0) (mangleWorld [0, 0, 0, 0, 0, 1]) = some 0x8204 ∧ trapOf (.mma 255) (mangleWorld []) = some 0x8201 := by decide +kernel

/-- A batch 32,768 off the last closed one, and a CLOSE that an incomplete batch holds back. -/
theorem witness_BatchesAndFormatsComplete_range :
    meets (.waitb 0 1) (world [0x8000]) (fun k p o => do
      let x ← o.operands [opdIn 0 4 (topLane p.em id)]
      pure (BitVec.ofNat 16 (x.raw 31 0 4) - k.last 1 == 0x8000#16)) = true ∧
    trapOf (.waitb 0 1) (world [0x8000]) = some 0x8801 ∧ trapOf (.testb 8 0 0 0) (world [0x8000]) = some 0x8800 ∧
    meets (.close 0 0 0) (withSkein (fun k => { k with lastW := 0x7FFF, cmds := [{ aCmd 3 with batch := 1 }] }) (world [])) (fun k _ o => do
      let _ ← o.operands [opdOut 0 4]
      pure (k.closeBlocked 0)) = true := by decide +kernel

/-- Stale handles, handles out of scope, an entry whose set the basket does not take, and a full basket. -/
theorem witness_BasketWordsComplete_handles :
    let far : State := (world [63]).modBasket 0 63 fun _ => ⟨.opened, 0, 5, 1, (0, 0), 16, 16, 0, 1, []⟩
    let stale : State := (world [63 + 256]).modBasket 0 63 fun _ => ⟨.opened, 0, 0, 1, (0, 0), 16, 16, 0, 1, []⟩
    trapOf (.qpush 32 0 0) stale = some 0x8900 ∧ trapOf (.qpop 32 0 0) far = some 0x8900 ∧
    goesOn (.qtry 32 0 0) stale = true ∧ goesOn (.qtry 32 0 0) far = true ∧
    trapOf (.qpush 32 0 0) (withSkein (fun k => { k with sets := List.replicate 32 2 }) (basketWorld .opened [])) = some 0x8500 ∧
    basketChecks true (basketWorld .opened (List.replicate 16 (5, 1))) (.qpush 32 0 0) = true := by decide +kernel

/-- No request waits at a skein; and one whose time runs out while the skein is stopped. -/
theorem witness_FetchAndPcieEventsComplete_late :
    here (world []) (fun k p => k.preqs.isEmpty && ((world []).cluster k.cluster).part == some 0 && p.uid == 0) = true ∧
    (let s : State := aStop 0x8100 0 false { pcieWorld with ticks := 87500000 }
     here s (fun k p => k.stop.isSome && p.st == .stalled (.pcie 1 []) && k.preqs.any fun r => r.uid == p.uid && r.status == none &&
       !r.expired && decide (r.sent + 87500000 ≤ s.ticks + s.frozenTicks)) = true) ∧
    ({ world [] with diesUp := 0 } : State).hbmAt 0x60000 4 = false ∧ (world []).hbmAt 0x60000 4 = true := by decide +kernel

/-- A bin whose time is over, as the one bin of its cluster; and a block of two that may retire, whose bit's word is on a page. -/
theorem witness_DispatcherEventsComplete_launch :
    (let b : Bin := { entry := 0, grid := 0, args := [7], vset := 1, coset := 1, started := 0 }
     let w := (world []).modCluster 0 fun c => { c with bins := [b] }
     let s := { w with ticks := 4096 }
     (s.cluster 0).bins[0]? = some b ∧ b.started + s.binPeriod 0 b ≤ s.ticks ∧ (s.grid? b.grid).isSome = true ∧
       (s.grids.all fun y => y.origin != .spawnOf 0) = true) ∧
    (let s := { withSkein (fun k => { k with splits := [] }) (world []) with grids := [{ fetchGrid with g := 2, bitmap := 0x1000 }] }
     (s.blocks.all fun b => s.mayRetire b && (s.skeinsOf b).all (·.stores.isEmpty)) = true ∧
       (s.grids.all fun g => decide (g.retired + 1 < g.g) && g.origin == .finwesin && (s.ctxs.all fun c =>
         match s.aorPage c (g.bitmap + 4 * (0 / 32)) g.tenant with
         | .ok pa => !s.wordHeld pa && ((locG pa).span 4).all fun l => !s.failedAt l
         | .error _ => false)) = true ∧ Memory.wf s.mem = true) := by decide +kernel

/-- Two blocks that can be placed, one of which has waited long; and a core that takes the first of them. -/
theorem witness_DispatcherEventsComplete_ranking :
    let s : State := { world [] with
      ticks := 70000, blocks := [], skeins := [], own := [1], grids := [{ fetchGrid with avail := [(0, 0), (1, 69999)] }] }
    let ps := s.placeables 0 fun part tenant => s.weight part 0 tenant
    ps.map (·.waited) = [70000, 1] ∧ (ps.all fun q => decide (0 < q.weight)) = true ∧ (s.cluster 0).online = true ∧
    ((sortBy Placeable.before ps).map (·.blk)) = [0, 1] ∧ (s.grids.all fun g => (List.range 8).any fun n => s.takes (s.shape g none) n) = true := by
  decide +kernel

/-- A context that drains with nothing outstanding, without an error in its recipes and with one. -/
theorem witness_PreemptionComplete_save :
    let obj (o : CodeObj) : CodeObj := { o with nrec := 1, recipes := 0x2000 }
    let stopped : State := aStop 0 5 false (withCtx (fun c => { c with objs := c.objs.map obj }) (phaseWorld ⟨0, .draining, 0, false⟩ (world [])))
    (stopped.ctxs.all fun c => c.phase 0 == .draining && stopped.skeins.all fun k =>
      k.cmds.isEmpty && k.mq.isEmpty && k.stores.isEmpty && k.preqs.isEmpty && (stopped.recipeOf c k).isSome &&
        (stopped.recipeFlaw c k false).isNone) = true ∧
    (let s : State := { stopped with failedUnits := [{ sp := .g, own := (0, 0), unit := 0x52008 / 32 }] }
     (s.ctxs.all fun c => s.skeins.all fun k => (s.recipeFlaw c k false).isSome) = true) := by decide +kernel

/-- The partition of a world owns Ethernet port 0, has a VLAN on port 1, and port 2 did not come up. -/
def portWorld (bs : List Byte) : State :=
  (fileWorld bs).modPart 0 fun q => { q with ethPorts := [0, 2], vlans := [(1, 9)], ethDown := [2] }

theorem witness_TransfersComplete_ports :
    (let q := (portWorld []).part 0
     0 ∈ q.ethPorts ∧ 0 ∉ q.ethDown ∧ (∃ v ∈ q.vlans, v.1 = 1) ∧ 2 ∈ q.ethPorts ∧ 2 ∈ q.ethDown ∧ 3 ∉ q.ethPorts ∧
       (¬∃ v ∈ q.vlans, v.1 = 3) ∧ 0 ∉ q.deadNs) ∧
    (let bs : List Byte := [6, 0] ++ List.replicate 22 0
     [0, 2, 3, 9].all (fun n => asked (aCall 0x18 [n, 1, 0x1000, 0] none (portWorld bs)) fun r =>
       r.arg 0 == n.toNat && (match r.read (r.pair 2) 24 0 with | .ok q => q.2.1 == bs | .error _ => false)) = true) := by decide +kernel

/-- A SOCK-RECV whose buffer an engine owns, so that what comes for it waits. -/
theorem witness_TransfersComplete_held :
    let c : Cmd := { aCmd 5 with lines := [⟨[(locG 0x51000, .val 7)], [locG 0x51000]⟩] }
    let s : State := { withSkein (fun k => { k with cmds := [c] }) (aCall 0x1A [2, 4, 0x1000, 0] none (portWorld [])) with nextId := 6 }
    asked s (fun r => !r.receiving && (match r.reach needStore (r.pair 2) (r.arg 1) 0 with | .error none => true | _ => false)) = true := by
  decide +kernel

/-- A storage read and a storage write that complete, and a frame that only its command still uses. -/
theorem witness_TransfersComplete_transfer :
    let r : Nvme := { (default : Nvme) with read := true, data := [1, 2], buf := [(0x51000, 2)], frames := [5] }
    r.status = 0 ∧ ({ r with read := false } : Nvme).status = 0 ∧ Memory.wf (world []).mem = true ∧ (world []).nvme = [] ∧
    5 ∈ ({ world [] with quarantined := [5] } : State).quarantined ∧ ({ r with status := 1 } : Nvme).status ≠ 0 := by decide +kernel

/-- A function whose window lies on a lost stack, and one whose reset finds room in Finwesin's own memory. -/
theorem witness_RequestsComplete_memory :
    ({ vfWorld [] with diesUp := 0 } : State).hbmAt 0x51000 128 = false ∧ (vfWorld []).hbmAt 0x51000 128 = true ∧
    (let s : State := { vfWorld [] with own := [1] }
     (∃ g ∈ s.own, paExists s.localGiB (g * 2 ^ 30) = true ∧ paType (g * 2 ^ 30) = 0) ∧ s.hbmUp = BitVec.allOnes 24 ∧
       s.ownUsed.length < 16384) := by decide +kernel

/-- A debugger that reads a register which holds an error, and one that does not. -/
theorem witness_ManagementComplete_dbg :
    let d : DbgItem := ⟨0, 0, 0, 0, 3, 0, 1⟩
    let s : State := withCtx (fun c => { c with dbg := some 0 }) (aStop 0 3 false (withSkein (fun k => { k with badRegs := [(3, 0)] }) (world [])))
    d.item = 0 ∧ (s.skeins.any fun k => k.badRegs.any fun r => r.1 == d.lane && (regsOf d.first d.count).contains r.2) = true ∧
    (s.skeins.any fun k => k.badRegs.any fun r => r.1 == 4 && (regsOf d.first d.count).contains r.2) = false := by decide +kernel

/-- A boot without images to verify and without a debug token; one with an image of no signature; and the sum of two parts. Whether a
signature verifies is not decided by the model (log 15). -/
theorem witness_ModuleEventsComplete_boot :
    (default : BootConfig).images = [] ∧ (default : BootConfig).debugToken = none ∧
    firstUnverified ({ (default : BootConfig) with images := [⟨[1], []⟩] } : BootConfig) = some 0 ∧
    (let cfg : BootConfig := { (default : BootConfig) with
       own := [1], partitionsOk := true, stacksUp := BitVec.allOnes 24, diesUp := BitVec.allOnes 24, seamsUp := BitVec.allOnes 38 }
     bootPartitionsOk cfg = true ∧ cfg.own ≠ [] ∧ cfg.contexts.length ≤ 16384 ∧ (∀ c ∈ cfg.contexts, c.vf = none ∧ c.shared = [])) := by
  decide +kernel
/-- R409: an image without a signature leaves the module FAILED. -/
theorem test_boot_unsigned :
    (match exec (.moduleReset { (default : BootConfig) with images := [⟨[1], []⟩] }) State.reset with
     | .next t => t.modSt == .failed && t.failedImage == some 0
     | _ => false) = true := by decide +kernel
/-- R432: a thermal shutdown stops what the Mangle, the Wringer and Finwesin do, and the agenda passes them over. -/
theorem test_stopped_agenda :
    (match step { world [] with stopped := true, agenda := [.wringerLineWrite 0 5] } with
     | .next t => t.agenda.isEmpty && t.skeins == (world []).skeins
     | _ => false) = true := by decide +kernel

end Sys2Proof.Tests
end

section
/-! SUPPORT. The memories of a state, part by part, and what the shared operations leave canonical (R183, R186). -/

namespace Sys2Proof.Machine

/-- The scratchpads of some blocks are canonical. -/
def BlocksOk (l : List Block) : Prop := ∀ b ∈ l, Memory.wf b.cells = true

/-- Some windows are canonical. -/
def WinsOk (l : List CWin) : Prop := ∀ w ∈ l, Memory.wf w.cells = true

/-- The windows of some clusters are canonical. -/
def ClustersOk (l : List Cluster) : Prop := ∀ c ∈ l, WinsOk c.wins

/-- The saved scratchpads of some contexts are canonical. -/
def CtxsOk (l : List Context) : Prop := ∀ c ∈ l, BlocksOk c.savedBlocks

/-! ## The four parts of a canonical state -/

theorem State.memOk.mem {s : State} (h : s.memOk) : Memory.wf s.mem = true := h.1
theorem State.memOk.blocks {s : State} (h : s.memOk) : BlocksOk s.blocks := h.2.1
theorem State.memOk.clusters {s : State} (h : s.memOk) : ClustersOk s.clusters := h.2.2.1
theorem State.memOk.ctxs {s : State} (h : s.memOk) : CtxsOk s.ctxs := h.2.2.2

/-- A state with the memories of a canonical one is canonical. -/
theorem State.memOk.sameMemory {s t : State} (h : s.memOk) (hm : t.mem = s.mem) (hb : t.blocks = s.blocks)
    (hc : t.clusters = s.clusters) (hx : t.ctxs = s.ctxs) : t.memOk :=
  ⟨hm ▸ h.mem, hb ▸ h.blocks, hc ▸ h.clusters, hx ▸ h.ctxs⟩

/-! ## Changes of lists -/

theorem BlocksOk.map {l : List Block} (h : BlocksOk l) {f : Block → Block}
    (hf : ∀ b, Memory.wf b.cells = true → Memory.wf (f b).cells = true) : BlocksOk (l.map f) := by
  intro b hb
  obtain ⟨a, ha, rfl⟩ := List.mem_map.mp hb
  exact hf a (h a ha)

/-- A change of the blocks with some test keeps them canonical when the new blocks are. -/
theorem BlocksOk.mapIf {l : List Block} (h : BlocksOk l) {c : Block → Bool} {f : Block → Block}
    (hf : ∀ b, Memory.wf b.cells = true → Memory.wf (f b).cells = true) :
    BlocksOk (l.map fun b => if c b then f b else b) := by
  refine h.map fun b hb => ?_
  split
  · exact hf b hb
  · exact hb

theorem BlocksOk.filter {l : List Block} (h : BlocksOk l) {p : Block → Bool} : BlocksOk (l.filter p) :=
  fun b hb => h b (List.mem_of_mem_filter hb)

theorem BlocksOk.append {l m : List Block} (h : BlocksOk l) (hm : BlocksOk m) : BlocksOk (l ++ m) :=
  fun b hb => (List.mem_append.mp hb).elim (h b) (hm b)

theorem WinsOk.filter {l : List CWin} (h : WinsOk l) {p : CWin → Bool} : WinsOk (l.filter p) :=
  fun w hw => h w (List.mem_of_mem_filter hw)

theorem WinsOk.mapIf {l : List CWin} (h : WinsOk l) {c : CWin → Bool} {f : CWin → CWin}
    (hf : ∀ w, Memory.wf w.cells = true → Memory.wf (f w).cells = true) :
    WinsOk (l.map fun w => if c w then f w else w) := by
  intro w hw
  obtain ⟨a, ha, rfl⟩ := List.mem_map.mp hw
  split
  · exact hf a (h a ha)
  · exact h a ha

theorem ClustersOk.map {l : List Cluster} (h : ClustersOk l) {f : Cluster → Cluster} (hf : ∀ c, WinsOk c.wins → WinsOk (f c).wins) :
    ClustersOk (l.map f) := by
  intro c hc
  obtain ⟨a, ha, rfl⟩ := List.mem_map.mp hc
  exact hf a (h a ha)

theorem ClustersOk.mapIdx {l : List Cluster} (h : ClustersOk l) {f : Nat → Cluster → Cluster}
    (hf : ∀ n c, WinsOk c.wins → WinsOk (f n c).wins) : ClustersOk (l.mapIdx f) := by
  intro c hc
  obtain ⟨i, hi, rfl⟩ := List.mem_mapIdx.mp hc
  exact hf i _ (h _ (List.getElem_mem hi))

theorem ClustersOk.modAt {l : List Cluster} (h : ClustersOk l) {n : Nat} {f : Cluster → Cluster}
    (hf : ∀ c, WinsOk c.wins → WinsOk (f c).wins) : ClustersOk (modAt l n f) := by
  intro c hc
  obtain ⟨i, hi⟩ := List.mem_iff_getElem?.mp hc
  rw [Machine.modAt, List.getElem?_modify] at hi
  obtain ⟨a, ha, rfl⟩ := Option.map_eq_some_iff.mp hi
  have ok := h a (List.mem_of_getElem? ha)
  split
  · exact hf a ok
  · exact ok

theorem CtxsOk.map {l : List Context} (h : CtxsOk l) {f : Context → Context}
    (hf : ∀ c, BlocksOk c.savedBlocks → BlocksOk (f c).savedBlocks) : CtxsOk (l.map f) := by
  intro c hc
  obtain ⟨a, ha, rfl⟩ := List.mem_map.mp hc
  exact hf a (h a ha)

theorem CtxsOk.mapIf {l : List Context} (h : CtxsOk l) {p : Context → Bool} {f : Context → Context}
    (hf : ∀ c, BlocksOk c.savedBlocks → BlocksOk (f c).savedBlocks) : CtxsOk (l.map fun c => if p c then f c else c) := by
  refine h.map fun c hc => ?_
  split
  · exact hf c hc
  · exact hc

/-! ## Shapes of an answer -/

theorem State.memOk.ite {s t : State} {c : Prop} [Decidable c] (h : s.memOk) (ht : t.memOk) : (if c then s else t).memOk := by
  split
  · exact h
  · exact ht

/-- A change made for each element of a list keeps the memories when each one does. -/
theorem State.memOk.foldl {α : Type} {s : State} (h : s.memOk) {f : State → α → State} (hf : ∀ t a, t.memOk → (f t a).memOk)
    {l : List α} : (l.foldl f s).memOk := by
  induction l generalizing s with
  | nil => exact h
  | cons a l ih => exact ih (hf s a h)

/-! ## Keyed parts -/

theorem State.memOk.setSkein {s : State} (h : s.memOk) {k : Skein} : (s.setSkein k).memOk := h
theorem State.memOk.setGrid {s : State} (h : s.memOk) {g : Grid} : (s.setGrid g).memOk := h
theorem State.memOk.setVf {s : State} (h : s.memOk) {v : VF} : (s.setVf v).memOk := h
theorem State.memOk.modCore {s : State} (h : s.memOk) {n : Nat} {f : Core → Core} : (s.modCore n f).memOk := h
theorem State.memOk.modDie {s : State} (h : s.memOk) {n : Nat} {f : Die → Die} : (s.modDie n f).memOk := h
theorem State.memOk.modPart {s : State} (h : s.memOk) {n : Nat} {f : Partition → Partition} : (s.modPart n f).memOk := h

theorem State.memOk.setCtx {s : State} (h : s.memOk) {c : Context} (hc : BlocksOk c.savedBlocks) : (s.setCtx c).memOk :=
  ⟨h.mem, h.blocks, h.clusters, h.ctxs.mapIf fun _ _ => hc⟩

theorem State.memOk.setBlock {s : State} (h : s.memOk) {b : Block} (hb : Memory.wf b.cells = true) : (s.setBlock b).memOk :=
  ⟨h.mem, h.blocks.mapIf fun _ _ => hb, h.clusters, h.ctxs⟩

theorem State.memOk.modWins {s : State} (h : s.memOk) {n : Nat} {f : Cluster → Cluster} (hf : ∀ c, WinsOk c.wins → WinsOk (f c).wins) :
    (s.modCluster n f).memOk :=
  ⟨h.mem, h.blocks, h.clusters.modAt hf, h.ctxs⟩

/-- A change of a cluster that leaves its windows. -/
theorem State.memOk.modCluster {s : State} (h : s.memOk) {n : Nat} {f : Cluster → Cluster} (hf : ∀ c, (f c).wins = c.wins := by intro; rfl) :
    (s.modCluster n f).memOk := h.modWins fun c hc => (hf c).symm ▸ hc

/-- A context that is found keeps its saved scratchpads canonical. -/
theorem State.memOk.ctx {s : State} (h : s.memOk) {n : Nat} {c : Context} (hc : s.ctx? n = some c) : BlocksOk c.savedBlocks :=
  h.ctxs c (List.mem_of_find?_eq_some hc)

/-- A block that is found has a canonical scratchpad. -/
theorem State.memOk.block {s : State} (h : s.memOk) {g n : Nat} {b : Block} (hb : s.block? g n = some b) : Memory.wf b.cells = true :=
  h.blocks b (List.mem_of_find?_eq_some hb)

/-- A context that is found is put back with other fields but the same saved blocks. -/
theorem State.memOk.putCtx {s : State} (h : s.memOk) {n : Nat} {c d : Context} (hd : s.ctx? n = some d)
    (e : c.savedBlocks = d.savedBlocks := by rfl) : (s.setCtx c).memOk := h.setCtx (e ▸ h.ctx hd)

theorem State.memOk.modCtx {s : State} (h : s.memOk) {n : Nat} {f : Context → Context}
    (hf : ∀ c, (f c).savedBlocks = c.savedBlocks := by intro; rfl) : (s.modCtx n f).memOk := by
  fun_cases State.modCtx s n f
  case case1 => exact h
  case case2 c hc => exact h.putCtx hc (hf c)

theorem State.memOk.takeWord {s : State} (h : s.memOk) : s.takeWord.2.memOk := h
theorem State.memOk.takeBit {s : State} (h : s.memOk) : s.takeBit.2.memOk := h

theorem State.memOk.leaveHem {s : State} (h : s.memOk) {n : Nat} {m : HemMsg} : (s.leaveHem n m).memOk := by
  fun_cases State.leaveHem s n m
  · exact h
  · exact h

/-! ## Bytes written at their coherence points (R183, R230) -/

theorem State.memOk.poke {s : State} (h : s.memOk) {l : Loc} {b : Byte} : (s.poke l b).memOk := by
  fun_cases State.poke s l b
  case case1 => exact ⟨cellPut_wf _ _ h.mem, h.blocks, h.clusters, h.ctxs⟩
  case case2 => exact ⟨h.mem, h.blocks.mapIf fun _ hb => cellPut_wf _ _ hb, h.clusters, h.ctxs⟩
  case case3 => exact h.modWins fun _ hc => hc.mapIf fun _ hw => cellPut_wf _ _ hw

theorem State.memOk.pokes {s : State} (h : s.memOk) {l : Loc} {bs : List Byte} : (s.pokes l bs).memOk := by
  induction bs generalizing s l with
  | nil => exact h
  | cons b bs ih => exact ih h.poke

theorem State.memOk.fail {s : State} (h : s.memOk) {n : Nat} {ls : List Loc} : (s.fail n ls).memOk := by
  induction ls generalizing s with
  | nil => exact h
  | cons l ls ih => exact (ih h).ite (ih h)

theorem State.memOk.pclean {s : State} (h : s.memOk) {die line : Nat} : (s.pclean die line).memOk := by
  fun_cases State.pclean s die line
  case case1 => exact h
  case case2 =>
    refine State.memOk.modDie (h.foldl fun t i ht => ?_)
    split
    · split
      · exact ht.poke
      · exact ht
    · exact ht

theorem State.memOk.pdrop {s : State} (h : s.memOk) {die line : Nat} : (s.pdrop die line).memOk := h.pclean.modDie

theorem State.memOk.roomPcie {s : State} (h : s.memOk) {die line : Nat} : (s.roomPcie die line).memOk := by
  fun_cases State.roomPcie s die line
  · exact h
  · exact h.pdrop

theorem State.memOk.pstore {s : State} (h : s.memOk) {die pa : Nat} {b : Byte} : (s.pstore die pa b).memOk := by
  fun_cases State.pstore s die pa b
  case case1 => exact h
  case case2 s1 _ =>
    have h1 : s1.memOk := h
    exact h1.roomPcie.modDie

theorem State.memOk.storeByte {s : State} (h : s.memOk) {core pa : Nat} {b : Byte} : (s.storeByte core pa b).memOk :=
  (h.pstore.ite h.poke).modCore

theorem State.memOk.storeBytes {s : State} (h : s.memOk) {core pa : Nat} {bs : List Byte} : (s.storeBytes core pa bs).memOk := by
  induction bs generalizing s pa with
  | nil => exact h
  | cons b bs ih => exact ih h.storeByte

theorem State.memOk.perform {s : State} (h : s.memOk) {core : Nat} {e : PStore} : (s.perform core e).memOk := by
  fun_cases State.perform s core e
  · exact h.storeBytes
  · exact h.pokes
  · exact h.pokes

theorem State.memOk.performStore {s : State} (h : s.memOk) {sid idx : Nat} : (s.performStore sid idx).memOk := by
  fun_cases State.performStore s sid idx
  · exact h
  · exact h
  · exact h
  · exact h.setSkein.perform

theorem State.memOk.performAll {s : State} (h : s.memOk) {core : Nat} {es : List (PStore × Bool)} {kept : List PStore} :
    (s.performAll core es kept).1.memOk := by
  fun_induction State.performAll s core es kept
  case case1 => exact h
  case case2 ih => exact ih h.perform
  case case3 ih => exact ih h

theorem State.memOk.drain {s : State} (h : s.memOk) {sid : Nat} {f : PStore → Bool} : (s.drain sid f).memOk := by
  fun_cases State.drain s sid f
  · exact h
  · exact h.performAll

theorem State.memOk.release {s : State} (h : s.memOk) {sid : Nat} {f : PStore → Bool} {bk : Bool} : (s.release sid f bk).memOk := by
  have t := h.drain (sid := sid) (f := f)
  fun_cases State.release s sid f bk
  · exact t
  · exact ⟨t.mem, t.blocks.mapIf fun _ hb => hb, t.clusters, t.ctxs⟩
  · exact t

theorem State.memOk.acquire {s : State} (h : s.memOk) {sid scope : Nat} : (s.acquire sid scope).memOk := by
  fun_cases State.acquire s sid scope
  case case1 => exact h
  case case2 k hk s1 s2 =>
    have h1 : s1.memOk := State.memOk.ite ⟨h.mem, h.blocks.mapIf fun _ hb => hb, h.clusters, h.ctxs⟩ h
    exact (h1.setSkein.ite h1).modCore

theorem State.memOk.receive {s : State} (h : s.memOk) {n : Nat} {r : Record} : (s.receive n r).memOk := h.modCluster
theorem State.memOk.freeParks {s : State} (h : s.memOk) {k : Skein} : (s.freeParks k).memOk := h.modCluster

theorem State.memOk.takeStop {s : State} (h : s.memOk) {k : Skein} {uid : Nat} {r : Record} {x : OSet} {q : Option Pend} :
    (s.takeStop k uid r x q).memOk := (h.freeParks.ite h).setSkein.release.receive

theorem State.memOk.resumeSkein {s : State} (h : s.memOk) {sid : Nat} : (s.resumeSkein sid).memOk := by
  fun_cases State.resumeSkein s sid
  · exact h
  · exact h
  · exact h.setSkein.acquire

end Sys2Proof.Machine
end

section
/-! SUPPORT. What translation, the checks of words and the issue of a word leave canonical (R87, R183, R186). -/

namespace Sys2Proof.Machine

/-! ## The tables of a context (R194, R199) -/

/-- Tables made on the way to an entry keep the canonical form. -/
theorem ensureTables_wf {pick : List Nat → Option Nat} {m : List Host.Cell} {made : List Nat} {va stop lv t : Nat}
    {r : List Host.Cell × List Nat × Nat} (hm : Memory.wf m = true) (h : ensureTables pick m made va stop lv t = some r) :
    Memory.wf r.1 = true := by
  fun_induction ensureTables pick m made va stop lv t
  case case1 => cases h; exact hm
  case case2 => cases h; exact hm
  case case3 ih => exact ih hm h
  case case4 => cases h
  case case5 ih => exact ih (cellsWrite_wf _ _ (cellsClear_wf _ _ hm)) h

theorem State.memOk.setPte {s : State} (h : s.memOk) {c : Context} (hc : BlocksOk c.savedBlocks) {va lv e : Nat} :
    (s.setPte c va lv e).memOk := by
  fun_cases State.setPte s c va lv e
  case case1 => exact h
  case case2 he old s1 _ =>
    have h1 : s1.memOk := ⟨cellsWrite_wf _ _ (ensureTables_wf h.mem he), h.blocks, h.clusters, h.ctxs⟩
    exact h1.setCtx hc
  case case3 he old s1 _ => exact ⟨cellsWrite_wf _ _ (ensureTables_wf h.mem he), h.blocks, h.clusters, h.ctxs⟩

theorem State.memOk.mapEntry {s : State} (h : s.memOk) {n base : Nat} {r : Region} : (s.mapEntry n r base).memOk := by
  fun_cases State.mapEntry s n r base
  case case1 => exact h
  case case2 => exact h
  case case3 c hc _ => exact h.setPte (h.ctx hc)
  case case4 c hc _ => exact h.setPte (h.ctx hc)

theorem State.memOk.mapPiece {s : State} (h : s.memOk) {n va : Nat} : (s.mapPiece n va).memOk := by
  fun_cases State.mapPiece s n va
  · exact h
  · exact h.foldl fun _ _ ht => ht.mapEntry

theorem State.memOk.mapRange {s : State} (h : s.memOk) {ctx va n : Nat} : (s.mapRange ctx va n).memOk :=
  h.foldl fun _ _ ht => ht.mapPiece

theorem State.memOk.unmapRange {s : State} (h : s.memOk) {ctx va n : Nat} : (s.unmapRange ctx va n).memOk := by
  induction n generalizing s va with
  | zero => exact h
  | succ n ih =>
    refine ih ?_
    split
    · exact h
    · next c hc =>
      split
      · exact h.setPte (h.ctx hc)
      · exact h

/-! ## The parts that a skein's own keys name -/

theorem State.memOk.blockOf {s : State} (h : s.memOk) {k : Skein} : Memory.wf (s.blockOf k).cells = true := by
  unfold State.blockOf
  cases hb : s.block? k.grid k.block with
  | none => rfl
  | some b => exact h.block hb

theorem State.memOk.ctxOf {s : State} (h : s.memOk) {k : Skein} : BlocksOk (s.ctxOf k).savedBlocks := by
  unfold State.ctxOf
  cases hc : s.ctx? k.ctx with
  | none => intro b hb; cases hb
  | some c => exact h.ctx hc

/-! ## Errors (R347, R348) -/

theorem State.memOk.countError {s : State} (h : s.memOk) {core pa level : Nat} : (s.countError core pa level).memOk := by
  fun_cases State.countError s core pa level
  case case5 => exact h.modCluster
  all_goals exact h

theorem State.memOk.outsideError {s : State} (h : s.memOk) {l : Loc} : (s.outsideError l).memOk := h.countError

theorem State.memOk.dropAt {s : State} (h : s.memOk) {core level : Nat} {l : Loc} : (s.dropAt core level l).memOk := by
  fun_cases State.dropAt s core level l
  · exact h.modCore
  · exact h.pdrop
  · exact h

/-! ## The checks of a word (R87) -/

/-- The state that a word issues with is canonical. -/
def Iss.memOk (i : Iss) : Prop := i.s.memOk

/-- The state that a cause carries is canonical. -/
def Check.memOk : Check → Prop
  | .trap _ _ _ _ | .park _ _ _ _ | .stall _ => True
  | .send _ t | .dataError _ _ _ _ t => t.memOk

/-- What the checks of a word answer has a property, and a cause that they meet carries a canonical state. -/
def ResOk {α : Type} (P : α → Prop) : Res α → Prop
  | .ok a => P a
  | .error c => c.memOk

/-- What a move answers is canonical. -/
def Lands (o : Host.Outcome State Fault Refusal) : Prop := ∀ t, o = .next t → t.memOk

theorem lands_next {s : State} (h : s.memOk) : Lands (.next s) := by
  intro t e
  cases e
  exact h

theorem ResOk.bind {α β : Type} {P : α → Prop} {Q : β → Prop} {x : Res α} {f : α → Res β} (hx : ResOk P x)
    (hf : ∀ a, P a → ResOk Q (f a)) : ResOk Q (x >>= f) := by
  cases x with
  | ok a => exact hf a hx
  | error c => exact hx

theorem ResOk.ite {α : Type} {P : α → Prop} {c : Prop} [Decidable c] {x y : Res α} (hx : ResOk P x) (hy : ResOk P y) :
    ResOk P (if c then x else y) := by
  split
  · exact hx
  · exact hy

/-- A trap carries no state. -/
theorem trap_ok {α : Type} {P : α → Prop} {i : Iss} {code : BitVec 16} {lfm : Mask} : ResOk P (i.trap code lfm) := trivial

theorem need_ok {i : Iss} {c : Bool} {code : BitVec 16} {lfm : Mask} : ResOk (fun _ => True) (i.need c code lfm) :=
  ResOk.ite trivial trivial

theorem aligned_ok {i : Iss} {n : Nat} {ea : Nat → Nat} : ResOk (fun _ => True) (i.aligned n ea) := ResOk.ite trivial trivial

theorem mapG_ok {i : Iss} {kind : Nat} {need : Need} {rs : List (Nat × Nat × Nat)} : ResOk (fun _ => True) (i.mapG kind need rs) :=
  ResOk.ite trivial (ResOk.ite trivial (ResOk.ite trivial trivial))

theorem mapSC_ok {i : Iss} {sp : Space} {rs : List (Nat × Nat × Nat)} : ResOk (fun _ => True) (i.mapSC sp rs) :=
  ResOk.ite trivial (ResOk.ite trivial trivial)

theorem map_ok {i : Iss} {sp : Space} {kind : Nat} {need : Need} {rs : List (Nat × Nat × Nat)} :
    ResOk (fun _ => True) (i.map sp kind need rs) := by
  cases sp with
  | g => exact mapG_ok
  | s => exact mapSC_ok
  | c => exact mapSC_ok

theorem origin_ok {i : Iss} {d : OSet} {as : List LaneAcc} : ResOk (fun _ => True) (i.origin d as) := need_ok

theorem hold_ok {i : Iss} {store : Bool} {as : List LaneAcc} : ResOk (fun _ => True) (i.hold store as) := ResOk.ite trivial trivial

theorem Iss.memOk.put {i : Iss} (h : i.memOk) {k : Skein} : (i.put k).memOk := State.memOk.setSkein h

theorem Iss.memOk.start {s : State} (h : s.memOk) {k : Skein} {p : Split} : (Iss.start s k p).memOk := h.setSkein

theorem Iss.memOk.intact {i : Iss} (h : i.memOk) {ops : List Opd} : ResOk Iss.memOk (i.intact ops) :=
  ResOk.ite h (State.memOk.countError h)

theorem Iss.memOk.readLanded {i : Iss} (h : i.memOk) {ops : List Opd} : (i.readLanded ops).memOk := h

theorem Iss.memOk.again {i : Iss} (h : i.memOk) {x : Kept} {ops : List Opd} : (i.again x ops).memOk := h

theorem Iss.memOk.operandsBut {i : Iss} (h : i.memOk) {look : Bool} {ops : List Opd} : ResOk Iss.memOk (i.operandsBut look ops) := by
  fun_cases Iss.operandsBut i look ops
  case case1 => exact h.again
  case case2 => exact trap_ok
  case case3 => exact trap_ok
  case case4 t _ _ _ =>
    have ht : t.memOk := h
    exact ht.intact
  case case5 => exact trap_ok
  case case6 => exact h.readLanded.intact

theorem Iss.memOk.operands {i : Iss} (h : i.memOk) {ops : List Opd} : ResOk Iss.memOk (i.operands ops) := h.operandsBut

theorem Iss.memOk.releaseIf {i : Iss} (h : i.memOk) {f : PStore → Bool} {bk : Bool} : ResOk Iss.memOk (i.releaseIf f bk) := by
  fun_cases Iss.releaseIf i f bk
  · exact h
  · exact State.memOk.release h
  · trivial

theorem Iss.memOk.release {i : Iss} (h : i.memOk) {bk : Bool} : ResOk Iss.memOk (i.release bk) := h.releaseIf

theorem Iss.memOk.flushIf {i : Iss} (h : i.memOk) {f : PStore → Bool} : ResOk Iss.memOk (i.flushIf f) := by
  fun_cases Iss.flushIf i f
  · exact h
  · exact State.memOk.drain h
  · trivial

theorem Iss.memOk.flush {i : Iss} (h : i.memOk) {ls : List Loc} : ResOk Iss.memOk (i.flush ls) := h.flushIf

theorem Iss.memOk.landReg {i : Iss} (h : i.memOk) {r : Nat} : (i.landReg r).memOk := h.put

theorem Iss.memOk.landOwn {i : Iss} (h : i.memOk) : i.landOwn.memOk := h.put

theorem Iss.memOk.crossWr {i : Iss} (h : i.memOk) {start n : Nat} {v : Nat → Nat} {set : OSet} : (i.crossWr start n v set).memOk :=
  State.memOk.ite h h.put

theorem Iss.memOk.consume {i : Iss} (h : i.memOk) : i.consume.memOk := h.put

theorem Iss.memOk.timely {i : Iss} (h : i.memOk) {lanes : Mask} : ResOk (fun _ => True) (i.timely lanes) :=
  ResOk.ite h.consume trivial

theorem State.memOk.fillPcie {s : State} (h : s.memOk) {die line : Nat} {b : Bool} {seen : List (List Byte)} :
    (s.fillPcie die line b seen).memOk := by
  unfold State.fillPcie
  cases s.pline? die line with
  | none => exact h.roomPcie (die := die) (line := line)
  | some x => exact h

theorem Iss.memOk.pcieReady {i : Iss} (h : i.memOk) {as : List LaneAcc} : ResOk Iss.memOk (i.pcieReady as) := by
  unfold Iss.pcieReady
  refine h.timely.bind fun _ _ => ResOk.ite ?_ ?_
  · show Iss.memOk _
    split
    · exact h.consume
    · exact h
  · split
    · trivial
    · exact State.memOk.foldl h.consume fun _ _ ht => ht.fillPcie

theorem Iss.memOk.shed {i : Iss} {s : State} (h : s.memOk) : (i.shed s).memOk :=
  h.foldl fun _ _ ht => ht.pdrop.modCore

/-- An error that a demand access meets carries the state with the units failed and the error counted. -/
theorem Iss.memOk.sound {i : Iss} (h : i.memOk) {as : List LaneAcc} : ResOk (fun _ => True) (i.sound as) := by
  unfold Iss.sound
  simp only
  split
  · next ls level clean _ =>
    have hs : ((ls.map LaneAcc.first).foldl (fun t l => t.dropAt i.k.coreId level l) (i.put { i.k with flaw := none })).memOk :=
      State.memOk.foldl h.put fun _ _ ht => ht.dropAt
    split
    · exact hs.countError
    · exact hs.fail.countError
  · split
    · trivial
    · exact State.memOk.countError h

theorem State.memOk.fillL1 {s : State} (h : s.memOk) {core line : Nat} {bytes : List Byte} : (s.fillL1 core line bytes).memOk := h.modCore

theorem State.memOk.viewLine {s : State} (h : s.memOk) {core line : Nat} {b : Bool} : (s.viewLine core line b).2.memOk := by
  fun_cases State.viewLine s core line b
  case case5 => exact h.ite h.fillL1
  all_goals exact h

theorem State.memOk.homeView {s : State} (h : s.memOk) {core line : Nat} {b : Bool} : (s.homeView core line b).2.memOk :=
  h.ite h.fillL1

theorem State.memOk.viewLines {s : State} (h : s.memOk) {core : Nat} {a b : Bool} {ls : List Nat} :
    (s.viewLines core a b ls).2.memOk := by
  induction ls generalizing s with
  | nil => exact h
  | cons n ls ih =>
    refine ih ?_
    split
    · exact h.homeView
    · exact h.viewLine

theorem Iss.memOk.read {i : Iss} (h : i.memOk) {pol : BitVec 32} {as : List LaneAcc} : (i.read pol as).i.memOk := by
  have h1 : ({ i.s with free := i.s.free + 1 } : State).memOk := h
  exact h1.viewLines

theorem Iss.memOk.load {i : Iss} (h : i.memOk) {pol : BitVec 32} {as : List LaneAcc} :
    ResOk (fun v : ReadView => v.i.memOk) (i.load pol as) :=
  hold_ok.bind fun _ _ => h.sound.bind fun _ _ => h.pcieReady.bind fun _ hj => Iss.memOk.shed hj.read

theorem Iss.memOk.policy {i : Iss} (h : i.memOk) {n : Nat} {store : Bool} :
    ResOk (fun x : BitVec 32 × Iss => x.2.memOk) (i.policy n store) := by
  fun_cases Iss.policy i n store
  · exact h
  · exact h
  · exact trap_ok
  · exact State.memOk.setBlock (s := i.s) h (State.memOk.blockOf h)

/-! ## Issuing (R72, R120, R137, R200) -/

theorem State.memOk.trapStop {s : State} (h : s.memOk) {k : Skein} {p : Split} {gpc word : Addr} {code : BitVec 16} {lfm : Mask}
    {addrs : List (Nat × Nat)} {set : OSet} : (s.trapStop k p gpc word code lfm addrs set).memOk := h.takeStop

theorem State.memOk.parkOn {s : State} (h : s.memOk) {k : Skein} {p : Split} {gpc word : Addr} {kind : Nat} {vas : List (Nat × Nat)}
    {bad : Bool} {redo : Option Redo} : (s.parkOn k p gpc word kind vas bad redo).memOk := by
  have h1 : ({ s with nextId := s.nextId + 1 } : State).memOk := h
  exact h1.setSkein.release.modCluster.receive

theorem State.memOk.stepStop {s : State} (h : s.memOk) {sid uid : Nat} {b : Bool} : (s.stepStop sid uid b).memOk := by
  fun_cases State.stepStop s sid uid b
  case case5 => exact h.takeStop
  all_goals exact h

theorem State.memOk.afterWord {s : State} (h : s.memOk) {sid uid : Nat} {b c : Bool} : (s.afterWord sid uid b c).memOk := by
  refine State.memOk.stepStop ?_
  split
  · exact h
  · exact h.setSkein

theorem State.memOk.stallOn {s : State} (h : s.memOk) {k : Skein} {p : Split} {on : StallOn} : (s.stallOn k p on).memOk := by
  fun_cases State.stallOn s k p on
  all_goals exact h

theorem State.memOk.meetFault {s : State} (h : s.memOk) {k : Skein} {p : Split} {gpc word : Addr} {kind : Nat} {vas : List (Nat × Nat)}
    {bad : Bool} {redo : Option Redo} : (s.meetFault k p gpc word kind vas bad redo).memOk :=
  h.stallOn.ite h.parkOn.stepStop

/-- A word keeps the memories canonical when its own checks and effect do. -/
theorem issue_lands {i : Instr} {s : State} {body : Iss → Res State} (h : s.memOk)
    (hb : ∀ x : Iss, x.memOk → ResOk State.memOk (body x)) : Lands (issue i s body) := by
  intro t e
  cases hc : s.current with
  | none => rw [issue_none hc] at e; cases e
  | some c =>
    obtain ⟨k, p⟩ := c
    have hx := hb (Iss.start s k p) (Iss.memOk.start h)
    cases hf : groupFault i (p.hints.gpc.getD p.pc) p.pc p.hints with
    | some w => rw [issue_illegal hc hf] at e; cases e; exact h.trapStop
    | none =>
      cases hr : body (Iss.start s k p) with
      | ok a => rw [issue_ok hc hf hr] at e; cases e; rw [hr] at hx; exact State.memOk.afterWord hx
      | error c =>
        rw [hr] at hx
        cases c with
        | trap code lfm addrs set => rw [issue_trap hc hf hr] at e; cases e; exact h.trapStop
        | park kind vas bad kept => rw [issue_park hc hf hr] at e; cases e; exact h.meetFault
        | stall on => rw [issue_stall hc hf hr] at e; cases e; exact h.stallOn
        | send lanes t => rw [issue_send hc hf hr] at e; cases e; exact State.memOk.stallOn hx
        | dataError code lfm addrs set t => rw [issue_dataError hc hf hr] at e; cases e; exact State.memOk.trapStop hx

/-! ## The issue of a split, fetches and command faults (R138, R275) -/

theorem State.memOk.wake {s : State} (h : s.memOk) : s.wake.memOk := h

theorem State.memOk.startIssue {s : State} (h : s.memOk) {c : Cand} : (s.startIssue c).memOk := h

theorem State.memOk.deliverFault {s t : State} (h : s.memOk) {k : Skein} (e : s.deliverFault k = some t) : t.memOk := by
  unfold State.deliverFault at e
  split at e
  · split at e
    · cases e
    · cases e; exact h.takeStop
  · cases e

theorem State.memOk.faultsDue {s t : State} (h : s.memOk) (e : s.faultsDue = some t) : t.memOk := by
  have key : ∀ (ks : List Skein) (a : Option State), (∀ u, a = some u → u.memOk) →
      ∀ u, ks.foldl (fun a k => match a with | some t => some t | none => s.deliverFault k) a = some u → u.memOk := by
    intro ks
    induction ks with
    | nil => exact fun a ha => ha
    | cons k ks ih =>
      intro a ha
      refine ih _ ?_
      cases a with
      | none => exact fun u hu => h.deliverFault hu
      | some t => exact ha
  exact key s.skeins none (fun _ hu => by cases hu) t e

end Sys2Proof.Machine
end

section
/-! SUPPORT. Words of lanes, lane exchange, barriers, memory and the caches keep the memories canonical. -/

namespace Sys2Proof.Machine

/-! ## Lane instructions and lane exchange (R88, R158 to R167) -/

/-- A lane instruction of the table is the frame with its row. -/
theorem exec_of_laneRow {i : Instr} {r : LaneRow} (h : laneRow i = some r) (s : State) :
    exec i s = laneOp i r.ws r.d r.a r.b r.useD r.useB s r.value := by
  unfold laneRow at h
  split at h
  all_goals cases h
  all_goals rfl

theorem laneOp_lands {i : Instr} {ws : Hints → Widths} {d a b : Nat} {useD useB : Bool} {s : State}
    {c : Hints → Widths → Nat → Nat → Nat → Nat} (h : s.memOk) : Lands (laneOp i ws d a b useD useB s c) :=
  issue_lands h fun _ hx => hx.operands.bind fun _ hy => hy.put

theorem execMovi_lands {w : Width} {d : BitVec 8} {imm : BitVec 7} {s : State} (h : s.memOk) : Lands (execMovi w d imm s) :=
  issue_lands h fun _ hx => hx.operands.bind fun _ hy => hy.put

theorem execBallot_lands {d a : BitVec 8} {s : State} (h : s.memOk) : Lands (execBallot d a s) :=
  issue_lands h fun _ hx => hx.operands.bind fun _ hy => hy.crossWr

theorem execEqmask_lands {w : Width} {d a : BitVec 8} {s : State} (h : s.memOk) : Lands (execEqmask w d a s) :=
  issue_lands h fun _ hx => hx.operands.bind fun _ hy => hy.crossWr

theorem reduce_lands {x : Instr} {w : Width} {d a : BitVec 8} {s : State} {test : Mask → Mask → Bool} (h : s.memOk) :
    Lands (reduce x w d a s test) :=
  issue_lands h fun _ hx => hx.operands.bind fun _ hy => hy.crossWr

theorem execAny_lands {w : Width} {d a : BitVec 8} {s : State} (h : s.memOk) : Lands (execAny w d a s) := reduce_lands h

theorem execAll_lands {w : Width} {d a : BitVec 8} {s : State} (h : s.memOk) : Lands (execAll w d a s) := reduce_lands h

theorem execShfl_lands {w : Width} {d a : BitVec 8} {b : BitVec 7} {s : State} (h : s.memOk) : Lands (execShfl w d a b s) :=
  issue_lands h fun _ hx => hx.operands.bind fun _ hy => hy.operands.bind fun _ hz => hz.crossWr

theorem execRds_lands {w : Width} {d n : BitVec 8} {s : State} (h : s.memOk) : Lands (execRds w d n s) :=
  issue_lands h fun _ hx => hx.operands.bind fun _ hy => hy.crossWr

theorem execWrsEm_lands {a : BitVec 8} {s : State} (h : s.memOk) : Lands (execWrsEm a s) :=
  issue_lands h fun _ hx => hx.operands.bind fun _ hy => State.memOk.ite hy hy.put

theorem execWrsSw_lands {a : BitVec 8} {s : State} (h : s.memOk) : Lands (execWrsSw a s) :=
  issue_lands h fun _ hx => hx.operands.bind fun _ hy => State.memOk.ite hy hy.put

theorem execRdcyc_lands {d : BitVec 8} {s : State} (h : s.memOk) : Lands (execRdcyc d s) :=
  issue_lands h fun _ hx => hx.operands.bind fun _ hy => hy.crossWr

theorem execKrd_lands {d k : BitVec 8} {s : State} (h : s.memOk) : Lands (execKrd d k s) :=
  issue_lands h fun _ hx => hx.operands.bind fun _ hy => State.memOk.ite hy.crossWr <|
    State.memOk.setBlock hy.crossWr (State.memOk.blockOf hy)

theorem execKwr_lands {k a : BitVec 8} {s : State} (h : s.memOk) : Lands (execKwr k a s) :=
  issue_lands h fun _ hx => hx.operands.bind fun _ hy => ResOk.ite hy <| need_ok.bind fun _ _ =>
    State.memOk.setBlock hy (State.memOk.blockOf hy)

theorem execLblr_lands {d a : BitVec 8} {s : State} (h : s.memOk) : Lands (execLblr d a s) :=
  issue_lands h fun _ hx => hx.landReg.operandsBut.bind fun _ hy => hy.put

theorem execLblq_lands {d a : BitVec 8} {s : State} (h : s.memOk) : Lands (execLblq d a s) :=
  issue_lands h fun _ hx => hx.operands.bind fun _ hy => hy.put

/-! ## Block barriers (R168 to R172) -/

theorem State.memOk.wakeBar {s : State} (h : s.memOk) {n : Nat} {done : Bool} {phase : BitVec 16} {sid : Nat} :
    (s.wakeBar n done phase sid).memOk := by
  fun_cases State.wakeBar s n done phase sid
  · exact h
  · exact h.setSkein.acquire
  · exact h

theorem State.memOk.putBar {s : State} (h : s.memOk) {b : Block} (hb : Memory.wf b.cells = true) {n : Nat} {x : Bar × Bool} :
    (s.putBar b n x).memOk :=
  ((h.setBlock (by exact hb)).foldl fun _ _ ht => ht.wakeBar).ite (h.setBlock (by exact hb))

theorem State.memOk.arrive {s : State} (h : s.memOk) {k : Skein} {n : Nat} {lanes : Mask} {drop : Bool} :
    (s.arrive k n lanes drop).memOk := h.putBar h.blockOf

theorem State.memOk.exitBar {s : State} (h : s.memOk) {k : Skein} {n : Nat} : (s.exitBar k n).memOk :=
  h.ite <| (h.putBar h.blockOf |>.ite (h.putBar h.blockOf)).ite <| (h.putBar h.blockOf).ite h

theorem State.memOk.exitBars {s : State} (h : s.memOk) {k : Skein} : (s.exitBars k).memOk := h.foldl fun _ _ ht => ht.exitBar

theorem Iss.memOk.arrive {i : Iss} (h : i.memOk) {n : Nat} {drop : Bool} : ResOk State.memOk (i.arrive n drop) :=
  need_ok.bind fun _ _ => h.release.bind fun _ hj => State.memOk.arrive hj

theorem execBar_lands {b : BitVec 4} {s : State} (h : s.memOk) : Lands (execBar b s) :=
  issue_lands h fun _ hx => Iss.memOk.arrive (by exact hx.put)

theorem execBararr_lands {b la : BitVec 4} {y : BitVec 8} {s : State} (h : s.memOk) : Lands (execBararr b y la s) :=
  issue_lands h fun _ hx => hx.operands.bind fun _ hy => Iss.memOk.arrive (by exact State.memOk.setSkein hy)

theorem execBarwait_lands {b : BitVec 4} {y : BitVec 8} {s : State} (h : s.memOk) : Lands (execBarwait b y s) :=
  issue_lands h fun _ hx => hx.operands.bind fun _ hy => ResOk.ite hy.put <| ResOk.ite hy (State.memOk.acquire hy)

theorem execBardrop_lands {b : BitVec 4} {s : State} (h : s.memOk) : Lands (execBardrop b s) :=
  issue_lands h fun _ hx => hx.arrive

/-! ## Loads and stores (R118 to R120) -/

theorem loadOp_lands {x : Instr} {sp : Space} {w : Width} {d : BitVec 8} {n : BitVec 5} {pol : Nat} {la : BitVec 4} {s : State}
    (h : s.memOk) : Lands (loadOp x sp w d n pol la s) :=
  issue_lands h fun _ hx => hx.operands.bind fun _ hy => hy.policy.bind fun _ hz => aligned_ok.bind fun _ _ =>
    map_ok.bind fun _ _ => hz.load.bind fun _ hv => Iss.memOk.put hv

theorem storeOp_lands {x : Instr} {sp : Space} {w : Width} {d : BitVec 8} {n : BitVec 5} {pol : Nat} {s : State} (h : s.memOk) :
    Lands (storeOp x sp w d n pol s) :=
  issue_lands h fun _ hx => hx.operands.bind fun _ hy => hy.policy.bind fun _ hz => aligned_ok.bind fun _ _ =>
    map_ok.bind fun _ _ => origin_ok.bind fun _ _ => hold_ok.bind fun _ _ => hz.put

/-! ## Fences, maintenance, run-ahead fetches and streams (R193, R204, R212 to R219) -/

theorem execFence_lands {ord : BitVec 2} {sc : BitVec 3} {s : State} (h : s.memOk) : Lands (execFence ord sc s) := by
  have last (z : Iss) (hz : z.memOk) : ResOk State.memOk (.ok (if ord.getLsbD 0 then z.s.acquire z.k.id sc.toNat else z.s)) :=
    State.memOk.ite (State.memOk.acquire hz) hz
  refine issue_lands h fun x hx => hx.landOwn.release.bind fun y hy => ResOk.ite (hy.timely.bind fun _ _ => ?_) (last y hy)
  split
  · trivial
  · exact last _ (State.memOk.setSkein hy.consume)

theorem Iss.memOk.rangeOperands {i : Iss} (h : i.memOk) {x y : BitVec 8} : ResOk Iss.memOk (i.rangeOperands x y) :=
  h.operands.bind fun _ hj => need_ok.bind fun _ _ => hj

theorem State.memOk.maintain {s : State} (h : s.memOk) {core line type : Nat} {inval : Bool} : (s.maintain core line type inval).memOk :=
  State.memOk.ite (State.memOk.ite (h.pdrop (die := core / 64) (line := line)) h.pclean) (h.modCore.ite h)

theorem maintainOp_lands {z : Instr} {x y : BitVec 8} {inval : Bool} {s : State} (h : s.memOk) : Lands (maintainOp z x y inval s) :=
  issue_lands h fun _ hx => hx.rangeOperands.bind fun _ hy => mapG_ok.bind fun _ _ => hy.flushIf.bind fun _ hz =>
    State.memOk.foldl hz.put fun _ _ ht => ht.maintain

theorem execIcinv_lands {x y : BitVec 8} {s : State} (h : s.memOk) : Lands (execIcinv x y s) :=
  issue_lands h fun _ hx => hx.rangeOperands.bind fun _ hy => mapG_ok.bind fun _ _ => State.memOk.modCore hy

theorem execIbar_lands {s : State} (h : s.memOk) : Lands (execIbar s) := issue_lands h fun _ hx => State.memOk.modCore hx

theorem State.memOk.dropAhead {s : State} (h : s.memOk) {core : Nat} : (s.dropAhead core).memOk := h.modCore
theorem State.memOk.fetchInto {s : State} (h : s.memOk) {core line : Nat} {code : Bool} : (s.fetchInto core line code).memOk := h.modCore
theorem State.memOk.countAhead {s : State} (h : s.memOk) {core line : Nat} : (s.countAhead core line).memOk := h.countError

theorem State.memOk.fetchLines {s : State} (h : s.memOk) {c : Context} {core : Nat} {need : Need} {done vas : List Nat} :
    (s.fetchLines c core need done vas).1.memOk := by
  fun_induction State.fetchLines s c core need done vas
  case case1 => exact h
  case case2 => exact h.dropAhead.ite h
  case case3 ih => exact ih (h.dropAhead.ite h)
  case case4 ih => exact ih (h.ite (h.countAhead.ite h.fetchInto))

theorem State.memOk.fetchRanges {s : State} (h : s.memOk) {c : Context} {core : Nat} {need : Need} {done : List Nat}
    {rs : List (Nat × Nat)} : (s.fetchRanges c core need done rs).memOk := by
  induction rs generalizing s done with
  | nil => exact h
  | cons r rs ih => exact ih h.fetchLines

theorem prefetch_lands {z : Instr} {x y : BitVec 8} {need : Need} {s : State} (h : s.memOk) : Lands (prefetch z x y need s) :=
  issue_lands h fun _ hx => hx.rangeOperands.bind fun _ hy => State.memOk.fetchRanges hy

theorem execStream_lands {x y : BitVec 8} {la : BitVec 4} {s : State} (h : s.memOk) : Lands (execStream x y la s) := by
  refine issue_lands h fun _ hx => hx.operands.bind fun _ hy => ResOk.ite hy <| need_ok.bind fun _ _ => hy.policy.bind fun q hq => ?_
  dsimp only
  split
  · exact Iss.memOk.put hq
  · exact Iss.memOk.put hq

theorem execStreamx_lands {y : BitVec 8} {s : State} (h : s.memOk) : Lands (execStreamx y s) :=
  issue_lands h fun _ hx => hx.operands.bind fun _ hy => ResOk.ite hy <| need_ok.bind fun _ _ => hy.put

end Sys2Proof.Machine
end

section
/-! SUPPORT. Control words, baskets, grids, spawns and launches keep the memories canonical. -/

namespace Sys2Proof.Machine

/-! ## Control transfers and divergence (R112 to R117, R130 to R136, R154 to R157) -/

theorem execBra_lands {d : BitVec 18} {s : State} (h : s.memOk) : Lands (execBra d s) := issue_lands h fun _ hx => hx.put

theorem branch_lands {x : Instr} {p : BitVec 8} {d : BitVec 18} {sense : Bool} {s : State} (h : s.memOk) :
    Lands (branch x p d sense s) :=
  issue_lands h fun _ hx => hx.operands.bind fun _ hy => need_ok.bind fun _ _ => hy.put

theorem execCall_lands {d : BitVec 8} {disp : BitVec 18} {s : State} (h : s.memOk) : Lands (execCall d disp s) :=
  issue_lands h fun _ hx => hx.operands.bind fun _ hy => hy.put

theorem target_ok {i : Iss} {a : Nat} : ResOk (fun _ => True) (i.target a) := by
  fun_cases Iss.target i a <;> trivial

theorem transfer_lands {x : Instr} {d : Option Nat} {a : BitVec 8} {s : State} (h : s.memOk) : Lands (transfer x d a s) := by
  refine issue_lands h fun _ hx => hx.operands.bind fun _ hy => target_ok.bind fun t _ => ?_
  cases t with
  | none => exact hy.put
  | some t => exact hy.put

theorem execNop_lands {s : State} (h : s.memOk) : Lands (execNop s) := issue_lands h fun _ hx => hx

theorem execSplit_lands {p : BitVec 8} {d : BitVec 18} {s : State} (h : s.memOk) : Lands (execSplit p d s) :=
  issue_lands h fun _ hx => hx.operands.bind fun _ hy => need_ok.bind fun _ _ => hy.put

theorem execJoin_lands {s : State} (h : s.memOk) : Lands (execJoin s) := by
  refine issue_lands h fun x hx => ?_
  split
  · exact trap_ok
  · exact ResOk.ite hx.put hx.put

theorem execExit_lands {s : State} (h : s.memOk) : Lands (execExit s) := by
  have last (x : Iss) (hx : x.memOk) : ResOk State.memOk
      (.ok ((x.put (x.k.exit x.p x.s.issueTicks)).exitBars (x.k.exit x.p x.s.issueTicks))) := State.memOk.exitBars hx.put
  exact issue_lands h fun x hx => ResOk.ite (hx.releaseIf.bind last) (last x hx)

theorem execYieldI_lands {s : State} (h : s.memOk) : Lands (execYieldI s) := issue_lands h fun _ hx => hx.put

/-! ## Baskets (R293 to R297, R318 to R323) -/

theorem State.memOk.modBasket {s : State} (h : s.memOk) {cl slot : Nat} {f : Basket → Basket} : (s.modBasket cl slot f).memOk :=
  h.modCluster

theorem State.memOk.popEnds {s : State} (h : s.memOk) {sid uid code : Nat} {e : Option (Nat × OSet)} :
    (s.popEnds sid uid code e).memOk := by
  unfold State.popEnds
  split
  · exact h
  · split
    · exact h
    · split
      · exact h.setSkein.acquire.ite h.setSkein
      · exact h

theorem State.memOk.settleBasket {s : State} (h : s.memOk) {cl slot : Nat} : (s.settleBasket cl slot).memOk := by
  have ht : (s.modBasket cl slot fun b => { b with st := .free, ring := [] }).memOk := h.modBasket
  refine h.ite ?_
  split
  · exact ht
  · next hx =>
    split at hx
    · exact ht.setBlock (cellsClear_wf _ _ (ht.block hx))
    · cases hx

theorem State.memOk.retireBasket {s : State} (h : s.memOk) {cl slot : Nat} : (s.retireBasket cl slot).memOk := by
  have ht : (s.modBasket cl slot fun b => { b with st := .retiring, ring := [] }).memOk := h.modBasket
  refine h.ite (State.memOk.settleBasket (State.memOk.foldl ?_ fun _ _ hu => hu.popEnds))
  exact ⟨ht.mem, ht.blocks, ht.clusters.map fun _ hc => hc, ht.ctxs⟩

theorem State.memOk.retireBaskets {s : State} (h : s.memOk) {f : Basket → Bool} : (s.retireBaskets f).memOk :=
  h.foldl fun _ _ ht => ht.foldl fun _ _ hu => hu.retireBasket.ite hu

theorem State.memOk.recheckPop {s : State} (h : s.memOk) {sid uid : Nat} : (s.recheckPop sid uid).memOk := by
  fun_cases State.recheckPop s sid uid
  case case2 => exact h.popEnds.settleBasket
  case case4 => exact h.modBasket.popEnds
  all_goals exact h

theorem State.memOk.recheckPops {s : State} (h : s.memOk) {sid : Nat} : (s.recheckPops sid).memOk :=
  h.foldl fun _ _ ht => ht.recheckPop

theorem Iss.memOk.basketChecked {i : Iss} (h : i.memOk) {v x : Nat} {read : Bool} :
    ResOk (fun r : Iss × Basket => r.1.memOk) (i.basketChecked v x read) :=
  need_ok.bind fun _ _ => h.operands.bind fun _ hj => hj

theorem State.memOk.pushEntry {s : State} (h : s.memOk) {cl slot : Nat} {e : Nat × OSet} : (s.pushEntry cl slot e).memOk := by
  fun_cases State.pushEntry s cl slot e
  · exact h.popEnds
  · exact h.modBasket

theorem Iss.memOk.popNow {i : Iss} (h : i.memOk) {la v x y : Nat} {b : Basket} {e : Nat × OSet} : (i.popNow la v x y b e).memOk :=
  State.memOk.acquire (State.memOk.modBasket h.put)

theorem execQpush_lands {x y : BitVec 8} {la : BitVec 4} {s : State} (h : s.memOk) : Lands (execQpush x y la s) :=
  issue_lands h fun _ hx => hx.operands.bind fun _ hy => ResOk.ite hy <| hy.basketChecked.bind fun _ hz => need_ok.bind fun _ _ =>
    ResOk.ite (State.memOk.settleBasket (Iss.memOk.put hz)) <| ResOk.ite trivial <|
      Iss.memOk.release hz |>.bind fun _ hw => State.memOk.pushEntry hw.put

theorem execQpop_lands {x y : BitVec 8} {la : BitVec 4} {s : State} (h : s.memOk) : Lands (execQpop x y la s) := by
  refine issue_lands h fun _ hx => hx.operands.bind fun _ hy => ResOk.ite hy <| hy.basketChecked.bind fun q hz => ?_
  refine ResOk.ite (Iss.memOk.put hz) ?_
  split
  · exact Iss.memOk.popNow hz
  · exact Iss.memOk.put hz

theorem execQtry_lands {x y : BitVec 8} {la : BitVec 4} {s : State} (h : s.memOk) : Lands (execQtry x y la s) := by
  refine issue_lands h fun _ hx => hx.operands.bind fun _ hy => ResOk.ite hy <| ResOk.ite hy.put <| ResOk.ite hy.put <|
    hy.basketChecked.bind fun q hz => ?_
  refine ResOk.ite (Iss.memOk.put hz) ?_
  split
  · exact Iss.memOk.popNow hz
  · exact Iss.memOk.put hz

/-! ## Grids and the ending of a context (R146 to R149, R328, R340, R350, R393) -/

theorem State.memOk.refreshFlags {s : State} (h : s.memOk) : s.refreshFlags.memOk := h

theorem State.memOk.answerMgmt {s : State} (h : s.memOk) {t : Ticket} {st : BitVec 16} {r : List Byte} {n : Nat} :
    (s.answerMgmt t st r n).memOk := by
  fun_cases State.answerMgmt s t st r n
  all_goals exact h

theorem State.memOk.respond {s : State} (h : s.memOk) {vf chain r : Nat} {st : BitVec 16} : (s.respond vf chain st r).memOk := by
  fun_cases State.respond s vf chain st r
  all_goals exact h

theorem State.memOk.logFault {s : State} (h : s.memOk) {g : Grid} {c : BitVec 16} {cl : Nat} : (s.logFault g c cl).memOk := h

theorem State.memOk.finishDrain {s : State} (h : s.memOk) : s.finishDrain.memOk := by
  have h1 : ({ s with serving := s.serving.filter fun x => !s.quiesced x.2 } : State).memOk := h
  exact h1.foldl fun _ _ ht => ht.answerMgmt

theorem State.memOk.settleRun {s : State} (h : s.memOk) {part : Nat} : (s.settleRun part).memOk :=
  State.memOk.refreshFlags (State.memOk.finishDrain (by exact h))

theorem State.memOk.completeGrid {s : State} (h : s.memOk) {g : Grid} {code : BitVec 16} {cl : Nat} : (s.completeGrid g code cl).memOk := by
  have h1 : ({ s with grids := s.grids.filter (·.id != g.id) } : State).memOk := h
  unfold State.completeGrid
  split
  · exact (h1.respond.ite h1.respond.logFault).settleRun
  · exact (h1.ite h1.logFault).settleRun
  · exact (h1.ite h1.logFault).settleRun
  · exact (h1.ite h1.logFault).settleRun

theorem State.memOk.quarantine {s : State} (h : s.memOk) {f : Nvme → Bool} : (s.quarantine f).memOk := h
theorem State.memOk.soundRegions {s : State} (h : s.memOk) {rs : List Region} : (s.soundRegions rs).memOk := h

theorem State.memOk.finishEnd {s : State} (h : s.memOk) {id : Nat} : (s.finishEnd id).memOk := by
  fun_cases State.finishEnd s id
  case case1 => exact h
  case case2 c hc code cl gs hold drop s1 s2 late s3 s4 t1 t2 =>
    have h1 : s1.memOk := h
    have h2 : s2.memOk := h1.foldl fun _ _ ht => ht.drain
    have h3 : s3.memOk := h2
    have h4 : s4.memOk := h3.ite h3.soundRegions
    have ht1 : t1.memOk := by
      refine ⟨h4.mem, h4.blocks.filter, h4.clusters.map fun x hx => ?_, h4.ctxs⟩
      dsimp only
      split
      · exact hx
      · exact hx.filter
    have ht2 : t2.memOk := (ht1.setCtx (by intro b hb; cases hb)).quarantine
    exact (ht2.retireBaskets.foldl fun _ _ ht => ht.completeGrid).refreshFlags

theorem State.memOk.endContext {s : State} (h : s.memOk) {id : Nat} {code : BitVec 16} : (s.endContext id code).memOk := by
  fun_cases State.endContext s id code
  case case1 => exact h
  case case2 => exact h
  case case3 c hc _ _ _ _ => exact h.putCtx hc
  case case4 => exact h
  case case5 c hc _ _ _ _ => exact State.memOk.finishEnd (h.putCtx hc)
  case case6 c hc _ _ _ _ => exact h.putCtx hc

theorem State.memOk.endByRecord {s : State} (h : s.memOk) {id : Nat} {code : BitVec 16} : (s.endByRecord id code).memOk := by
  fun_cases State.endByRecord s id code
  · exact h
  · exact h.modCluster
  · exact h.endContext

theorem State.memOk.orWord {s : State} (h : s.memOk) {pa bits : Nat} : (s.orWord pa bits).memOk := h.pokes

theorem State.memOk.dispatchOr {s : State} (h : s.memOk) {ctx va bits tenant : Nat} : (s.dispatchOr ctx va bits tenant).1.memOk := by
  fun_cases State.dispatchOr s ctx va bits tenant
  · exact h
  · exact h.endContext
  · exact h
  · exact h.outsideError.endContext
  · exact h.orWord

theorem State.memOk.accept {s : State} (h : s.memOk) {g : Grid} : (s.accept g).2.memOk := h

theorem State.memOk.spawnGrid {s : State} (h : s.memOk) {g : Grid} : (s.spawnGrid g).2.memOk := by
  fun_cases State.spawnGrid s g
  · exact h
  · exact h.accept

theorem State.memOk.launchBin {s : State} (h : s.memOk) {cl : Nat} {b : Bin} : (s.launchBin cl b).memOk := by
  fun_cases State.launchBin s cl b
  · exact h
  · exact h.spawnGrid.setGrid.modCluster

theorem State.memOk.launchBins {s : State} (h : s.memOk) {gid : Nat} : (s.launchBins gid).memOk :=
  h.foldl fun _ _ ht => ht.foldl fun _ _ hu => hu.launchBin

theorem State.memOk.completeSpawn {s : State} (h : s.memOk) {o : Option Grid} : (o.elim s fun x => s.completeGrid x 0 0).memOk := by
  cases o with
  | none => exact h
  | some x => exact h.completeGrid

theorem State.memOk.retireGrid {s : State} (h : s.memOk) {id : Nat} : (s.retireGrid id).memOk := by
  unfold State.retireGrid
  split
  · exact h
  · refine h.ite ?_
    split
    · exact h
    · exact h.completeSpawn.completeGrid
    · exact h.completeSpawn.completeGrid
    · next g _ _ _ _ w _ _ =>
      have hr : (if w = 0 then (s, true) else s.dispatchOr g.ctx w 1 g.tenant).1.memOk := by
        split
        · exact h
        · exact h.dispatchOr
      exact hr.completeSpawn.completeGrid.ite hr

theorem State.memOk.freeBlock {s : State} (h : s.memOk) {b : Block} : (s.freeBlock b).memOk := by
  unfold State.freeBlock
  refine State.memOk.retireBaskets ?_
  exact ⟨h.mem, h.blocks.filter, h.clusters, h.ctxs⟩

theorem State.memOk.retireBlock {s : State} (h : s.memOk) {b : Block} {g : Grid} : (s.retireBlock b g).memOk := by
  have hd : ((s.skeinsOf b).foldl (fun t k => t.release k.id (fun _ => true) true) s).memOk := h.foldl fun _ _ ht => ht.release
  unfold State.retireBlock
  refine hd.ite ?_
  extract_lets spawned r t g1 u v w
  have hr : r.1.memOk := by
    unfold r
    split
    · exact hd
    · exact hd.dispatchOr
  have hv : v.memOk := State.memOk.ite hr.freeBlock.setGrid.launchBins hr.freeBlock.setGrid
  have hw : w.memOk := by
    unfold w
    split
    all_goals exact hv.retireGrid
  exact hr.ite hw

theorem execBlockRetire_lands {g b : Nat} {s : State} (h : s.memOk) : Lands (execBlockRetire g b s) := by
  refine lands_next ?_
  split
  · exact h.retireBlock.ite h
  · exact h.retireGrid
  · exact h

theorem State.memOk.cutGrids {s : State} (h : s.memOk) {part : Nat} : (s.cutGrids part).memOk :=
  State.memOk.ite (h.foldl fun _ _ ht => ht.completeGrid) h

/-! ## Spawns, launches and bit waits (R147, R173 to R177) -/

theorem State.memOk.placeThread {s : State} (h : s.memOk) {cl : Nat} {g : Grid} {giver : Nat × Nat} {entry arg : Nat} {v c : OSet} :
    (s.placeThread cl g giver entry arg v c).1.memOk := by
  fun_cases State.placeThread s cl g giver entry arg v c
  case case1 => exact h
  case case2 t =>
    have ht : t.memOk := h.modCluster
    exact ht.launchBin.ite ht
  case case3 => exact h
  case case4 => exact h.modCluster

theorem State.memOk.placeThreads {s : State} (h : s.memOk) {cl : Nat} {g : Grid} {giver : Nat × Nat} {v c : OSet}
    {ts : List (Nat × Nat × Nat)} : (s.placeThreads cl g giver v c ts).1.memOk := by
  induction ts generalizing s with
  | nil => exact h
  | cons x ts ih => exact ih h.placeThread

theorem execSpawn_lands {x y : BitVec 8} {la : BitVec 4} {s : State} (h : s.memOk) : Lands (execSpawn x y la s) :=
  issue_lands h fun _ hx => hx.operands.bind fun _ hy => ResOk.ite hy <| need_ok.bind fun _ _ => hy.release.bind fun _ hz =>
    (State.memOk.placeThreads hz).setSkein

theorem State.memOk.launchLane {s : State} (h : s.memOk) {k : Skein} {entry w : Nat} {d : List Byte} {set : OSet} :
    (s.launchLane k entry d w set).1.memOk := by
  fun_cases State.launchLane s k entry d w set
  all_goals exact h

theorem State.memOk.launchLanes {s : State} (h : s.memOk) {k : Skein} {entry : Nat} {set : OSet} {ls : List (Nat × List Byte × Nat)} :
    (s.launchLanes k entry set ls).1.memOk := by
  induction ls generalizing s with
  | nil => exact h
  | cons x ls ih => exact ih h.launchLane

theorem execLaunch_lands {x : BitVec 8} {d : BitVec 18} {s : State} (h : s.memOk) : Lands (execLaunch x d s) :=
  issue_lands h fun _ hx => hx.operands.bind fun _ hy => need_ok.bind fun _ _ => need_ok.bind fun _ _ => ResOk.ite hy <|
    need_ok.bind fun _ _ => mapG_ok.bind fun _ _ => hy.load.bind fun _ hv => (Iss.memOk.release hv).bind fun _ hz =>
      (State.memOk.launchLanes hz).setSkein

theorem State.memOk.bitEnds {s : State} (h : s.memOk) {k : Skein} {uid : Nat} {set : OSet} : (s.bitEnds k uid set).memOk :=
  h.setSkein.acquire

theorem State.memOk.bitRead {s : State} (h : s.memOk) {k : Skein} {uid : Nat} {redo : Redo} {bits : List (Nat × Nat × Nat)}
    {pages : List (Loc × OSet)} : (s.bitRead k uid redo bits pages).memOk := h.bitEnds.ite h.setSkein

theorem State.memOk.bitPoll {s : State} (h : s.memOk) {k : Skein} {uid : Nat} {redo : Redo} {bits : List (Nat × Nat × Nat)} :
    (s.bitPoll k uid redo bits).memOk := by
  fun_cases State.bitPoll s k uid redo bits
  · exact h.setSkein
  · exact h.bitRead

theorem execBitwait_lands {x y : BitVec 8} {s : State} (h : s.memOk) : Lands (execBitwait x y s) :=
  issue_lands h fun _ hx => hx.operands.bind fun _ hy => ResOk.ite hy <| aligned_ok.bind fun _ _ => mapG_ok.bind fun _ _ =>
    hy.sound.bind fun _ _ => hy.pcieReady.bind fun _ hj => hj.flush.bind fun _ hk => Iss.memOk.shed (State.memOk.bitRead hk)

theorem execBitwaitPoll_lands {sid uid : Nat} {s : State} (h : s.memOk) : Lands (execBitwaitPoll sid uid s) := by
  refine lands_next ?_
  split
  · exact h
  · split
    · exact h.bitPoll.ite h
    · exact h

end Sys2Proof.Machine
end

section
/-! SUPPORT. Scratchpad barriers, services, stops and the events of cores keep the memories canonical. -/

namespace Sys2Proof.Machine

/-! ## Scratchpad barriers (R222 to R225) -/

theorem State.memOk.sbCheck {s : State} (h : s.memOk) {sid uid : Nat} : (s.sbCheck sid uid).memOk := by
  fun_cases State.sbCheck s sid uid
  case case4 => exact h.setSkein
  case case6 => exact h.setSkein.acquire
  all_goals exact h

theorem State.memOk.sbWake {s : State} (h : s.memOk) {b : Block} {off : Nat} : (s.sbWake b off).memOk :=
  h.foldl fun _ _ ht => ht.sbCheck

theorem State.memOk.sbPut {s : State} (h : s.memOk) {b : Block} {off : Nat} {o : SbObj} : (s.sbPut b off o).memOk := h.pokes.sbWake

theorem sbOffset_ok {i : Iss} {y : Nat} : ResOk (fun _ => True) (i.sbOffset y) := by
  fun_cases Iss.sbOffset i y <;> trivial

theorem sbOp_lands {z : Instr} {y : BitVec 8} {ops : Mask → List Opd} {store arrival : Bool} {s : State} {init : Bool}
    {ok : Iss → SbObj → Bool} {body : Iss → Block → Nat → SbObj → Res State} (h : s.memOk)
    (hb : ∀ x b off o, x.memOk → ResOk State.memOk (body x b off o)) : Lands (sbOp z y ops store arrival s init ok body) := by
  refine issue_lands h fun _ hx => hx.operands.bind fun y hy => sbOffset_ok.bind fun off _ => ?_
  cases off with
  | none => exact hy
  | some off =>
    refine hold_ok.bind fun _ _ => ?_
    extract_lets jp
    have hjp : ∀ u, ResOk State.memOk (jp u) := fun _ => hy.flush.bind fun z hz => need_ok.bind fun _ _ => need_ok.bind fun _ _ =>
      need_ok.bind fun _ _ => ResOk.ite (hz.release.bind fun _ hw => hb _ _ _ _ hw) (hb _ _ _ _ hz)
    exact ResOk.ite (hjp ()) (hy.sound.bind fun _ _ => hjp ())

theorem execSbinit_lands {x y : BitVec 8} {s : State} (h : s.memOk) : Lands (execSbinit x y s) :=
  sbOp_lands h fun _ _ _ _ hi => State.memOk.sbPut hi

theorem execSbarr_lands {x y : BitVec 8} {la : BitVec 4} {s : State} (h : s.memOk) : Lands (execSbarr x y la s) :=
  sbOp_lands h fun _ _ _ _ hi => State.memOk.sbPut hi.put

theorem execSbexp_lands {x y : BitVec 8} {s : State} (h : s.memOk) : Lands (execSbexp x y s) :=
  sbOp_lands h fun _ _ _ _ hi => State.memOk.sbPut hi

theorem execSbwait_lands {x y : BitVec 8} {s : State} (h : s.memOk) : Lands (execSbwait x y s) :=
  sbOp_lands h fun _ _ _ _ hi => State.memOk.sbCheck hi.put

theorem execSbdrop_lands {y : BitVec 8} {s : State} (h : s.memOk) : Lands (execSbdrop y s) :=
  sbOp_lands h fun _ _ _ _ hi => State.memOk.sbPut hi

theorem execSbwaitPoll_lands {sid uid : Nat} {s : State} (h : s.memOk) : Lands (execSbwaitPoll sid uid s) := lands_next h.sbCheck

/-! ## Services (R351 to R356, R360, R361) -/

theorem Iss.memOk.stop {i : Iss} (h : i.memOk) {code : BitVec 16} {cause : Nat} {lfm : Mask} {imm : BitVec 32} :
    (i.stop code cause lfm imm).memOk := State.memOk.takeStop h

theorem execTrap_lands {imm : BitVec 7} {s : State} (h : s.memOk) : Lands (execTrap imm s) := issue_lands h fun _ hx => hx.stop
theorem execBrk_lands {imm : BitVec 7} {s : State} (h : s.memOk) : Lands (execBrk imm s) := issue_lands h fun _ hx => hx.stop

theorem execTack_lands {idx : BitVec 12} {s : State} (h : s.memOk) : Lands (execTack idx s) :=
  issue_lands h fun _ hx => need_ok.bind fun _ _ => State.memOk.ite hx.stop hx

theorem execSyscall_lands {imm : BitVec 7} {s : State} (h : s.memOk) : Lands (execSyscall imm s) :=
  issue_lands h fun _ hx => need_ok.bind fun _ _ => ResOk.ite hx <| hx.operands.bind fun _ hy => hy.releaseIf.bind fun _ hz =>
    State.memOk.receive hz.put

theorem State.memOk.hostEvent {s : State} (h : s.memOk) {t : UTarget} {v : Nat} : (s.hostEvent t v).memOk := by
  fun_cases State.hostEvent s t v
  all_goals exact h

theorem State.memOk.interrupt {s : State} (h : s.memOk) {core handle vec : Nat} {d : OSet} : (s.interrupt core handle vec d).1.memOk := by
  fun_cases State.interrupt s core handle vec d
  case case5 own t1 u _ _ _ =>
    have hu : u.memOk := (h.ite h.modCore).pokes.hostEvent
    exact hu
  case case6 own t1 u _ => exact (h.ite h.modCore).pokes.hostEvent
  all_goals exact h

theorem State.memOk.interrupts {s : State} (h : s.memOk) {core : Nat} {d : OSet} {ls : List (Nat × Nat × Nat)} :
    (s.interrupts core d ls).1.memOk := by
  induction ls generalizing s with
  | nil => exact h
  | cons x ls ih => exact ih h.interrupt

theorem execUint_lands {d a : BitVec 8} {s : State} (h : s.memOk) : Lands (execUint d a s) :=
  issue_lands h fun _ hx => hx.operands.bind fun _ hy => hy.release.bind fun _ hz => ResOk.ite trivial <|
    hz.sound.bind fun _ _ => (State.memOk.interrupts hz).setSkein

theorem execResumeMask_lands {sid uid : Nat} {mask : BitVec 32} {s : State} (h : s.memOk) : Lands (execResumeMask sid uid mask s) := by
  refine lands_next ?_
  split
  · exact h
  · split
    · exact h
    · split
      · exact h.ite h.setSkein.acquire
      · exact h

/-! ## Stops (R34, R247, R343, R348, R350) -/

theorem State.memOk.resume {s : State} (h : s.memOk) {sid : Nat} : (s.resume sid).memOk := h.resumeSkein.recheckPops

theorem execSkeinResume_lands {sid : Nat} {s : State} (h : s.memOk) : Lands (execSkeinResume sid s) := by
  refine lands_next ?_
  split
  · exact h
  · exact h.resume.ite h

theorem State.memOk.modStopped {s : State} (h : s.memOk) {r : Record} {f : Skein → Stop → Skein} : (s.modStopped r f).memOk :=
  ⟨h.mem, h.blocks, h.clusters, h.ctxs.mapIf fun _ hc => hc⟩

theorem State.memOk.logError {s : State} (h : s.memOk) {r : Record} : (s.logError r).memOk := h

theorem State.memOk.actOn {s : State} (h : s.memOk) {r : Record} : (s.actOn r).memOk := by
  have hand : ({ s with dbgQueue := s.dbgQueue ++ [r] } : State).memOk := h
  unfold State.actOn
  split
  · exact h.modStopped.logError.ite h.endByRecord
  · exact h.modStopped.logError.ite h.endByRecord
  · exact hand.ite h.endByRecord
  · exact hand.ite h.endByRecord
  · exact hand.ite h.modStopped.logError
  · exact h

theorem execFinwesinStopAction_lands {cl : Nat} {s : State} (h : s.memOk) : Lands (execFinwesinStopAction cl s) := by
  refine lands_next ?_
  split
  · exact h
  · exact h.modCluster.actOn

theorem execClusterConfirm_lands {ctx cl : Nat} {s : State} (h : s.memOk) : Lands (execClusterConfirm ctx cl s) := by
  refine lands_next ?_
  split
  · exact h
  · next c hc =>
    split
    · exact h
    · extract_lets mine busy t t1 rest t2
      have ht : t.memOk := h.foldl fun _ _ hu => hu.drain
      have ht1 : t1.memOk := ht
      have hb := h.ctx hc
      have ht2 : t2.memOk := ht1.setCtx hb
      exact h.ite (ht2.finishEnd.ite ht2)

theorem State.memOk.loadError {s : State} (h : s.memOk) {k : Skein} {n : Nat} {q : Pend} {lanes : Mask} {level : Nat} {clean : Bool} :
    (s.loadError k n q lanes level clean).memOk := by
  unfold State.loadError
  extract_lets src ls t t1 t2
  have ht1 : t1.memOk := h.countError.foldl fun _ _ hu => hu.dropAt
  have ht2 : t2.memOk := ht1.ite ht1.fail
  split
  · exact ht2
  · exact ht2.takeStop

theorem State.memOk.refetch {s : State} (h : s.memOk) {k : Skein} {level : Nat} {clean : Bool} : (s.refetch k level clean).memOk :=
  h.ite h.takeWord.countError

theorem execLoadDataError_lands {sid : Nat} {lanes : BitVec 32} {level : BitVec 8} {clean : Bool} {s : State} (h : s.memOk) :
    Lands (execLoadDataError sid lanes level clean s) := by
  refine lands_next ?_
  split
  · exact h
  · refine h.ite <| h.refetch.ite <| h.ite <| h.takeWord.setSkein.ite ?_
    split
    · exact h.ite h.setSkein
    · split
      · exact h
      · exact h.loadError

/-! ## Landings, waits and stores that become visible (R32, R136, R157, R248) -/

theorem execLongLatencyWriteLands_lands {sid : Nat} {s : State} (h : s.memOk) : Lands (execLongLatencyWriteLands sid s) := by
  refine lands_next ?_
  split
  · exact h
  · exact h.setSkein

theorem execJoinDeadlock_lands {sid : Nat} {s : State} (h : s.memOk) : Lands (execJoinDeadlock sid s) := by
  refine lands_next ?_
  split
  · exact h
  · dsimp only
    split
    · exact h.trapStop
    · exact h

theorem execYieldRelease_lands {sid uid : Nat} {s : State} (h : s.memOk) : Lands (execYieldRelease sid uid s) := by
  refine lands_next ?_
  split
  · exact h
  · exact h.setSkein

theorem execStorePerformed_lands {sid idx : Nat} {s : State} (h : s.memOk) : Lands (execStorePerformed sid idx s) :=
  lands_next h.performStore

/-! ## Run-ahead fetches and fills (R193, R204, R376, R377) -/

theorem execStreamFetch_lands {core slot : Nat} {s : State} (h : s.memOk) : Lands (execStreamFetch core slot s) := by
  refine lands_next ?_
  split
  · exact h
  · split
    · exact h
    · refine h.ite ?_
      split
      · exact h.dropAhead.setSkein
      · exact h.countAhead.setSkein.ite (h.setSkein.ite h.setSkein.fetchInto)

theorem execFetchAhead_lands {sid uid va : Nat} {s : State} (h : s.memOk) : Lands (execFetchAhead sid uid va s) := by
  refine lands_next ?_
  split
  · exact h
  · split
    · exact h
    · refine h.ite ?_
      split
      · exact h
      · exact h
      · exact h.ite h.fetchInto

theorem execInstructionFetchFill_lands {core line : Nat} {s : State} (h : s.memOk) : Lands (execInstructionFetchFill core line s) :=
  lands_next h.modCore

/-! ## Translation parks and invalidations (R199 to R203, R442) -/

theorem State.memOk.freeEntry {s : State} (h : s.memOk) {cl id : Nat} : (s.freeEntry cl id).memOk := h.modCluster

theorem State.memOk.replay {s : State} (h : s.memOk) {e : FaultEntry} : (s.replay e).memOk := by
  fun_cases State.replay s e
  · exact h
  · exact h.setSkein.acquire

theorem execTranslationParkResolve_lands {cl entry : Nat} {s : State} (h : s.memOk) : Lands (execTranslationParkResolve cl entry s) := by
  refine lands_next ?_
  split
  · exact h
  · split
    · exact h
    · refine h.ite <| h.freeEntry.endContext.ite <| State.memOk.ite (State.memOk.replay ?_) h.freeEntry.endContext
      refine h.freeEntry.foldl fun t v ht => ?_
      split
      · exact ht
      · exact ht.mapPiece
      · exact ht.mapPiece

theorem execTranslationInvalidate_lands {ctx va : Nat} {s : State} (h : s.memOk) : Lands (execTranslationInvalidate ctx va s) := by
  refine lands_next ?_
  split
  · exact h
  · next c hc => exact h.ite (h.putCtx hc)

/-! ## PCIe (R211, R245, R390, R394) -/

theorem State.memOk.lateCompletion {s : State} (h : s.memOk) {sid : Nat} : (s.lateCompletion sid).memOk := by
  fun_cases State.lateCompletion s sid
  · exact h
  · exact h.modPart

theorem execPcieCompletion_lands {sid uid status : Nat} {s : State} (h : s.memOk) : Lands (execPcieCompletion sid uid status s) := by
  refine lands_next ?_
  split
  · exact h.lateCompletion
  · exact h.setSkein.ite h.lateCompletion

theorem execPcieCompletionTimeout_lands {sid uid : Nat} {s : State} (h : s.memOk) : Lands (execPcieCompletionTimeout sid uid s) := by
  refine lands_next ?_
  split
  · exact h
  · split
    · split
      · exact h.setSkein.ite h.trapStop
      · exact h.setSkein
    · exact h

theorem execWritebackUndelivered_lands {pa : Nat} {s : State} (h : s.memOk) : Lands (execWritebackUndelivered pa s) := by
  refine lands_next ?_
  split
  · exact h
  · exact h.endContext

theorem State.memOk.performPosted {s : State} (h : s.memOk) {ws : List (Nat × List Byte)} : (s.performPosted ws).memOk := by
  fun_induction State.performPosted s ws
  case case1 => exact h
  case case2 => exact h
  case case3 ih => exact ih h.pokes

theorem execPciePostedWrite_lands {pa : Nat} {data : List (BitVec 8)} {s : State} (h : s.memOk) : Lands (execPciePostedWrite pa data s) :=
  lands_next (h.performPosted.ite h)

end Sys2Proof.Machine
end

section
/-! SUPPORT. Engine commands and the Wringer's words and events keep the memories canonical. -/

namespace Sys2Proof.Machine

/-! ## Regions and what a command does at its issue (R242, R274, R299) -/

theorem narrow_ok {i : Iss} {sp : Space} {a : Nat} : ResOk (fun _ => True) (i.narrow sp a) := need_ok

theorem regionG_ok {i : Iss} {need : Need} {ps : List (Nat × Nat)} : ResOk (fun _ => True) (i.regionG need ps) := by
  induction ps with
  | nil => trivial
  | cons q ps ih => exact mapG_ok.bind fun _ _ => ih.bind fun _ _ => trivial

theorem region_ok {i : Iss} {sp : Space} {need : Need} {a n : Nat} : ResOk (fun _ => True) (i.region sp need a n) := by
  have hm (ps : List (Nat × Nat)) : ResOk (fun _ => True)
      (if sp == .g then i.regionG need ps else i.mapSC sp [(highest i.p.em, a, n)]) := regionG_ok.ite mapSC_ok
  unfold Iss.region
  refine ResOk.ite (narrow_ok.bind fun _ _ => trivial) ?_
  extract_lets ps
  have := hm ps
  split
  · trivial
  · trivial
  · trivial
  · next e => rw [e] at this; exact this

theorem regions_ok {i : Iss} {sp : Space} {need : Need} {n : Nat} {as : List Nat} : ResOk (fun _ => True) (i.regions sp need n as) := by
  induction as with
  | nil => trivial
  | cons a as ih => exact region_ok.bind fun _ _ => ih.bind fun _ _ => trivial

theorem Iss.memOk.checkBarrier {i : Iss} (h : i.memOk) {bar : Option Nat} : ResOk (fun _ => True) (i.checkBarrier bar) := by
  cases bar with
  | none => trivial
  | some off =>
    exact need_ok.bind fun _ _ => region_ok.bind fun _ _ => hold_ok.bind fun _ _ => h.sound.bind fun _ _ => h.flush.bind fun _ _ => need_ok

theorem State.memOk.meetErrors {s : State} (h : s.memOk) {core moment : Nat} {ls : List Loc} : (s.meetErrors core moment ls).1.memOk :=
  h.foldl fun _ _ ht => ht.countError

theorem Iss.memOk.releaseAt {i : Iss} (h : i.memOk) {n : Nat} : ResOk Iss.memOk (i.releaseAt n) := h.release

theorem Iss.memOk.command {i : Iss} (h : i.memOk) {c : Plan} : ResOk State.memOk (i.command c) :=
  h.releaseAt.bind fun j hj => State.memOk.meetErrors (core := j.k.coreId) (moment := j.s.nextId) hj

/-! ## How an engine writes (R214, R242, R303, R349) -/

theorem State.memOk.dropCopies {s : State} (h : s.memOk) {line : Nat} : (s.dropCopies line).memOk := h

theorem State.memOk.engineWrite {s : State} (h : s.memOk) {die : Nat} {l : Loc} {b : Byte} : (s.engineWrite die l b).memOk :=
  h.pstore.ite (h.poke.dropCopies.ite h.poke)

theorem State.memOk.mend {s : State} (h : s.memOk) {ls : List Loc} : (s.mend ls).memOk := h

theorem State.memOk.writeBytes {s : State} (h : s.memOk) {die : Nat} {bs : List (Loc × SrcByte)} : (s.writeBytes die bs).memOk :=
  State.memOk.mend (h.foldl fun _ _ ht => ht.engineWrite)

theorem State.memOk.commandFault {s : State} (h : s.memOk) {sid : Nat} {r : Record} : (s.commandFault sid r).memOk := by
  fun_cases State.commandFault s sid r
  · exact h
  · exact h.receive
  · exact h.setSkein

theorem State.memOk.sbDecrement {s : State} (h : s.memOk) {k : Skein} {off n : Nat} : (s.sbDecrement k off n).memOk := h.sbPut

theorem State.memOk.modCmd {s : State} (h : s.memOk) {sid order : Nat} {f : Cmd → Option Cmd} : (s.modCmd sid order f).memOk := h

theorem State.memOk.cmdError {s : State} (h : s.memOk) {k : Skein} {c : Cmd} {l : Loc} {f : Cmd → Cmd} : (s.cmdError k c l f).memOk :=
  h.countError.modCmd

theorem State.memOk.payCount {s : State} (h : s.memOk) {k : Skein} {c : Cmd} {n : Nat} : (s.payCount k c n).memOk := by
  fun_cases State.payCount s k c n
  · exact h.modCmd
  · exact h.cmdError
  · exact h.modCmd.sbDecrement

/-! ## The words of the Wringer (R279 to R284, R298 to R305) -/

theorem wringerOp_lands {z : Instr} {x : Nat} {regs other : List (Nat × Nat)} {s : State} {body : Iss → Res State} (h : s.memOk)
    (hb : ∀ i : Iss, i.memOk → ResOk State.memOk (body i)) : Lands (wringerOp z x regs other s body) :=
  issue_lands h fun _ hx => ResOk.ite hx <| ResOk.ite trivial <| hx.operands.bind hb

theorem control_ok {i : Iss} {y : Nat} : ResOk (fun _ => True) (i.control y) := ResOk.ite trivial trivial

theorem execWcopy_lands {x y : BitVec 8} {sp : BitVec 3} {s : State} (h : s.memOk) : Lands (execWcopy x y sp s) :=
  wringerOp_lands h fun _ hi => need_ok.bind fun _ _ => control_ok.bind fun _ _ => region_ok.bind fun _ _ => region_ok.bind fun _ _ =>
    hi.checkBarrier.bind fun _ _ => need_ok.bind fun _ _ => hi.command

theorem execWfill_lands {x y : BitVec 8} {sp : BitVec 3} {s : State} (h : s.memOk) : Lands (execWfill x y sp s) :=
  wringerOp_lands h fun _ hi => need_ok.bind fun _ _ => control_ok.bind fun _ _ => region_ok.bind fun _ _ =>
    hi.checkBarrier.bind fun _ _ => need_ok.bind fun _ _ => hi.command

theorem Iss.memOk.indexList {i : Iss} (h : i.memOk) {off count : Nat} : ResOk (fun _ => True) (i.indexList off count) :=
  region_ok.bind fun _ _ => ResOk.ite (h.flush.bind fun _ _ => trivial) trivial

theorem gatherLimits_ok {i : Iss} {x : Nat} : ResOk (fun _ => True) (i.gatherLimits x) := ResOk.ite trivial trivial

theorem execWgath_lands {x y : BitVec 8} {sp : BitVec 3} {s : State} (h : s.memOk) : Lands (execWgath x y sp s) :=
  wringerOp_lands h fun _ hi => gatherLimits_ok.bind fun _ _ => control_ok.bind fun _ _ => hi.indexList.bind fun _ _ =>
    narrow_ok.bind fun _ _ => regions_ok.bind fun _ _ => region_ok.bind fun _ _ => hi.checkBarrier.bind fun _ _ =>
      need_ok.bind fun _ _ => hi.command

theorem execWscat_lands {x y : BitVec 8} {sp : BitVec 3} {s : State} (h : s.memOk) : Lands (execWscat x y sp s) :=
  wringerOp_lands h fun _ hi => gatherLimits_ok.bind fun _ _ => control_ok.bind fun _ _ => hi.indexList.bind fun _ _ =>
    region_ok.bind fun _ _ => narrow_ok.bind fun _ _ => regions_ok.bind fun _ _ => hi.checkBarrier.bind fun _ _ =>
      need_ok.bind fun _ _ => hi.command

theorem execWsend_lands {x : BitVec 8} {s : State} (h : s.memOk) : Lands (execWsend x s) :=
  wringerOp_lands h fun _ hi => need_ok.bind fun _ _ => region_ok.bind fun _ _ => hi.command

theorem wcollOp_lands {z : Instr} {x : BitVec 8} {kind : Nat} {s : State} (h : s.memOk) : Lands (wcollOp z x kind s) := by
  refine wringerOp_lands h fun i hi => ?_
  dsimp only
  split
  · exact trap_ok
  · refine need_ok.bind fun _ _ => ResOk.ite (region_ok.bind fun _ _ => ?_) ?_
    all_goals exact region_ok.bind fun _ _ => need_ok.bind fun _ _ => hi.command

/-! ## How a command advances (R275, R278, R281, R283, R303) -/

theorem State.memOk.reportCmd {s : State} (h : s.memOk) {k : Skein} {c : Cmd} : (s.reportCmd k c).memOk := by
  fun_cases State.reportCmd s k c
  · exact h
  · exact h.modCmd.commandFault

theorem State.memOk.writeLine {s : State} (h : s.memOk) {k : Skein} {c : Cmd} {ln : DstLine} : (s.writeLine k c ln).memOk := by
  fun_cases State.writeLine s k c ln
  · exact h.cmdError
  · exact h.writeBytes.modCmd

theorem State.memOk.stepCmd {s : State} (h : s.memOk) {k : Skein} {c : Cmd} : (s.stepCmd k c).memOk := by
  unfold State.stepCmd
  refine h.reportCmd.ite ?_
  split
  · exact h.payCount
  · split
    · exact h.writeLine
    · exact h.modCmd.ite h

theorem execWringerLineWrite_lands {sid cmd : Nat} {s : State} (h : s.memOk) : Lands (execWringerLineWrite sid cmd s) := by
  refine lands_next ?_
  split
  · exact h
  · split
    · exact h
    · split
      · exact h.modCore.stepCmd.ite h
      · exact h
      · exact h

theorem State.memOk.failCmd {s : State} (h : s.memOk) {k : Skein} {c : Cmd} {code : BitVec 16} : (s.failCmd k c code).memOk :=
  h.modCmd.commandFault

theorem State.memOk.sendMap {s : State} (h : s.memOk) {ctx dst n : Nat} : (s.sendMap ctx dst n).memOk := by
  refine h.foldl fun t q ht => ?_
  split
  · exact ht.mapPiece
  all_goals exact ht

theorem State.memOk.sendWrite {s : State} (h : s.memOk) {die : Nat} {ls : List (Option Loc)} {bs : List (Option SrcByte)} :
    (s.sendWrite die ls bs).memOk := h.writeBytes

theorem State.memOk.performInbound {s : State} (h : s.memOk) {ms : List (Nat × Nat × List (Option Byte) × OSet)} :
    (s.performInbound ms).memOk := by
  fun_induction State.performInbound s ms
  case case1 => exact h
  case case2 m ls _ =>
    have hm : m.memOk := h.sendMap
    exact hm
  case case3 m ls _ u ih =>
    have hm : m.memOk := h.sendMap
    exact ih hm.sendWrite.leaveHem

theorem State.memOk.sendNext {s : State} (h : s.memOk) {k : Skein} {c : Cmd} {f : Option (BitVec 16)} : (s.sendNext k c f).memOk :=
  h.modCmd

theorem State.memOk.sendStep {s : State} (h : s.memOk) {k : Skein} {c : Cmd} {m dst : Nat} {src : List (Option SrcByte)} {set : OSet}
    {ok : Bool} : (s.sendStep k c m dst src set ok).memOk := by
  unfold State.sendStep
  dsimp only
  split
  · exact h.countError.sendNext
  · exact h.sendNext.ite <| (h.sendNext.ite h.leaveHem.sendNext).ite <| h.ite <| h.sendMap.sendNext.ite h.sendMap.sendWrite.sendNext

theorem State.memOk.joinGroup {s : State} (h : s.memOk) {ctx handle : Nat} : (s.joinGroup ctx handle).memOk := h

theorem execWsendRemoteWrite_lands {id num : Nat} {op : SendOp} {s : State} (h : s.memOk) : Lands (execWsendRemoteWrite id num op s) := by
  refine lands_next ?_
  split
  · exact h.performInbound.ite h
  · exact h.joinGroup
  · split
    · exact h
    · split
      · exact h
      · split
        · exact h
        · exact h
        · exact (h.modCore.reportCmd.ite h.modCore.sendStep).ite h

theorem State.memOk.joinColl {s : State} (h : s.memOk) {k : Skein} {c : Cmd} {g : Group} {kind n root : Nat} {src : List (Option SrcByte)}
    {mine : List Byte} {remote : List Contribution} : (s.joinColl k c g kind n root src mine remote).memOk := by
  unfold State.joinColl
  dsimp only
  split
  · exact h.modCmd
  · exact h.modCmd.cmdError

theorem State.memOk.contribute {s : State} (h : s.memOk) {k : Skein} {handle kind n root : Nat} {mine : List Byte} :
    (s.contribute k handle kind n root mine).memOk := by
  have h1 : ({ s with free := s.free + mine.length } : State).memOk := h
  exact h1.leaveHem

theorem State.memOk.routeAbort {s : State} (h : s.memOk) {k : Skein} {c : Cmd} {n : Nat} : (s.routeAbort k c n).memOk := h.leaveHem.failCmd

theorem execWcollMatch_lands {sid cmd : Nat} {remote : List Contribution} {s : State} (h : s.memOk) :
    Lands (execWcollMatch sid cmd remote s) := by
  refine lands_next ?_
  split
  · exact h
  · split
    · exact h
    · split
      · exact h
      · exact h
      · split
        · exact h
        · exact h.reportCmd.ite <| h.ite <| h.failCmd.ite <| h.failCmd.ite <| h.routeAbort.ite <| h.ite <|
            h.contribute.failCmd.ite h.contribute.joinColl

end Sys2Proof.Machine
end

section
/-! SUPPORT. What Finwesin serves keeps the memories canonical: the frame of a service, and the calls for time, memory, baskets, stages, bins,
groups and interrupt targets (R355 to R360). -/

namespace Sys2Proof.Machine

/-! ## The frame of a service (R355, R357, R359) -/

/-- The state that a call is served in is canonical, and so are the saved blocks of its context. -/
def Req.memOk (r : Req) : Prop := r.s.memOk ∧ BlocksOk r.c.savedBlocks

/-- What a service gives has a property, and an answer that it stops with carries a canonical state. -/
def ServeOk {α : Type} (P : α → Prop) : Serve α → Prop
  | .ok a => P a
  | .error (some a) => a.s.memOk
  | .error none => True

/-- An answer carries a canonical state. -/
def Ans.memOk (a : Ans) : Prop := a.s.memOk

theorem ServeOk.bind {α β : Type} {P : α → Prop} {Q : β → Prop} {x : Serve α} {f : α → Serve β} (hx : ServeOk P x)
    (hf : ∀ a, P a → ServeOk Q (f a)) : ServeOk Q (x >>= f) := by
  cases x with
  | ok a => exact hf a hx
  | error c => cases c <;> exact hx

theorem ServeOk.ite {α : Type} {P : α → Prop} {c : Prop} [Decidable c] {x y : Serve α} (hx : ServeOk P x) (hy : ServeOk P y) :
    ServeOk P (if c then x else y) := by
  split
  · exact hx
  · exact hy

theorem Req.memOk.fail {α : Type} {P : α → Prop} {r : Req} (h : r.memOk) {code : BitVec 16} {set : OSet} :
    ServeOk P (r.fail code set) := h.1

theorem Req.memOk.need {r : Req} (h : r.memOk) {c : Bool} {n : Nat} : ServeOk (fun _ => True) (r.need c n) := ServeOk.ite trivial h.fail

theorem Req.memOk.found {r : Req} (h : r.memOk) {c : Bool} : ServeOk (fun _ => True) (r.found c) := ServeOk.ite trivial h.fail

theorem Req.memOk.zeros {r : Req} (h : r.memOk) {ns : List Nat} : ServeOk (fun _ => True) (r.zeros ns) := by
  induction ns with
  | nil => trivial
  | cons n ns ih => exact h.need.bind fun _ _ => ih

theorem State.memOk.answer {s : State} (h : s.memOk) {k : Skein} {c : Call} {a : OSet} {vals : List Nat} {set : OSet} :
    (s.answer k c a vals set).memOk := h

theorem State.memOk.requestOf {s : State} (h : s.memOk) {k : Skein} {p : Split} {lane : Nat} {r : Req}
    (e : s.requestOf k p lane = some r) : r.memOk := by
  unfold State.requestOf at e
  split at e
  · next c _ _ _ _ hc _ =>
    split at e
    · cases e
    · dsimp only at e
      split at e
      · cases e
      · cases e
        exact ⟨h, h.ctx hc⟩
  · cases e

theorem State.memOk.request {s : State} (h : s.memOk) {sid uid lane : Nat} {r : Req} (e : s.request sid uid lane = some r) : r.memOk := by
  obtain ⟨k, _, hp⟩ := Option.bind_eq_some_iff.mp e
  obtain ⟨p, _, hr⟩ := Option.bind_eq_some_iff.mp hp
  exact h.requestOf hr

theorem State.memOk.waiting {s : State} (h : s.memOk) {caller : Nat × Nat × Nat × Nat} {r : Req} (e : s.waiting caller = some r) :
    r.memOk := by
  obtain ⟨k, _, hk⟩ := List.exists_of_findSome?_eq_some e
  obtain ⟨p, _, hr⟩ := List.exists_of_findSome?_eq_some hk
  exact h.requestOf hr

/-- A service leaves a canonical state, answered or not. -/
theorem finish_memOk {r : Req} {x : Serve Ans} {t : State} (hx : ServeOk Ans.memOk x) (e : finish r x = some t) : t.memOk := by
  have last (a : Ans) (ha : a.memOk) : (if a.vals.isEmpty then a.s else a.s.answer r.k r.call r.argset a.vals a.set).memOk :=
    State.memOk.ite ha (State.memOk.answer ha)
  cases x with
  | ok a => cases e; exact last a hx
  | error c =>
    cases c with
    | some a => cases e; exact last a hx
    | none => cases e

theorem finish_getD_memOk {s : State} {r : Req} {x : Serve Ans} (h : s.memOk) (hx : ServeOk Ans.memOk x) :
    ((finish r x).getD s).memOk := by
  cases e : finish r x with
  | none => exact h
  | some t => exact finish_memOk hx e

theorem serve_lands {num : Nat → Bool} {sid uid lane : Nat} {s : State} {body : Req → Serve Ans} (h : s.memOk)
    (hb : ∀ r : Req, r.memOk → ServeOk Ans.memOk (body r)) : Lands (serve num sid uid lane s body) := by
  refine lands_next ?_
  split
  · exact h
  · next r hr => exact h.ite (finish_getD_memOk h (hb r (h.request hr)))

/-! ## Pages that a service reaches (R359) -/

theorem State.memOk.svcPiece {s : State} (h : s.memOk) {ctx : Nat} {need : Need} {va n : Nat} {x : State × Part}
    (e : s.svcPiece ctx need va n = .ok x) : x.1.memOk := by
  unfold State.svcPiece at e
  split at e
  · cases e
  · next c hc =>
    have ht : (match s.walk c va, c.region? va with
      | .unmapped, some _ => s.mapPiece ctx va
      | _, _ => s).memOk := by
      split
      · exact h.mapPiece
      · exact h
    dsimp only at e
    split at e
    · cases e
    · cases e
    · split at e
      · cases e
      · split at e
        · cases e
        · cases e
          exact ht

theorem State.memOk.svcPieces {s : State} (h : s.memOk) {ctx : Nat} {need : Need} {ps : List (Nat × Nat)} {x : State × List Part}
    (e : s.svcPieces ctx need ps = .ok x) : x.1.memOk := by
  induction ps generalizing s x with
  | nil => cases e; exact h
  | cons q ps ih =>
    unfold State.svcPieces at e
    split at e
    · cases e
    · next u p hu =>
      split at e
      · cases e
      · next v qs hv =>
        cases e
        have hw : State.memOk (v, qs).1 := ih (h.svcPiece hu) hv
        exact hw

theorem Req.memOk.reach {r : Req} (h : r.memOk) {need : Need} {va n : Nat} {set : OSet} :
    ServeOk (fun x : Req × List Part => x.1.memOk) (r.reach need va n set) := by
  unfold Req.reach
  split
  · exact h.fail
  · next t ps e => exact ServeOk.ite trivial ⟨h.1.svcPieces e, h.2⟩

theorem Req.memOk.read {r : Req} (h : r.memOk) {va n : Nat} {set : OSet} :
    ServeOk (fun x : Req × List Byte × OSet => x.1.memOk) (r.read va n set) := by
  refine h.reach.bind fun x hx => ?_
  dsimp only
  split
  · exact hx.1.countError
  · exact hx

theorem State.memOk.svcWrite {s : State} (h : s.memOk) {die : Nat} {ps : List Part} {bs : List Byte} : (s.svcWrite die ps bs).memOk :=
  State.memOk.mend (h.foldl fun _ _ ht => ht.engineWrite)

theorem State.memOk.freshNum {s : State} (h : s.memOk) {used : List Nat} {n : Nat} : (s.freshNum used n).2.memOk := h

/-! ## TIME and memory (R357 to R359, R442) -/

theorem execTimeCall_lands {sid uid lane : Nat} {s : State} (h : s.memOk) : Lands (execTimeCall sid uid lane s) :=
  serve_lands h fun _ hr => hr.zeros.bind fun _ _ => hr.1.takeWord

theorem State.memOk.freeBase {s : State} (h : s.memOk) {c : Context} {size n : Nat} : (s.freeBase c size n).2.memOk := h

theorem State.memOk.freeFrames {s : State} (h : s.memOk) {part size n : Nat} {x : Nat × State} (e : s.freeFrames part size n = some x) :
    x.2.memOk := by
  unfold State.freeFrames at e
  dsimp only at e
  split at e
  · cases e
  · cases e
    exact h.modPart

theorem Req.memOk.allocG {r : Req} (h : r.memOk) {n : Nat} : ServeOk Ans.memOk (r.allocG n) := by
  refine h.need.bind fun _ _ => h.need.bind fun _ _ => h.zeros.bind fun _ _ => ?_
  dsimp only
  split
  · next va f t _ _ e =>
    have hb : r.s.takeBit.2.memOk := h.1
    have ht : t.memOk := State.memOk.freeFrames hb.freeBase e
    exact ht.setCtx h.2
  · exact h.1

theorem WinsOk.append {l : List CWin} (h : WinsOk l) {w : CWin} (hw : Memory.wf w.cells = true) : WinsOk (l ++ [w]) := by
  intro x hx
  rcases List.mem_append.mp hx with hx | hx
  · exact h x hx
  · rw [List.mem_singleton.mp hx]; exact hw

theorem Req.memOk.allocC {r : Req} (h : r.memOk) {n : Nat} : ServeOk Ans.memOk (r.allocC n) :=
  h.need.bind fun _ _ => h.need.bind fun _ _ => h.zeros.bind fun _ _ => ServeOk.ite h.fail (h.1.modWins fun _ hc => hc.append rfl)

theorem execMemAlloc_lands {sid uid lane : Nat} {s : State} (h : s.memOk) : Lands (execMemAlloc sid uid lane s) :=
  serve_lands h fun _ hr => ServeOk.ite hr.allocG hr.allocC

theorem State.memOk.removeRange {s : State} (h : s.memOk) {ctx va n : Nat} : (s.removeRange ctx va n).memOk := by
  fun_cases State.removeRange s ctx va n
  case case1 => exact h
  case case2 frames busy t1 t2 _ => exact h.unmapRange
  case case3 frames busy t1 t2 d hd =>
    have ht : t2.memOk := h.unmapRange
    exact ht.putCtx hd

theorem execMemUnmap_lands {sid uid lane : Nat} {s : State} (h : s.memOk) : Lands (execMemUnmap sid uid lane s) :=
  serve_lands h fun _ hr => hr.need.bind fun _ _ => hr.need.bind fun _ _ => hr.zeros.bind fun _ _ => hr.1.removeRange

theorem execTagWiden_lands {sid uid lane : Nat} {s : State} (h : s.memOk) : Lands (execTagWiden sid uid lane s) :=
  serve_lands h fun r hr => hr.need.bind fun _ _ => hr.need.bind fun _ _ => hr.need.bind fun _ _ => hr.need.bind fun _ _ =>
    State.memOk.ite (hr.1.setBlock (hr.1.blockOf (k := r.k))) (hr.1.modWins fun _ hc => hc.mapIf fun _ hw => hw)

/-! ## Baskets, stages and bins (R147, R293, R296, R338) -/

theorem execBasketCreate_lands {sid uid lane : Nat} {s : State} (h : s.memOk) : Lands (execBasketCreate sid uid lane s) := by
  refine serve_lands h fun r hr => hr.need.bind fun _ _ => hr.need.bind fun _ _ => hr.need.bind fun _ _ => hr.zeros.bind fun _ _ =>
    ServeOk.ite hr.fail ?_
  have ht {slot : Nat} {f : Basket → Basket} : (r.s.takeWord.2.modBasket r.k.cluster slot f).memOk := hr.1.takeWord.modBasket
  exact State.memOk.ite (ht.setBlock (cellsClear_wf _ _ ht.blockOf)) ht

theorem execBasketDestroy_lands {sid uid lane : Nat} {s : State} (h : s.memOk) : Lands (execBasketDestroy sid uid lane s) :=
  serve_lands h fun _ hr => hr.found.bind fun _ _ => hr.zeros.bind fun _ _ => hr.1.retireBasket

theorem execStageRegister_lands {sid uid lane : Nat} {s : State} (h : s.memOk) : Lands (execStageRegister sid uid lane s) :=
  serve_lands h fun _ hr => hr.found.bind fun _ _ => hr.need.bind fun _ _ => hr.need.bind fun _ _ => hr.zeros.bind fun _ _ =>
    ServeOk.ite hr.fail hr.1.takeWord.modCluster

theorem execStageRemove_lands {sid uid lane : Nat} {s : State} (h : s.memOk) : Lands (execStageRemove sid uid lane s) :=
  serve_lands h fun _ hr => hr.found.bind fun _ _ => hr.zeros.bind fun _ _ => hr.1.modCluster

theorem execSpawnConfig_lands {sid uid lane : Nat} {s : State} (h : s.memOk) : Lands (execSpawnConfig sid uid lane s) :=
  serve_lands h fun _ hr => hr.need.bind fun _ _ => hr.need.bind fun _ _ => hr.zeros.bind fun _ _ => hr.1.modCluster

/-! ## Collective groups and interrupt targets (R283, R358, R360) -/

theorem execCollGroup_lands {sid uid lane : Nat} {s : State} (h : s.memOk) : Lands (execCollGroup sid uid lane s) :=
  serve_lands h fun _ hr => hr.need.bind fun _ _ => hr.need.bind fun _ _ => hr.read.bind fun _ hx => ServeOk.ite (Req.memOk.fail hx) hx.1

theorem execUintRegister_lands {sid uid lane : Nat} {s : State} (h : s.memOk) : Lands (execUintRegister sid uid lane s) := by
  refine serve_lands h fun _ hr => hr.need.bind fun _ _ => hr.zeros.bind fun _ _ => hr.read.bind fun x hx => ?_
  dsimp only
  split
  · exact Req.memOk.fail hx
  · have hn := hx.1.freshNum (used := x.1.s.uints.map (·.handle)) (n := 0xFFFF0000)
    generalize x.1.s.freshNum (x.1.s.uints.map (·.handle)) 0xFFFF0000 = n at hn ⊢
    exact ServeOk.ite (Req.memOk.fail hx) hn.takeBit.takeWord

theorem execUintUnregister_lands {sid uid lane : Nat} {s : State} (h : s.memOk) : Lands (execUintUnregister sid uid lane s) :=
  serve_lands h fun _ hr => hr.found.bind fun _ _ => hr.zeros.bind fun _ _ => hr.1

theorem execUnlistedCall_lands {sid uid lane : Nat} {s : State} (h : s.memOk) : Lands (execUnlistedCall sid uid lane s) :=
  serve_lands h fun _ hr => hr.fail

end Sys2Proof.Machine
end

section
/-! SUPPORT. Files, sockets, egress and storage commands keep the memories canonical (R357 to R359, R401 to R408). -/

namespace Sys2Proof.Machine

/-! ## Files (R357, R358) -/

theorem Req.memOk.string {r : Req} (h : r.memOk) {va f : Nat} {set : OSet} :
    ServeOk (fun x : Req × List Byte × OSet => x.1.memOk) (r.string va f set) := by
  induction f generalizing r va set with
  | zero => exact h
  | succ f ih => exact h.read.bind fun _ hx => ServeOk.ite hx ((ih hx).bind fun _ hy => hy)

theorem State.memOk.putFile {s : State} (h : s.memOk) {part ns : Nat} {path data : List Byte} : (s.putFile part ns path data).memOk := by
  unfold State.putFile
  split
  · exact h
  · exact h

theorem Req.memOk.opened {r : Req} (h : r.memOk) {s : State} (hs : s.memOk) {d : Desc} {set : OSet} : (r.opened s d set).memOk :=
  State.memOk.setCtx (State.memOk.freshNum hs) h.2

theorem execFileOpen_lands {sid uid lane ext : Nat} {s : State} (h : s.memOk) : Lands (execFileOpen sid uid lane ext s) := by
  refine serve_lands h fun _ hr => hr.need.bind fun _ _ => hr.need.bind fun _ _ => hr.string.bind fun x hx => ?_
  dsimp only
  split
  · exact Req.memOk.fail hx
  · exact ServeOk.ite (Req.memOk.fail hx) (ServeOk.ite (Req.memOk.fail hx) (hx.opened (hx.1.putFile.ite hx.1)))

theorem Req.memOk.desc {r : Req} (h : r.memOk) {file : Bool} : ServeOk (fun _ => True) (r.desc file) := by
  unfold Req.desc
  split
  · trivial
  · exact h.fail

theorem Req.memOk.submit {r : Req} (h : r.memOk) {d : Desc} {read : Bool} {data : List Byte} {ps : List Part} {off : Nat} {set : OSet}
    {ext : Nat} : (r.submit d read data ps off set ext).memOk := h.1

theorem Req.memOk.ioRecord {r : Req} (h : r.memOk) : ServeOk (fun x : Req × Nat × List Byte × OSet => x.1.memOk) r.ioRecord :=
  h.read.bind fun _ hx => hx

theorem execFileRead_lands {sid uid lane ext : Nat} {s : State} (h : s.memOk) : Lands (execFileRead sid uid lane ext s) := by
  refine serve_lands h fun r hr => ?_
  extract_lets jp
  have hjp : ∀ u, ServeOk Ans.memOk (jp u) := fun _ =>
    hr.desc.bind fun _ _ => hr.need.bind fun _ _ => hr.need.bind fun _ _ => hr.ioRecord.bind fun _ hx => hx.reach.bind fun _ hy =>
      ServeOk.ite (Req.memOk.fail hy) (Req.memOk.submit hy)
  exact ServeOk.ite trivial (hjp ())

theorem Req.memOk.refuse {α : Type} {P : α → Prop} {r : Req} (h : r.memOk) {detail : Nat} {set : OSet} :
    ServeOk P (r.refuse detail set) := h.1

theorem execFileWrite_lands {sid uid lane ext : Nat} {s : State} (h : s.memOk) : Lands (execFileWrite sid uid lane ext s) := by
  refine serve_lands h fun r hr => ?_
  extract_lets jp
  have hjp : ∀ u, ServeOk Ans.memOk (jp u) := fun _ =>
    hr.desc.bind fun _ _ => hr.need.bind fun _ _ => hr.need.bind fun _ _ => hr.ioRecord.bind fun _ hx => hx.read.bind fun _ hy =>
      hy.reach.bind fun _ hz => ServeOk.ite (Req.memOk.refuse hz) (Req.memOk.submit hz)
  exact ServeOk.ite trivial (hjp ())

theorem Req.memOk.close {r : Req} (h : r.memOk) {d : Desc} : (r.close d).memOk := State.memOk.setCtx h.1 h.2

theorem execFileClose_lands {sid uid lane : Nat} {s : State} (h : s.memOk) : Lands (execFileClose sid uid lane s) :=
  serve_lands h fun _ hr => hr.desc.bind fun _ _ => hr.zeros.bind fun _ _ => hr.close

/-! ## Storage commands (R401, R402) -/

theorem State.memOk.zeroFrame {s : State} (h : s.memOk) {f : Nat} : (s.zeroFrame f).memOk :=
  ⟨cellsClear_wf _ _ h.mem, h.blocks, h.clusters, h.ctxs⟩

theorem State.memOk.releaseFrames {s : State} (h : s.memOk) {c : Nvme} : (s.releaseFrames c).memOk := by
  have ht {l : List Nat} : (l.foldl State.zeroFrame s).memOk := h.foldl fun _ _ hu => hu.zeroFrame
  exact h.ite ht

theorem State.memOk.pokeAll {s : State} (h : s.memOk) {l : List (Loc × Byte)} : (l.foldl (fun t x => t.poke x.1 x.2) s).memOk :=
  h.foldl fun _ _ ht => ht.poke

theorem State.memOk.transfer {s : State} (h : s.memOk) {c : Nvme} : (s.transfer c).memOk := by
  have hf {n : Nat} : ({ s with free := s.free + n } : State).memOk := h
  exact h.ite (h.pokeAll.mend.ite hf.putFile)

theorem State.memOk.answerAt {s : State} (h : s.memOk) {caller : Nat × Nat × Nat × Nat} {num : Nat} {vals : List Nat} {set : OSet} :
    (s.answerAt caller num vals set).memOk := by
  unfold State.answerAt
  dsimp only
  split
  · exact h.answer
  · exact ⟨h.mem, h.blocks, h.clusters, h.ctxs.map fun _ hc => hc⟩

theorem State.memOk.answerCaller {s : State} (h : s.memOk) {c : Nvme} : (s.answerCaller c).memOk := h.answerAt

theorem State.memOk.endNvme {s : State} (h : s.memOk) {c : Nvme} : (s.endNvme c).memOk := by
  have ht : ({ s with nvme := s.nvme.filter (·.id != c.id) } : State).memOk := h
  exact h.ite (ht.transfer.releaseFrames.answerCaller.ite ht.transfer.releaseFrames)

theorem execNvmeCompletion_lands {cmd : Nat} {s : State} (h : s.memOk) : Lands (execNvmeCompletion cmd s) := by
  refine lands_next ?_
  split
  · exact h
  · exact h.ite h.endNvme

theorem State.memOk.lostStatus {s : State} (h : s.memOk) : s.lostStatus.2.memOk := h

theorem State.memOk.abortLate {s : State} (h : s.memOk) {cmd : Nat} {b : Bool} : (s.abortLate cmd b).memOk := by
  unfold State.abortLate
  split
  · exact h
  · have hm {l : List Nvme} : ({ s with nvme := l } : State).memOk := h
    exact h.ite (hm.ite h.lostStatus.endNvme)

theorem execNvmeAbortTimeout_lands {cmd : Nat} {b : Bool} {s : State} (h : s.memOk) : Lands (execNvmeAbortTimeout cmd b s) :=
  lands_next h.abortLate

theorem State.memOk.endReset {s : State} (h : s.memOk) {ctrl : Nat} : (s.endReset ctrl).memOk :=
  h.foldl fun _ _ ht => ht.lostStatus.endNvme

theorem execControllerResetComplete_lands {ctrl : Nat} {s : State} (h : s.memOk) : Lands (execControllerResetComplete ctrl s) :=
  lands_next h.endReset

/-! ## Sockets and egress (R357, R403 to R408) -/

theorem execSockCreate_lands {sid uid lane ext : Nat} {s : State} (h : s.memOk) : Lands (execSockCreate sid uid lane ext s) :=
  serve_lands h fun _ hr => hr.need.bind fun _ _ => hr.need.bind fun _ _ => hr.need.bind fun _ _ => hr.read.bind fun _ hx =>
    ServeOk.ite (Req.memOk.fail hx) (ServeOk.ite (Req.memOk.fail hx) (hx.opened hx.1))

theorem State.memOk.leave {s : State} (h : s.memOk) {part dest off : Nat} {data : List Byte} : (s.leave part dest off data).memOk := h

theorem execSockSend_lands {sid uid lane ext : Nat} {s : State} (h : s.memOk) : Lands (execSockSend sid uid lane ext s) := by
  refine serve_lands h fun _ hr => hr.desc.bind fun _ _ => hr.need.bind fun _ _ => hr.read.bind fun x hx => ?_
  dsimp only
  split
  · exact Req.memOk.refuse hx
  · exact ServeOk.ite (Req.memOk.fail hx) (State.memOk.leave hx.1)

theorem Req.memOk.receive {r : Req} (h : r.memOk) {data : List Byte} : ServeOk Ans.memOk (r.receive data) :=
  h.desc.bind fun _ _ => h.need.bind fun _ _ => h.reach.bind fun _ hx => ServeOk.ite (Req.memOk.fail hx) (State.memOk.svcWrite hx.1)

theorem execSockRecv_lands {sid uid lane : Nat} {data : List (BitVec 8)} {s : State} (h : s.memOk) :
    Lands (execSockRecv sid uid lane data s) := by
  refine lands_next ?_
  split
  · exact h
  · next r hr =>
    have hheld {l : List Outside} : ({ s with heldOutside := l } : State).memOk := h
    exact h.ite (finish_getD_memOk hheld (h.request hr).receive)

theorem State.memOk.receiveHeld {s t : State} (h : s.memOk) {caller : Nat × Nat × Nat × Nat} {data : List Byte}
    (e : s.receiveHeld caller data = some t) : t.memOk := by
  unfold State.receiveHeld at e
  split at e
  · cases e; exact h
  · next r hr =>
    have ha := (h.waiting hr).receive (data := data)
    split at e
    · next he => cases e; rw [he] at ha; exact State.memOk.answerAt ha
    · next he => cases e; rw [he] at ha; exact State.memOk.answerAt ha
    · cases e

theorem execSockClose_lands {sid uid lane : Nat} {s : State} (h : s.memOk) : Lands (execSockClose sid uid lane s) :=
  serve_lands h fun _ hr => hr.desc.bind fun _ _ => hr.zeros.bind fun _ _ => hr.close

theorem State.memOk.spend {s : State} (h : s.memOk) {part id n : Nat} : (s.spend part id n).memOk := h.modPart

theorem State.memOk.deliver {s : State} (h : s.memOk) {part dest off : Nat} {data : List Byte} : (s.deliver part dest off data).memOk :=
  State.memOk.pokeAll h.leave

theorem execEgress_lands {sid uid lane ext : Nat} {s : State} (h : s.memOk) : Lands (execEgress sid uid lane ext s) := by
  refine serve_lands h fun r hr => hr.need.bind fun _ _ => hr.ioRecord.bind fun x hx => hx.read.bind fun y hy => ?_
  dsimp only
  split
  · exact Req.memOk.refuse hy
  · have ht {c : Prop} [Decidable c] {part id n : Nat} : (if c then y.1.s else y.1.s.spend part id n).memOk := hy.1.ite hy.1.spend
    exact ServeOk.ite trivial (ServeOk.ite (State.memOk.deliver ht) ht)

end Sys2Proof.Machine
end

section
/-! SUPPORT. Batches, the Mangle, placement and the sorter keep the memories canonical. -/

namespace Sys2Proof.Machine

/-! ## Batches and the format register (R276, R277, R314 to R317, R324 to R326) -/

theorem execClose_lands {x : BitVec 8} {cls : BitVec 3} {la : BitVec 4} {s : State} (h : s.memOk) : Lands (execClose x cls la s) :=
  issue_lands h fun _ hx => hx.operands.bind fun _ hy => ResOk.ite hy <| ResOk.ite trivial hy.put

theorem batch_ok {i : Iss} {y cls : Nat} : ResOk (fun _ => True) (i.batch y cls) := ResOk.ite trivial (ResOk.ite trivial trivial)

theorem execWaitb_lands {y : BitVec 8} {cls : BitVec 3} {s : State} (h : s.memOk) : Lands (execWaitb y cls s) := by
  refine issue_lands h fun _ hx => hx.operands.bind fun _ hy => batch_ok.bind fun b _ => ?_
  split
  · exact hy
  · exact State.memOk.acquire hy
  · exact hy.put

theorem execTestb_lands {x y : BitVec 8} {cls : BitVec 3} {la : BitVec 4} {s : State} (h : s.memOk) : Lands (execTestb x y cls la s) := by
  refine issue_lands h fun _ hx => hx.operands.bind fun _ hy => batch_ok.bind fun b _ => ?_
  split
  · exact hy
  · exact State.memOk.ite (State.memOk.acquire hy.put) hy.put

theorem execWaitbReturn_lands {sid uid : Nat} {s : State} (h : s.memOk) : Lands (execWaitbReturn sid uid s) := by
  refine lands_next ?_
  split
  · exact h
  · split
    · exact h.setSkein.acquire.ite h
    · exact h

theorem execSetfr_lands {y : BitVec 8} {s : State} (h : s.memOk) : Lands (execSetfr y s) :=
  issue_lands h fun _ hx => hx.operands.bind fun _ hy => ResOk.ite hy <| need_ok.bind fun _ _ => hy.put

theorem execGetfr_lands {x : BitVec 8} {la : BitVec 4} {s : State} (h : s.memOk) : Lands (execGetfr x la s) :=
  issue_lands h fun _ hx => hx.operands.bind fun _ hy => State.memOk.ite hy hy.put

/-! ## Claims and commands of the Mangle (R285 to R292, R305 to R313) -/

/-- A claim leaves a block's scratchpad. -/
theorem Block.claim_cells {b : Block} {acc : Bool} {f c : Nat} {who : Option Nat} {set : OSet} :
    (b.claim acc f c who set).cells = b.cells := by
  cases acc <;> rfl

theorem State.memOk.claim {s : State} (h : s.memOk) {i : Iss} (hi : i.memOk) {acc : Bool} {f c : Nat} {who : Option Nat} {set : OSet} :
    (s.setBlock ((i.s.blockOf i.k).claim acc f c who set)).memOk :=
  h.setBlock (by rw [Block.claim_cells]; exact State.memOk.blockOf hi)

theorem mbay_lands {z : Instr} {x y : BitVec 8} {la : BitVec 4} {acc : Bool} {s : State} (h : s.memOk) : Lands (mbay z x y la acc s) := by
  refine issue_lands h fun _ hx => ResOk.ite hx <| hx.operands.bind fun j hy => need_ok.bind fun _ _ => ?_
  dsimp only
  split
  · exact State.memOk.claim hy.put hy
  · exact hy.put

theorem mfree_lands {z : Instr} {x y : BitVec 8} {acc : Bool} {s : State} (h : s.memOk) : Lands (mfree z x y acc s) :=
  issue_lands h fun _ hx => ResOk.ite hx <| hx.operands.bind fun _ hy => need_ok.bind fun _ _ => State.memOk.claim hy hy

theorem State.memOk.returnClaims {s : State} (h : s.memOk) {k : Skein} : (s.returnClaims k).memOk :=
  h.ite ⟨h.mem, h.blocks.mapIf fun _ hb => hb, h.clusters, h.ctxs⟩

theorem mangleOp_lands {z : Instr} {x : Nat} {regs : List (Nat × Nat)} {s : State} {body : Iss → Res State} (h : s.memOk)
    (hb : ∀ i : Iss, i.memOk → ResOk State.memOk (body i)) : Lands (mangleOp z x regs s body) :=
  issue_lands h fun _ hx => ResOk.ite hx <| ResOk.ite trivial <| hx.operands.bind hb

theorem State.memOk.queueM {s : State} (h : s.memOk) {k : Skein} {c : MCmd} : (s.queueM k c).memOk :=
  State.memOk.meetErrors (core := k.coreId) (moment := s.nextId) h

theorem Iss.memOk.enqueue {i : Iss} (h : i.memOk) {kind : MKind} {set : OSet} {spaces : List Space} {srcs : List Loc} {pages : List Nat} :
    ResOk Iss.memOk (i.enqueue kind set spaces srcs pages) :=
  h.releaseAt.bind fun _ hj => State.memOk.queueM hj

theorem Iss.memOk.setBay {i : Iss} (h : i.memOk) {n : Nat} {set : OSet} : (i.setBay n set).memOk :=
  State.memOk.setBlock h (State.memOk.blockOf h)

theorem Iss.memOk.setTile {i : Iss} (h : i.memOk) {n : Nat} {set : OSet} : (i.setTile n set).memOk :=
  State.memOk.setBlock h (State.memOk.blockOf h)

theorem execMwload_lands {x : BitVec 8} {s : State} (h : s.memOk) : Lands (execMwload x s) :=
  mangleOp_lands h fun _ hi => need_ok.bind fun _ _ => region_ok.bind fun _ _ => region_ok.bind fun _ _ =>
    hi.enqueue.bind fun _ hj => hj.setBay

theorem execMma_lands {x : BitVec 8} {s : State} (h : s.memOk) : Lands (execMma x s) :=
  mangleOp_lands h fun _ hi => need_ok.bind fun _ _ => regions_ok.bind fun _ _ => hi.enqueue.bind fun _ hj => hj.setTile

theorem execMdrain_lands {x : BitVec 8} {s : State} (h : s.memOk) : Lands (execMdrain x s) :=
  mangleOp_lands h fun _ hi => need_ok.bind fun _ _ => regions_ok.bind fun _ _ => need_ok.bind fun _ _ =>
    hi.enqueue.bind fun _ hj => State.memOk.ite hj.put hj

theorem execMzero_lands {x : BitVec 8} {s : State} (h : s.memOk) : Lands (execMzero x s) :=
  mangleOp_lands h fun _ hi => need_ok.bind fun _ _ => hi.enqueue.bind fun _ hj => hj.setTile

theorem execMangleCommandStart_lands {cl : Nat} {s : State} (h : s.memOk) : Lands (execMangleCommandStart cl s) := by
  refine lands_next ?_
  split
  · exact h
  · split
    · exact h
    · exact h.setSkein.modCluster

theorem State.memOk.performM {s : State} (h : s.memOk) {k : Skein} {c : MCmd} : (s.performM k c).memOk := by
  have hb := h.blockOf (k := k)
  unfold State.performM
  dsimp only
  split
  · refine State.memOk.modCluster (h.setBlock ?_)
    exact hb
  · refine State.memOk.modCluster (h.setBlock ?_)
    exact hb
  · exact State.memOk.mend (h.foldl fun _ _ ht => ht.pokes)
  · refine h.setBlock ?_
    exact hb

theorem State.memOk.faultM {s : State} (h : s.memOk) {k : Skein} {c : MCmd} : (s.faultM k c).1.memOk := by
  unfold State.faultM
  split
  · exact h.countError
  · exact h

theorem State.memOk.completeM {s : State} (h : s.memOk) {k : Skein} : (s.completeM k).memOk := by
  unfold State.completeM
  split
  · exact h
  · next c rest _ =>
    have hf : (s.faultM k c).1.memOk := h.faultM
    split
    · dsimp only
      split
      · exact hf.performM.setSkein
      · exact hf.setSkein.commandFault
    · exact h

theorem execMangleCommandComplete_lands {sid : Nat} {s : State} (h : s.memOk) : Lands (execMangleCommandComplete sid s) := by
  refine lands_next ?_
  split
  · exact h
  · exact h.completeM

/-! ## Dependencies, placement, bins and the sorter (R147, R333 to R339) -/

theorem State.memOk.depBit {s t : State} (h : s.memOk) {g : Grid} {j : Nat} {code : BitVec 16} (e : s.depBit g j = .error (code, t)) :
    t.memOk := by
  unfold State.depBit at e
  split at e
  · cases e
  · split at e
    · cases e; exact h
    · split at e
      · cases e
      · split at e
        · cases e; exact h.outsideError
        · cases e

theorem execDependencyPoll_lands {grid blk : Nat} {s : State} (h : s.memOk) : Lands (execDependencyPoll grid blk s) := by
  refine lands_next ?_
  split
  · exact h
  · refine h.ite ?_
    split
    · exact h
    · split
      · next e => exact (h.depBit e).endContext
      · exact h
      · exact h.setGrid

theorem State.memOk.place {s : State} (h : s.memOk) {g : Grid} {blk core : Nat} {threads : Option Spawned} :
    (s.place g blk threads core).memOk := by
  have hb : BlocksOk [{ Block.fresh (s.shape g threads) blk core ((s.freeSlots core).take (s.shape g threads).skeins) with
      threads := threads }] := by
    intro b hb
    rw [List.mem_singleton.mp hb]
    rfl
  exact ⟨h.mem, h.blocks.append hb, h.clusters, h.ctxs⟩

theorem State.memOk.placeFirst {s : State} (h : s.memOk) {cl : Nat} {ps : List Placeable} : (s.placeFirst cl ps).memOk := by
  fun_induction State.placeFirst s cl ps
  case case3 => exact h.place
  all_goals assumption

theorem execBlockPlacement_lands {cl : Nat} {s : State} (h : s.memOk) : Lands (execBlockPlacement cl s) :=
  lands_next (h.placeFirst.ite h)

theorem State.memOk.binTimer {s : State} (h : s.memOk) {cl bin : Nat} : (s.binTimer cl bin).memOk := by
  unfold State.binTimer
  split
  · exact h
  · exact h.launchBin.ite h

theorem execSpawnBinTimer_lands {cl bin : Nat} {s : State} (h : s.memOk) : Lands (execSpawnBinTimer cl bin s) := lands_next h.binTimer

theorem State.memOk.reassign {s : State} (h : s.memOk) {cl n : Nat} : (s.reassign cl n).memOk := by
  refine h.ite ?_
  split
  · exact h
  · exact h.popEnds

theorem execSorterSample_lands {cl : Nat} {s : State} (h : s.memOk) : Lands (execSorterSample cl s) :=
  lands_next (State.memOk.foldl h.modCluster fun _ _ ht => ht.reassign)

end Sys2Proof.Machine
end

section
/-! SUPPORT. Pre-emption keeps the memories canonical, saved scratchpads among them (R362 to R372). -/

namespace Sys2Proof.Machine

/-! ## Requests and stops (R362, R364) -/

theorem State.memOk.stopHere {s : State} (h : s.memOk) {k : Skein} : (s.stopHere k).memOk := by
  unfold State.stopHere
  split
  · exact h
  · exact h.takeStop

theorem State.memOk.stopStuck {s : State} (h : s.memOk) {sid : Nat} : (s.stopStuck sid).memOk := by
  unfold State.stopStuck
  split
  · exact h
  · exact h.ite h.stopHere

theorem State.memOk.stopAllStuck {s : State} (h : s.memOk) {ctx cl : Nat} : (s.stopAllStuck ctx cl).memOk :=
  h.foldl fun _ _ ht => ht.stopStuck

theorem execTimeSliceEnd_lands {ctx : Nat} {s : State} (h : s.memOk) : Lands (execTimeSliceEnd ctx s) := by
  refine lands_next ?_
  split
  · exact h
  · next c hc => exact h.ite (State.memOk.foldl (h.putCtx hc) fun _ _ ht => ht.modCluster.stopAllStuck)

/-! ## Drain and save (R366 to R368, R372) -/

theorem State.memOk.menderError {s : State} (h : s.memOk) {ctx : Nat} {l : Loc} : (s.menderError ctx l).memOk :=
  State.memOk.endContext h.outsideError

theorem State.memOk.save {s : State} (h : s.memOk) {c : Context} (hc : BlocksOk c.savedBlocks) {cl : Nat} : (s.save c cl).memOk := by
  unfold State.save
  extract_lets q mine
  split
  · exact h.menderError
  · have ht : ({ s with
        skeins := s.skeins.filter fun k => !k.isOn c.id cl,
        blocks := s.blocks.filter fun b => !(b.ctx == c.id && b.cluster == cl) } : State).memOk :=
      ⟨h.mem, h.blocks.filter, h.clusters, h.ctxs⟩
    have hp := ht.foldl (l := mine) fun _ k hu => hu.freeParks (k := k)
    refine State.memOk.modCluster (hp.setCtx ?_)
    exact hc.append h.blocks.filter

theorem execEngineDrain_lands {ctx cl : Nat} {s : State} (h : s.memOk) : Lands (execEngineDrain ctx cl s) := by
  refine lands_next ?_
  split
  · exact h
  · next c hc =>
    refine h.ite ?_
    split
    · have ht : (s.stopAllStuck ctx cl).memOk := h.stopAllStuck
      refine ht.ite (State.memOk.modCtx ?_)
      exact ht
    · exact h.ite (h.save (h.ctx hc))
    all_goals exact h

theorem execGraceDeadline_lands {ctx cl : Nat} {s : State} (h : s.memOk) : Lands (execGraceDeadline ctx cl s) := by
  refine lands_next ?_
  split
  · exact h
  · next c hc => exact State.memOk.ite (h.putCtx hc) h

theorem execWatchdog_lands {ctx cl : Nat} {s : State} (h : s.memOk) : Lands (execWatchdog ctx cl s) := by
  refine lands_next ?_
  split
  · exact h
  · exact h.endContext.ite h

/-! ## Resumption (R369, R370) -/

theorem State.memOk.reloadPlace {s : State} (h : s.memOk) {ctx cl va n : Nat} {inC : Bool} {x : State × List Loc × OSet}
    (e : s.reloadPlace ctx cl inC va n = .ok x) : x.1.memOk := by
  unfold State.reloadPlace at e
  split at e
  · cases e; exact h
  · split at e
    · cases e
    · next ht => cases e; exact h.svcPieces ht

/-- What the reload of bays gives: the state, or the state with an error counted. -/
def ReloadOk {α : Type} : Except (BitVec 16 × State) (State × α) → Prop
  | .ok x => x.1.memOk
  | .error x => x.2.memOk

theorem State.memOk.reloadSource {s : State} (h : s.memOk) {ctx cl va n : Nat} {inC : Bool} :
    ReloadOk (s.reloadSource ctx cl inC va n) := by
  unfold State.reloadSource
  split
  · exact h
  · next e =>
    have ht := h.reloadPlace e
    split
    · exact State.memOk.countError ht
    · exact ht

theorem State.memOk.reloadBay {s : State} (h : s.memOk) {ctx cl : Nat} {b : Bay} : ReloadOk (s.reloadBay ctx cl b) := by
  unfold State.reloadBay
  split
  · exact h
  · next w sc wc scc fmt grp _ =>
    have h1 := h.reloadSource (ctx := ctx) (cl := cl) (inC := wc) (va := w) (n := weightBytes fmt)
    split
    · next e => rw [e] at h1; exact h1
    · next t ws x e =>
      rw [e] at h1
      have h2 := State.memOk.reloadSource h1 (ctx := ctx) (cl := cl) (inC := scc) (va := sc) (n := scaleBytes grp)
      split
      · next e => rw [e] at h2; exact h2
      · next e => rw [e] at h2; exact State.memOk.modCluster h2

theorem State.memOk.reloadBays {s : State} (h : s.memOk) {ctx cl : Nat} {bs : List Bay} : ReloadOk (s.reloadBays ctx cl bs) := by
  induction bs generalizing s with
  | nil => exact h
  | cons b bs ih =>
    have h1 := h.reloadBay (ctx := ctx) (cl := cl) (b := b)
    unfold State.reloadBays
    split
    · next e => rw [e] at h1; exact h1
    · next e =>
      rw [e] at h1
      have h2 := ih h1
      split
      · next e => rw [e] at h2; exact h2
      · next e => rw [e] at h2; exact h2

theorem State.memOk.requeue {s : State} (h : s.memOk) {sid : Nat} {c : MCmd} : (s.requeue sid c).memOk := by
  unfold State.requeue
  split
  · exact h
  · exact h.queueM

theorem State.memOk.restart {s : State} (h : s.memOk) {sid : Nat} : (s.restart sid).memOk := by
  unfold State.restart
  split
  · exact h
  · split
    · exact h
    · refine h.ite ?_
      split
      · exact h.menderError
      · dsimp only
        split
        · exact h.resumeSkein
        · exact h.resumeSkein.setSkein.recheckPops

theorem State.memOk.restoreBlock {s : State} (h : s.memOk) {c : Context} {b : Block} (hb : Memory.wf b.cells = true) {core : Nat} :
    (s.restoreBlock c b core).memOk := by
  have h1 := h.reloadBays (ctx := c.id) (cl := b.cluster) (bs := b.bays)
  unfold State.restoreBlock
  split
  · next e => rw [e] at h1; exact State.memOk.endContext h1
  · next t bays e =>
    rw [e] at h1
    have ht : t.memOk := h1
    extract_lets slots b1 mine id move rename u v w x y
    have hu : u.memOk := ⟨ht.mem, ht.blocks.append fun a ha => by rw [List.mem_singleton.mp ha]; exact hb, ht.clusters, ht.ctxs⟩
    have hv : v.memOk := hu
    have hw : w.memOk := hv.modCluster
    have hx : x.memOk := hw.modCore
    have hy : y.memOk := hx.foldl fun _ k hz => hz.foldl fun _ _ ha => ha.requeue
    exact hy.foldl fun _ _ hz => hz.restart

theorem State.memOk.restoreBlocks {s : State} (h : s.memOk) {id cl : Nat} {bs : List Block} (hbs : BlocksOk bs) :
    (s.restoreBlocks id cl bs).1.memOk := by
  induction bs generalizing s with
  | nil => exact h
  | cons b bs ih =>
    have hb : Memory.wf b.cells = true := hbs b (List.mem_cons_self ..)
    have hrest : BlocksOk bs := fun a ha => hbs a (List.mem_cons_of_mem _ ha)
    unfold State.restoreBlocks
    split
    · extract_lets shape
      split
      · exact ih (h.restoreBlock hb) hrest
      · exact ih h hrest
    · exact ih h hrest

theorem execContextResume_lands {ctx cl : Nat} {s : State} (h : s.memOk) : Lands (execContextResume ctx cl s) := by
  refine lands_next ?_
  split
  · exact h
  · next c hc =>
    refine h.ite ?_
    extract_lets bs r back phase done t
    have hr : r.1.memOk := h.restoreBlocks (BlocksOk.filter (h.ctx hc))
    have ht : t.memOk := by
      unfold t
      fun_cases State.modCtx r.1 ctx done
      · exact hr
      · next d hd =>
        refine hr.setCtx ?_
        unfold done
        split
        · exact hr.ctx hd
        · exact BlocksOk.filter (hr.ctx hd)
    exact State.memOk.ite ht ht

/-! ## Dropped blocks (R371) -/

theorem State.memOk.stopNow {s : State} (h : s.memOk) {sid : Nat} : (s.stopNow sid).memOk := by
  unfold State.stopNow
  split
  · exact h
  · exact h.ite h.stopHere

theorem execBlockDrop_lands {grid blk : Nat} {s : State} (h : s.memOk) : Lands (execBlockDrop grid blk s) := by
  refine lands_next ?_
  split
  · next b g _ _ =>
    refine h.ite ?_
    extract_lets mine t u v
    have ht : t.memOk := h.foldl fun _ _ hx => hx.stopNow
    have hu : u.memOk := ⟨ht.mem, ht.blocks.mapIf fun _ hb => hb, ht.clusters, ht.ctxs⟩
    have hv : v.memOk := hu.freeBlock.setGrid
    refine hu.ite (hv.ite ?_)
    split
    · exact hv
    · next c hc => exact (hv.save (hv.ctx hc)).ite hv
  · exact h

end Sys2Proof.Machine
end

section
/-! SUPPORT. The boot sequence leaves canonical memories (R430). -/

namespace Sys2Proof.Machine

theorem State.memOk.mapShared {s : State} (h : s.memOk) {ctx : Nat} {r : Region} : (s.mapShared ctx r).memOk :=
  h.foldl fun _ _ ht => ht.mapEntry

theorem State.memOk.newContext {s : State} (h : s.memOk) {part tenant : Nat} {mask : OSet} {clusters : List Nat} {vf domain : Option Nat}
    {shared : List Region} {x : Nat × State} (e : s.newContext part tenant mask clusters vf domain shared = some x) : x.2.memOk := by
  obtain ⟨f, _, rfl⟩ := Option.map_eq_some_iff.mp e
  refine State.memOk.foldl ?_ fun _ _ ht => ht.mapShared
  refine ⟨cellsClear_wf _ _ h.mem, h.blocks, h.clusters, fun c hc => ?_⟩
  rcases List.mem_append.mp hc with hc | hc
  · exact h.ctxs c hc
  · rw [List.mem_singleton.mp hc]
    intro b hb
    cases hb

theorem State.memOk.bootContext {s : State} (h : s.memOk) {ports : List Nat} {c : CtxConfig} : (s.bootContext ports c).memOk := by
  unfold State.bootContext
  extract_lets cls host bind
  have hbind : ∀ v f t, bind = some (v, f, t) → t.memOk := by
    intro v f t hb
    obtain ⟨w, _, hw⟩ := Option.bind_eq_some_iff.mp hb
    split at hw
    · cases hw
    · obtain ⟨y, hy, e⟩ := Option.map_eq_some_iff.mp hw
      cases e
      exact h.freeFrames hy
  generalize bind = b at hbind
  split
  · cases e : s.newContext c.part c.tenant c.readMask cls none c.domain host with
    | none => exact h
    | some x => exact h.newContext e
  · next v f t =>
    have ht : t.memOk := hbind v f t rfl
    extract_lets win
    cases e : t.newContext c.part c.tenant c.readMask cls (some v.id) c.domain (win ++ host) with
    | none => exact h
    | some x => exact State.memOk.newContext ht e

/-- Clusters as they come up have no window. -/
theorem ClustersOk.boot {cfg : BootConfig} {free : Nat} : ClustersOk (bootClusters cfg free) := by
  intro c hc
  obtain ⟨n, _, rfl⟩ := List.mem_map.mp hc
  intro w hw
  cases hw

theorem ClustersOk.reset : ClustersOk State.reset.clusters := by
  intro c hc
  obtain ⟨_, rfl⟩ := List.mem_replicate.mp hc
  intro w hw
  cases hw


theorem State.reset_memOk : State.reset.memOk := ⟨rfl, List.forall_mem_nil _, ClustersOk.reset, List.forall_mem_nil _⟩

theorem State.memOk.boot {s : State} {cfg : BootConfig} : (s.boot cfg).memOk := by
  unfold State.boot
  extract_lets base dies hbm src parts t u
  have hbase : base.memOk := State.reset_memOk
  have ht : t.memOk := ⟨rfl, List.forall_mem_nil _, ClustersOk.boot, List.forall_mem_nil _⟩
  have hu : u.memOk := ht.foldl fun _ _ hx => hx.bootContext
  refine State.memOk.ite ?_ (State.memOk.ite ?_ (State.memOk.ite ?_ ?_))
  · exact hbase
  · exact hbase
  · exact ⟨rfl, List.forall_mem_nil _, ClustersOk.boot, List.forall_mem_nil _⟩
  · exact State.memOk.refreshFlags (by exact hu)

theorem execModuleReset_lands {cfg : BootConfig} {s : State} : Lands (execModuleReset cfg s) := lands_next State.memOk.boot

end Sys2Proof.Machine
end

section
/-! SUPPORT. Hosts, the processor chiplet, submissions and loads keep the memories canonical (R387 to R400, R423). -/

namespace Sys2Proof.Machine

/-! ## Requests (R390 to R393) -/

/-- A state, if there is one, is canonical. -/
def MaybeOk : Option State → Prop
  | some t => t.memOk
  | none => True

theorem MaybeOk.ite {x y : Option State} {c : Prop} [Decidable c] (hx : MaybeOk x) (hy : MaybeOk y) : MaybeOk (if c then x else y) := by
  split
  · exact hx
  · exact hy

theorem MaybeOk.of_some {o : Option State} (h : MaybeOk o) {t : State} (e : o = some t) : t.memOk := by
  rw [e] at h
  exact h

theorem MaybeOk.getD {o : Option State} (ho : MaybeOk o) {s : State} (h : s.memOk) : (o.getD s).memOk := by
  cases o with
  | none => exact h
  | some t => exact ho

theorem execQueueNotify_lands {vf q : Nat} {chains : List Chain} {s : State} (h : s.memOk) : Lands (execQueueNotify vf q chains s) := by
  refine lands_next ?_
  split
  · exact h
  · exact h.ite (h.setVf.ite (h.setVf.ite h))

theorem request_lands {want : Option Nat} {vf : Nat} {s : State} {body : State → VF → Context → Nat → Chain → Option State} (h : s.memOk)
    (hb : ∀ t v x n c, t.memOk → BlocksOk x.savedBlocks → MaybeOk (body t v x n c)) : Lands (request want vf s body) := by
  refine lands_next ?_
  split
  · exact h
  · split
    · next hx =>
      refine h.ite ?_
      dsimp only
      split
      · exact (State.memOk.respond h.setVf).ite h
      · exact (hb _ _ _ _ _ h.setVf (h.ctx hx)).getD h
    · exact h

theorem State.memOk.submitDesc {s : State} (h : s.memOk) {v : VF} {x : Context} {n pa : Nat} : (s.submitDesc v x n pa).memOk := by
  unfold State.submitDesc
  refine h.respond.endContext.ite ?_
  split
  · exact State.memOk.endContext (State.memOk.respond h.outsideError)
  · split
    · exact h.modPart.respond
    · exact h.accept.refreshFlags

theorem execSubmit_lands {vf : Nat} {s : State} (h : s.memOk) : Lands (execSubmit vf s) := by
  refine request_lands h fun t v x n c ht _ => ?_
  dsimp only
  split
  · exact ht.respond
  · exact MaybeOk.ite ht.respond (MaybeOk.ite trivial ht.submitDesc)

theorem State.memOk.ioGrow {s : State} (h : s.memOk) {ps : List (Nat × Nat)} : (s.ioGrow ps).memOk := h

theorem execMapReq_lands {vf : Nat} {s : State} (h : s.memOk) : Lands (execMapReq vf s) := by
  refine request_lands h fun t v x n c ht hx => ?_
  dsimp only
  split
  · exact ht.respond
  · refine MaybeOk.ite trivial (MaybeOk.ite ht.respond ?_)
    refine State.memOk.respond (State.memOk.mapRange (State.memOk.setCtx ht.ioGrow ?_))
    exact hx

theorem execUnmapReq_lands {vf : Nat} {s : State} (h : s.memOk) : Lands (execUnmapReq vf s) := by
  refine request_lands h fun t v x n c ht _ => ?_
  dsimp only
  split
  · exact ht.respond
  · exact MaybeOk.ite trivial ht.removeRange.modCtx.respond

theorem execUireg_lands {vf : Nat} {s : State} (h : s.memOk) : Lands (execUireg vf s) := by
  refine request_lands h fun t v x n c ht _ => ?_
  dsimp only
  split
  · exact ht.respond
  · have hn := ht.freshNum (used := t.uints.map (·.handle)) (n := 2 ^ 32)
    generalize t.freshNum (t.uints.map (·.handle)) (2 ^ 32) = m at hn ⊢
    exact State.memOk.respond (by exact hn)

theorem execUiunreg_lands {vf : Nat} {s : State} (h : s.memOk) : Lands (execUiunreg vf s) := by
  refine request_lands h fun t v x n c ht _ => ?_
  dsimp only
  split
  · exact ht.respond
  · exact State.memOk.respond (by exact ht)

theorem execInvalidRequest_lands {vf : Nat} {s : State} (h : s.memOk) : Lands (execInvalidRequest vf s) :=
  request_lands h fun _ _ _ _ _ ht _ => ht.respond

/-! ## Resets (R399) -/

theorem State.memOk.freshWindow {s : State} (h : s.memOk) {v : VF} {rs : List Region} : (s.freshWindow v rs).1.memOk := by
  unfold State.freshWindow
  extract_lets win base hit
  split
  · next e =>
    split at e
    · exact h.freeFrames e
    · cases e
  · exact h

theorem State.memOk.resetVf {s : State} (h : s.memOk) {vf : Nat} : (s.resetVf vf).memOk := by
  unfold State.resetVf
  split
  · exact h
  · next v _ =>
    split
    · exact h
    · next c _ =>
      extract_lets t1 t2 t3 t4 t5 t6 fail mine t7 t8 w r u
      have h2 : t2.memOk := h
      have h6 : t6.memOk := h2.endContext.retireBaskets.modCtx.quarantine
      have h7 : t7.memOk := h6
      have hw : w.1.memOk := State.memOk.freshWindow (h7.foldl fun _ _ ht => ht.leaveHem)
      have hr : r.2.memOk := by
        unfold r
        cases e : w.1.newContext c.part c.tenant c.readMask c.clusters c.vf c.domain w.2.2 with
        | none => exact hw
        | some x => exact hw.newContext e
      exact State.memOk.refreshFlags hr.setVf

theorem State.memOk.askReset {s : State} (h : s.memOk) {vf : Nat} : (s.askReset vf).memOk := h.ite h.resetVf

theorem execFunctionLevelReset_lands {vf : Nat} {s : State} (h : s.memOk) : Lands (execFunctionLevelReset vf s) := lands_next h.askReset

theorem execVirtioStatusReset_lands {vf : Nat} {s : State} (h : s.memOk) : Lands (execVirtioStatusReset vf s) := lands_next h.askReset

theorem execCommonConfigurationWrite_lands {vf : Nat} {pos : RegAt} {data : BitVec 64} {s : State} (h : s.memOk) :
    Lands (execCommonConfigurationWrite vf pos data s) := by
  refine lands_next ?_
  split
  · exact h
  · exact h.askReset.ite h.setVf

/-! ## Accesses of outside agents (R387, R388, R390, R423) -/

theorem State.memOk.refuseRead {s : State} (h : s.memOk) {core piece : Nat} : (s.refuseRead core piece).memOk := by
  have ht : ({ s with coreRead := s.coreRead ++ [(core, none)] } : State).memOk := h
  unfold State.refuseRead
  dsimp only
  split
  · exact ht
  · exact ht.modPart

theorem State.memOk.appWrite {s : State} (h : s.memOk) {core pa : Nat} {bs : List Byte} : (s.appWrite core pa bs).memOk :=
  State.memOk.pokes (l := locG pa) (bs := bs) h

theorem State.memOk.appPerform {s : State} (h : s.memOk) {core pa : Nat} {op : AppOp} : (s.appPerform core pa op).memOk := by
  unfold State.appPerform
  extract_lets old seen put others
  have seen_ok (t : State) (bs : List Byte) (ht : t.memOk) : (seen t bs).memOk := ht
  have put_ok (bs : List Byte) : (put s bs).memOk := h.appWrite
  split
  · exact State.memOk.outsideError h
  · cases op with
    | load n => exact h
    | store bs => exact put_ok bs
    | fence a b => exact h
    | schedule a b => exact h
    | amo op n x aq rl => exact seen_ok _ _ (put_ok _)
    | amocas n e x aq rl => exact seen_ok _ _ ((put_ok _).ite h)
    | lr n aq rl => exact h
    | sc bs aq rl =>
      have ht : ({ s with reserves := others, free := s.free + 1 } : State).memOk := h
      exact seen_ok _ _ (ht.pokes.ite ht)

theorem State.memOk.deviceAccess {s : State} (h : s.memOk) {dom core pa : Nat} {op : AppOp} : MaybeOk (s.deviceAccess dom core pa op) := by
  unfold State.deviceAccess
  extract_lets n reads grant ps ok
  split
  · exact h.refuseRead.ite h
  · exact MaybeOk.ite trivial h.appPerform

theorem State.memOk.readOut {s : State} (h : s.memOk) {vf bar : Nat} {bs : Option (List Byte)} : (s.readOut vf bar bs).memOk := h

theorem State.memOk.windowRead {s : State} (h : s.memOk) {vf len : Nat} {pos : BarAt} : MaybeOk (s.windowRead vf pos len) := by
  unfold State.windowRead
  extract_lets bytes
  split
  · exact State.memOk.ite h.readOut h
  · dsimp only
    split
    · exact State.memOk.readOut (h.setVf.ite h)
    · refine MaybeOk.ite h (MaybeOk.ite trivial (MaybeOk.ite h.readOut ?_))
      show State.memOk _
      split
      · exact State.memOk.readOut h.outsideError
      · exact h.readOut
    · exact h.readOut
    · exact h

theorem State.memOk.outside {s : State} (h : s.memOk) {a : Outside} : MaybeOk (s.outside a) := by
  cases a with
  | app core pa op => exact MaybeOk.ite trivial h.appPerform
  | device dom core pa op => exact h.deviceAccess
  | window vf pos len => exact h.windowRead
  | received g b n l data =>
    show MaybeOk (s.receiveHeld (g, b, n, l) data)
    cases e : s.receiveHeld (g, b, n, l) data with
    | none => trivial
    | some t => exact h.receiveHeld e

theorem State.memOk.offerOutside {s : State} (h : s.memOk) {a : Outside} : (s.offerOutside a).memOk :=
  State.memOk.ite (by exact h) (h.outside.getD (by exact h))

theorem State.memOk.settleOutside {s : State} (h : s.memOk) : s.settleOutside.memOk := by
  have ht : ({ s with heldOutside := [] } : State).memOk := h
  exact ht.foldl fun _ _ hu => hu.offerOutside

theorem execMemoryWindowRead_lands {vf len : Nat} {pos : BarAt} {s : State} (h : s.memOk) : Lands (execMemoryWindowRead vf pos len s) :=
  lands_next h.offerOutside

theorem execChipletDeviceAccess_lands {dom core pa : Nat} {op : AppOp} {s : State} (h : s.memOk) :
    Lands (execChipletDeviceAccess dom core pa op s) := lands_next (h.ite h.offerOutside)

theorem execDevicePageGrant_lands {ctx va dom : Nat} {s : State} (h : s.memOk) : Lands (execDevicePageGrant ctx va dom s) := by
  refine lands_next ?_
  split
  · exact h
  · next e =>
    have ht := h.svcPiece e
    exact State.memOk.ite ht (by exact ht)

theorem execApplicationCoreAccess_lands {core pa : Nat} {op : AppOp} {s : State} (h : s.memOk) :
    Lands (execApplicationCoreAccess core pa op s) := by
  refine lands_next (h.ite ?_)
  cases op with
  | schedule token on => exact h
  | fence a b => exact h
  | load _ => exact h.ite h.offerOutside
  | store _ => exact h.ite h.offerOutside
  | amo _ _ _ _ _ => exact h.ite h.offerOutside
  | amocas _ _ _ _ _ => exact h.ite h.offerOutside
  | lr _ _ _ => exact h.ite h.offerOutside
  | sc _ _ _ => exact h.ite h.offerOutside

/-! ## Finwesin's own submissions and loads (R50, R55, R328, R365) -/

theorem execFinwesinSubmission_lands {ctx : Nat} {desc : List (BitVec 8)} {s : State} (h : s.memOk) :
    Lands (execFinwesinSubmission ctx desc s) := by
  refine lands_next ?_
  split
  · exact h
  · refine h.ite ?_
    split
    · exact h
    · exact h.accept.refreshFlags

theorem State.memOk.loadSection {s : State} (h : s.memOk) {ctx va : Nat} {bytes : List Byte} {set : OSet} {perm : Nat} :
    MaybeOk (s.loadSection ctx va bytes set perm) := by
  unfold State.loadSection
  refine MaybeOk.ite h ?_
  split
  · trivial
  · next c hc =>
    extract_lets len
    split
    · next oidx f t _ e =>
      have ht := h.freeFrames e
      have hw : ({ t with mem := cellsWrite t.mem (f * 2 ^ 16) bytes } : State).memOk :=
        ⟨cellsWrite_wf _ _ ht.mem, ht.blocks, ht.clusters, ht.ctxs⟩
      have hd := h.ctx hc
      refine MaybeOk.ite trivial (State.memOk.mapRange (hw.setCtx ?_))
      exact hd
    · trivial

theorem execCodeObjectLoad_lands {ctx : Nat} {obj : ObjImage} {s : State} (h : s.memOk) : Lands (execCodeObjectLoad ctx obj s) := by
  have key (l : List ((Nat × List Byte) × OSet × Nat)) (o : Option State) (ho : MaybeOk o) :
      MaybeOk (l.foldl (fun (t : Option State) x => t.bind fun t => t.loadSection ctx x.1.1 x.1.2 x.2.1 x.2.2) o) := by
    induction l generalizing o with
    | nil => exact ho
    | cons x l ih =>
      refine ih _ ?_
      cases o with
      | none => trivial
      | some t => exact State.memOk.loadSection ho
  refine lands_next ?_
  split
  · exact h
  · extract_lets own at0 parts t
    have ht : MaybeOk t := key parts (some s) h
    generalize t = u at ht
    refine h.ite ?_
    split
    · exact h
    · exact State.memOk.modCtx ht

end Sys2Proof.Machine
end

section
/-! SUPPORT. The end of a cycle, atomics and hint words keep the memories canonical (R208 to R211, R342). -/

namespace Sys2Proof.Machine

/-! ## The end of a cycle (R342, R432) -/

theorem State.memOk.evict {s : State} (h : s.memOk) : s.evict.memOk :=
  State.memOk.foldl (f := fun t (x : Nat × Nat) => t.pdrop x.1 x.2) h fun _ _ ht => ht.pdrop

theorem State.memOk.settleNvme {s : State} (h : s.memOk) : s.settleNvme.memOk := by
  refine h.foldl fun t c ht => ?_
  have hb := ht.takeBit
  dsimp only
  split
  · split
    · exact hb.endReset
    · exact hb
  · split
    · exact hb.abortLate
    · exact ht

theorem State.memOk.settleBins {s : State} (h : s.memOk) {cl : Nat} : (s.settleBins cl).memOk := h.foldl fun _ _ ht => ht.binTimer

theorem State.memOk.settle {s : State} (h : s.memOk) : s.settle.memOk := by
  unfold State.settle
  extract_lets slots t1 t2 t3 t4 t5 t6 t7
  have h1 : t1.memOk := h.foldl fun _ _ ht => ht.settleBasket
  have h2 : t2.memOk := h1.foldl fun _ _ ht => ht.returnClaims
  have h3 : t3.memOk := h2.ite h2.performPosted
  have h4 : t4.memOk := h3.foldl fun _ _ ht => ht.settleBins
  have h5 : t5.memOk := h4.settleNvme
  have h6 : t6.memOk := h5.ite h5.performInbound
  have h7 : t7.memOk := h6.settleOutside
  exact h7.foldl fun _ _ ht => ht.cutGrids

theorem State.memOk.tick {s : State} (h : s.memOk) {gated : Bool} : (s.tick gated).memOk := by
  have ht := h.settle.evict
  unfold State.tick
  generalize s.settle.evict = u at ht ⊢
  exact ⟨ht.mem, ht.blocks, ht.clusters.mapIdx fun _ _ hc => hc, ht.ctxs⟩

/-! ## Atomics (R208 to R211) -/

theorem State.memOk.atomWrite {s : State} (h : s.memOk) {core type : Nat} {l : Loc} {bytes : List Byte} :
    (s.atomWrite core l type bytes).memOk := by
  unfold State.atomWrite
  split
  · exact h.pokes.ite h.storeBytes
  · exact h.pokes
  · exact h.pokes

theorem State.memOk.atomics {s : State} (h : s.memOk) {core n : Nat} {new : Nat → Nat → Nat} {as : List LaneAcc} :
    (s.atomics core n new as).1.memOk := by
  fun_induction State.atomics s core n new as
  case case1 => exact h
  case case2 ih => exact ih h
  case case3 ih => exact ih h.atomWrite

theorem atomType_ok {i : Iss} {op : AtomOp} {a : AtomF} {as : List LaneAcc} : ResOk (fun _ => True) (i.atomType op a as) :=
  ResOk.ite trivial trivial

theorem Iss.memOk.dropCopies {i : Iss} (h : i.memOk) {as : List LaneAcc} : (i.dropCopies as).memOk :=
  State.memOk.foldl h fun _ _ ht => ht.pdrop.modCore

theorem Iss.memOk.atomPcie {i : Iss} (h : i.memOk) {as : List LaneAcc} : ResOk Iss.memOk (i.atomPcie as) := by
  refine ResOk.ite h (h.timely.bind fun _ _ => ?_)
  split
  · exact h.dropCopies
  · exact ResOk.ite h.consume trivial

theorem atomic_lands {x : Instr} {op : AtomOp} {a : AtomF} {s : State} (h : s.memOk) : Lands (atomic x op a s) := by
  refine issue_lands h fun _ hx => hx.operands.bind fun y hy => ResOk.ite hy <| aligned_ok.bind fun _ _ => map_ok.bind fun as _ =>
    atomType_ok.bind fun _ _ => origin_ok.bind fun _ _ => hold_ok.bind fun _ _ => hy.sound.bind fun _ _ => ?_
  have rest (z : Iss) (hz : z.memOk) : ResOk State.memOk (do
      let i ← z.flush (as.flatMap LaneAcc.locs)
      let i ← i.atomPcie as
      let r := i.s.atomics i.k.coreId (a.bits / 8) (fun l m => op.new a.bits m (i.raw l (8 * a.g.toNat) (a.bits / 4)) (i.raw l (8 * a.g.toNat + a.bits / 4) (a.bits / 4)))
        (shuffle 32 i.s.free as)
      let k := if a.comm then i.k
        else i.wrLate (i.h.look a.la) (8 * a.g.toNat) (a.bits / 4) (fun l => (r.2.find? (·.1 == l)).elim 0 (·.2)) (i.rset ||| accSet as) []
      let t := { r.1 with free := r.1.free + 32 }.setSkein (if a.space == Space.g then k.touch (y.active.map fun l => (l, y.ea a.n l, a.bits / 8)) else k)
      .ok (if a.acquires then t.acquire i.k.id a.scope else t)) := by
    refine hz.flush.bind fun u hu => hu.atomPcie.bind fun v hv => ?_
    have ht : ∀ {n l f}, (v.s.atomics v.k.coreId n f l).1.memOk := State.memOk.atomics hv
    exact State.memOk.ite (State.memOk.acquire (State.memOk.setSkein (by exact ht))) (State.memOk.setSkein (by exact ht))
  dsimp only
  split
  · exact hy.release.bind fun z hz => rest z hz
  · exact rest y hy

/-! ## Hint words and words that are no row (R69 to R79, R86) -/

theorem hintWord_lands {s : State} {kind : Nat} {ok : Bool} {put : Hints → Hints} (h : s.memOk) : Lands (hintWord s kind ok put) := by
  intro t e
  unfold hintWord at e
  split at e
  · cases e
  · cases e
    exact h.setSkein

theorem execXimm_lands {v : BitVec 23} {s : State} (h : s.memOk) : Lands (execXimm v s) := hintWord_lands h

theorem execOffs_lands {v : BitVec 23} {s : State} (h : s.memOk) : Lands (execOffs v s) := hintWord_lands h

theorem execPerm_lands {v : BitVec 16} {s : State} (h : s.memOk) : Lands (execPerm v s) := hintWord_lands h

theorem execMixw_lands {v : BitVec 9} {s : State} (h : s.memOk) : Lands (execMixw v s) := hintWord_lands h

theorem execLka_lands {v : BitVec 6} {s : State} (h : s.memOk) : Lands (execLka v s) := hintWord_lands h

theorem execIllegalInstruction_lands {word : BitVec 32} {s : State} (h : s.memOk) : Lands (execIllegalInstruction word s) := by
  unfold execIllegalInstruction
  split
  · exact hintWord_lands h
  · exact issue_lands h fun _ _ => trap_ok

end Sys2Proof.Machine
end

section
/-! SUPPORT. Management commands, power, failures and SPILL and FILL keep the memories canonical. -/

namespace Sys2Proof.Machine

/-! ## The mailbox (R438, R439) -/

/-- The state of a reply is canonical. -/
def Reply.memOk (r : Reply) : Prop := r.s.memOk

theorem Reply.memOk.ite {x y : Reply} {c : Prop} [Decidable c] (hx : x.memOk) (hy : y.memOk) : (if c then x else y).memOk := by
  split
  · exact hx
  · exact hy

theorem State.memOk.reply {s : State} (h : s.memOk) {status : BitVec 16} : (s.reply status).memOk := h

theorem State.memOk.replyWith {s : State} (h : s.memOk) {bs : List Byte} : (s.replyWith bs).memOk := h

theorem State.memOk.ring {s : State} (h : s.memOk) {t : Ticket} {cmd len : Nat} {operand : List Byte} :
    (s.ring t cmd len operand).memOk := h

theorem command_lands {cmd len : Nat} {operand : List Byte} {t : Ticket} {s : State} {f : State → State} (h : s.memOk)
    (hf : ∀ u : State, u.memOk → (f u).memOk) : Lands (command cmd len operand t s f) :=
  lands_next (State.memOk.ite (hf s h) (h.ite (hf _ h.ring)))

theorem serveNow_lands {cmd len : Nat} {operand : List Byte} {t : Ticket} {s : State} {f : State → Reply} (h : s.memOk)
    (hf : ∀ u : State, u.memOk → (f u).memOk) : Lands (serveNow cmd len operand t s f) :=
  command_lands h fun u hu => State.memOk.answerMgmt (hf u hu)

/-! ## Drain and resume (R340, R341) -/

theorem State.memOk.drainReq {s : State} (h : s.memOk) {part : Nat} {cut : Bool} : (s.drainReq part cut).memOk := by
  unfold State.drainReq
  extract_lets t
  have ht : t.memOk := State.memOk.ite (by exact h) h.modPart
  exact State.memOk.refreshFlags (ht.foldl fun _ _ hu => hu.cutGrids)

theorem State.memOk.resumeReq {s : State} (h : s.memOk) {part : Nat} : (s.resumeReq part).memOk :=
  State.memOk.refreshFlags (State.memOk.ite (by exact h) h.modPart)

theorem execDrain_lands {part flags : BitVec 8} {tag : Ticket} {s : State} (h : s.memOk) : Lands (execDrain part flags tag s) := by
  refine command_lands h fun u hu => ?_
  extract_lets held
  have hh : held.memOk := hu.ite (by exact hu)
  exact State.memOk.ite hh.drainReq.finishDrain hu.answerMgmt

theorem execResume_lands {part flags : BitVec 8} {tag : Ticket} {s : State} (h : s.memOk) : Lands (execResume part flags tag s) :=
  serveNow_lands h fun _ hu => Reply.memOk.ite hu.resumeReq hu

/-! ## HOLD and the debugger's attach (R346, R374) -/

theorem execReleaseHold_lands {grid : Nat} {tag : Ticket} {s : State} (h : s.memOk) : Lands (execReleaseHold grid tag s) := by
  refine serveNow_lands h fun u hu => ?_
  split
  · exact hu
  · next c hc =>
    have ht := hu.soundRegions (rs := c.regions)
    have hv : ((u.soundRegions c.regions).setCtx { c with regions := [], gids := [] }).memOk :=
      ht.setCtx (hu.ctxs c (List.mem_of_find?_eq_some hc))
    exact ⟨hv.mem, hv.blocks, hv.clusters.map fun _ hw => hw.filter, hv.ctxs⟩

theorem State.memOk.ctxOfGrid {s : State} (h : s.memOk) {grid : Nat} {c : Context} (e : s.ctxOfGrid grid = some c) :
    BlocksOk c.savedBlocks := by
  obtain ⟨g, _, hg⟩ := Option.bind_eq_some_iff.mp e
  exact h.ctx hg

theorem execAttach_lands {grid : Nat} {tag : Ticket} {s : State} (h : s.memOk) : Lands (execAttach grid tag s) := by
  refine serveNow_lands h fun u hu => ?_
  split
  · exact hu
  · next e =>
    have hc := hu.ctxOfGrid e
    exact State.memOk.setCtx hu (by exact hc)

theorem State.memOk.modEvery {s : State} (h : s.memOk) {f : Skein → Skein} : (s.modEvery f).memOk :=
  ⟨h.mem, h.blocks, h.clusters, h.ctxs.map fun _ hc => hc⟩

theorem State.memOk.dbgRelease {s : State} (h : s.memOk) {mine : Skein → Bool} : (s.dbgRelease mine).memOk :=
  State.memOk.foldl h.modEvery fun _ _ ht => ht.resume

theorem execDetach_lands {grid : Nat} {tag : Ticket} {s : State} (h : s.memOk) : Lands (execDetach grid tag s) := by
  refine serveNow_lands h fun u hu => ?_
  split
  · exact hu
  · next c e =>
    have hc := hu.ctxOfGrid e
    have ht : (u.setCtx { c with dbg := none }).memOk := hu.setCtx hc
    exact State.memOk.dbgRelease (by exact ht)

/-! ## Policies, attestation and the cap (R406, R410, R431) -/

theorem State.memOk.refusePolicy {s : State} (h : s.memOk) {why : Nat × Nat} : (s.refusePolicy why).memOk := h

theorem State.memOk.judgePolicy {s : State} (h : s.memOk) {all : List Byte} : (s.judgePolicy all).memOk := by
  unfold State.judgePolicy
  dsimp only
  split
  · exact h
  · split
    · split
      · exact h
      · exact h.modPart
    · split
      · exact h
      · exact h.modPart

theorem execPolicy_lands {total off : Nat} {bytes : List (BitVec 8)} {tag : Ticket} {s : State} (h : s.memOk) :
    Lands (execPolicy total off bytes tag s) := by
  refine serveNow_lands h fun u hu => ?_
  have hn : ({ u with policyParts := none } : State).memOk := hu
  exact Reply.memOk.ite hn (Reply.memOk.ite hn.judgePolicy hu)

theorem execAttest_lands {nonce : List (BitVec 8)} {part off : Nat} {tag : Ticket} {s : State} (h : s.memOk) :
    Lands (execAttest nonce part off tag s) := by
  refine serveNow_lands h fun u hu => ?_
  refine Reply.memOk.ite hu ?_
  dsimp only
  split
  · exact hu
  · split
    · exact hu
    · exact Reply.memOk.ite hu hu

theorem execCap_lands {watts : Nat} {tag : Ticket} {s : State} (h : s.memOk) : Lands (execCap watts tag s) :=
  serveNow_lands h fun _ hu => Reply.memOk.ite (by exact hu) hu

theorem execInvalidCommand_lands {cmd : BitVec 32} {len : Nat} {tag : Ticket} {s : State} (h : s.memOk) :
    Lands (execInvalidCommand cmd len tag s) := serveNow_lands h fun _ hu => hu

/-! ## The debugger (R374, R440) -/

theorem execDbgEvent_lands {tag : Ticket} {s : State} (h : s.memOk) : Lands (execDbgEvent tag s) := by
  refine serveNow_lands h fun u hu => ?_
  split
  · exact hu
  · exact State.memOk.modStopped (by exact hu)

theorem execDbgRead_lands {item : DbgItem} {tag : Ticket} {s : State} (h : s.memOk) : Lands (execDbgRead item tag s) := by
  refine serveNow_lands h fun u hu => ?_
  split
  · exact hu
  · split
    · exact hu
    · exact Reply.memOk.ite hu (Reply.memOk.ite hu.countError hu)

theorem execDbgWrite_lands {item : DbgItem} {data : List (BitVec 8)} {tag : Ticket} {s : State} (h : s.memOk) :
    Lands (execDbgWrite item data tag s) := by
  refine serveNow_lands h fun u hu => ?_
  split
  · exact hu
  · split
    · exact hu
    · exact hu.modEvery

theorem execDbgResume_lands {item : DbgItem} {tag : Ticket} {s : State} (h : s.memOk) : Lands (execDbgResume item tag s) := by
  refine serveNow_lands h fun u hu => ?_
  split
  · exact hu
  · exact hu.dbgRelease

/-! ## Writes to BAR4 and the inventory window (R433 to R437, R439) -/

theorem runCommand_lands {i : Instr} {s : State} (h : s.memOk) : Lands (runCommand i s) := by
  unfold runCommand
  split
  · exact execDrain_lands h
  · exact execResume_lands h
  · exact execReleaseHold_lands h
  · exact execAttach_lands h
  · exact execDetach_lands h
  · exact execPolicy_lands h
  · exact execAttest_lands h
  · exact execCap_lands h
  · exact execDbgEvent_lands h
  · exact execDbgRead_lands h
  · exact execDbgWrite_lands h
  · exact execDbgResume_lands h
  · exact execInvalidCommand_lands h
  · exact lands_next h

theorem execDiscardedWrite_lands {pos : PortAt} {data : BitVec 64} {s : State} (h : s.memOk) : Lands (execDiscardedWrite pos data s) := by
  unfold execDiscardedWrite
  split
  · exact lands_next h
  · split
    · exact lands_next h
    · extract_lets w src n t
      have ht : t.memOk := h
      split
      · exact runCommand_lands ht
      · exact lands_next ht

theorem State.memOk.measure {s : State} (h : s.memOk) : s.measure.memOk := by
  unfold State.measure
  extract_lets w t
  have ht : t.memOk := h
  exact ht.ite (by exact ht)

theorem execInventoryRefresh_lands {s : State} (h : s.memOk) : Lands (execInventoryRefresh s) := by
  have hm := h.measure
  exact lands_next (State.memOk.ite (by exact h) (by exact hm))

/-! ## Power, temperature, FREEZE and the test port (R375, R432) -/

theorem execPowerCapExceeded_lands {watts : Nat} {s : State} (h : s.memOk) : Lands (execPowerCapExceeded watts s) :=
  lands_next (State.memOk.ite (by exact h) (by exact h))

theorem execThermalThrottle_lands {die temp : Nat} {s : State} (h : s.memOk) : Lands (execThermalThrottle die temp s) :=
  lands_next (State.memOk.ite (by exact h) h.modDie)

theorem execThermalShutdown_lands {die temp : Nat} {s : State} (h : s.memOk) : Lands (execThermalShutdown die temp s) :=
  lands_next (State.memOk.ite (by exact h) h.modDie)

theorem execBackInsideLimits_lands {s : State} (h : s.memOk) : Lands (execBackInsideLimits s) :=
  lands_next (State.memOk.measure (by exact h))

theorem execFreezeAssert_lands {s : State} (h : s.memOk) : Lands (execFreezeAssert s) := lands_next (State.memOk.ite (by exact h) h)

theorem execFreezeRelease_lands {withReset : Bool} {s : State} (h : s.memOk) : Lands (execFreezeRelease withReset s) := by
  refine lands_next (h.ite (State.memOk.ite ?_ (h.ite (by exact h))))
  exact State.reset_memOk

theorem execScansel_lands {chain : BitVec 16} {s : State} (h : s.memOk) : Lands (execScansel chain s) := lands_next (by exact h)

theorem execScanout_lands {s : State} (h : s.memOk) : Lands (execScanout s) :=
  lands_next (State.memOk.ite (by exact h) (by exact h))

theorem execIdcode_lands {s : State} (h : s.memOk) : Lands (execIdcode s) := lands_next (by exact h)

theorem execBypass_lands {s : State} (h : s.memOk) : Lands (execBypass s) := lands_next (by exact h)

/-! ## Failures (R347, R386, R397) -/

theorem State.memOk.endAll {s : State} (h : s.memOk) {ids : List Nat} {code : BitVec 16} : (s.endAll ids code).memOk :=
  h.foldl fun _ _ ht => ht.endContext

theorem State.memOk.degrade {s : State} (h : s.memOk) : s.degrade.memOk := State.memOk.refreshFlags (State.memOk.ite (by exact h) h)

theorem execSeamFailure_lands {seam : Nat} {inFlight : List Nat} {s : State} (h : s.memOk) : Lands (execSeamFailure seam inFlight s) := by
  unfold execSeamFailure
  extract_lets up lost t
  have ht : t.memOk := ⟨h.mem, h.blocks, h.clusters.mapIdx fun _ c hc => by
    split
    · exact hc
    · exact hc, h.ctxs⟩
  exact lands_next ht.degrade.endAll.endAll

theorem execHbmStackOffline_lands {stack : Nat} {s : State} (h : s.memOk) : Lands (execHbmStackOffline stack s) := by
  have ht : ({ s with stacksUp := s.stacksUp &&& ~~~(1#24 <<< stack) } : State).memOk := h
  exact lands_next ht.degrade.endAll

theorem execEngineTimeout_lands {sid : Nat} {s : State} (h : s.memOk) : Lands (execEngineTimeout sid s) := by
  refine lands_next ?_
  split
  · exact h
  · exact h.ite h.endContext

theorem State.memOk.routeEnds {s : State} (h : s.memOk) {k : Skein} {c : Cmd} {code : BitVec 16} : (s.routeEnds k c code).memOk := by
  unfold State.routeEnds
  split
  · exact h.routeAbort
  · exact h.failCmd
  · exact h.failCmd

theorem execRouteFailure_lands {part module : Nat} {s : State} (h : s.memOk) : Lands (execRouteFailure part module s) := by
  refine lands_next (State.memOk.foldl h.modPart fun t x ht => ?_)
  split
  · exact ht
  · exact ht.routeEnds

/-! ## SPILL and FILL (R220, R221) -/

theorem Iss.memOk.spillOperands {i : Iss} (h : i.memOk) {y : Nat} {run : Nat → Opd} : ResOk Iss.memOk (i.spillOperands y run) :=
  h.operands.bind fun _ hj => hj

theorem spillCtl_ok {i : Iss} {y : Nat} : ResOk (fun _ => True) (i.spillCtl y) :=
  ResOk.ite trivial (ResOk.ite trivial (ResOk.ite trivial trivial))

theorem execSpill_lands {x y : BitVec 8} {s : State} (h : s.memOk) : Lands (execSpill x y s) :=
  issue_lands h fun _ hx => hx.spillOperands.bind fun z hz => ResOk.ite hz <| spillCtl_ok.bind fun c _ => by
    dsimp only
    refine map_ok.bind fun _ _ => origin_ok.bind fun _ _ => hold_ok.bind fun _ _ => ?_
    show State.memOk _
    split
    · exact hz.put
    · exact Iss.memOk.put (i := { z with regs := _ }) hz

theorem execFill_lands {x y : BitVec 8} {la : BitVec 4} {s : State} (h : s.memOk) : Lands (execFill x y la s) :=
  issue_lands h fun _ hx => hx.spillOperands.bind fun _ hz => ResOk.ite hz <| spillCtl_ok.bind fun _ _ =>
    map_ok.bind fun _ _ => Iss.memOk.load hz |>.bind fun _ hv => Iss.memOk.put hv

end Sys2Proof.Machine
end

section
/-! SUPPORT. Every instruction keeps every memory in canonical form, and so does every step (R29, R183, R186). -/

namespace Sys2Proof.Machine

/-- What an instruction answers is canonical: a lane instruction by the frame that they share, every other one by its own lemma. -/
theorem exec_lands (i : Instr) {s : State} (h : s.memOk) : Lands (exec i s) := by
  cases hr : laneRow i with
  | some r =>
    rw [exec_of_laneRow hr]
    exact laneOp_lands h
  | none =>
    cases i with
    | add | sub | mul | mulh | mulhu | mad | min | max | minu | maxu | adds | subs | addus | subus | and | or | xor | andn
    | shl | shr | sar | rot | bfx | bfi | cmpeq | cmpne | cmplt | cmple | cmpltu | cmpleu | sel | dot8I4 | dot4I8 | dot2B16
    | addi | andi | ori | xori | shli | shri | sari | cmpeqi | cmplti | mov | not | neg | abs | clz | ctz | popc | brev
    | bswap | fclass | sxt | zxt | sqrt | rcp | rsq | exp2 | log2 | sin | cos | floor | ceil | trunc | rint | cvtFromE4M3
    | cvtFromE5M2 | cvtToE4M3 | cvtToE4M3Sat | cvtToE5M2 | cvtToE5M2Sat | cvt => cases hr
    | movi => exact execMovi_lands h
    | bra => exact execBra_lands h
    | bz | bnz => exact branch_lands h
    | call => exact execCall_lands h
    | split => exact execSplit_lands h
    | launch => exact execLaunch_lands h
    | ret | jmpi | calli => exact transfer_lands h
    | nop => exact execNop_lands h
    | exit => exact execExit_lands h
    | join => exact execJoin_lands h
    | yieldI => exact execYieldI_lands h
    | ldg | lds | ldc => exact loadOp_lands h
    | stg | sts | stc => exact storeOp_lands h
    | aadd | amin | amax | aminu | amaxu | aand | aor | axor | axchg | acas => exact atomic_lands h
    | shfl => exact execShfl_lands h
    | ballot => exact execBallot_lands h
    | eqmask => exact execEqmask_lands h
    | any => exact execAny_lands h
    | all => exact execAll_lands h
    | rds => exact execRds_lands h
    | wrsEm => exact execWrsEm_lands h
    | wrsSw => exact execWrsSw_lands h
    | krd => exact execKrd_lands h
    | kwr => exact execKwr_lands h
    | rdcyc => exact execRdcyc_lands h
    | lblr => exact execLblr_lands h
    | lblq => exact execLblq_lands h
    | bar => exact execBar_lands h
    | bararr => exact execBararr_lands h
    | barwait => exact execBarwait_lands h
    | bardrop => exact execBardrop_lands h
    | sbinit => exact execSbinit_lands h
    | sbarr => exact execSbarr_lands h
    | sbexp => exact execSbexp_lands h
    | sbwait => exact execSbwait_lands h
    | sbdrop => exact execSbdrop_lands h
    | bitwait => exact execBitwait_lands h
    | spawn => exact execSpawn_lands h
    | fence => exact execFence_lands h
    | clean | inval => exact maintainOp_lands h
    | pref | ipref => exact prefetch_lands h
    | icinv => exact execIcinv_lands h
    | stream => exact execStream_lands h
    | streamx => exact execStreamx_lands h
    | spill => exact execSpill_lands h
    | fill => exact execFill_lands h
    | ibar => exact execIbar_lands h
    | syscall => exact execSyscall_lands h
    | trap => exact execTrap_lands h
    | brk => exact execBrk_lands h
    | tack => exact execTack_lands h
    | uint => exact execUint_lands h
    | wcopy => exact execWcopy_lands h
    | wgath => exact execWgath_lands h
    | wscat => exact execWscat_lands h
    | wfill => exact execWfill_lands h
    | wsend => exact execWsend_lands h
    | wcollSumF32 | wcollSumB16 | wcollSumI32 | wcollGather | wcollBcast => exact wcollOp_lands h
    | mbayBay | mbayAcc => exact mbay_lands h
    | mwload => exact execMwload_lands h
    | mma => exact execMma_lands h
    | mdrain => exact execMdrain_lands h
    | mzero => exact execMzero_lands h
    | mfreeBay | mfreeAcc => exact mfree_lands h
    | close => exact execClose_lands h
    | waitb => exact execWaitb_lands h
    | testb => exact execTestb_lands h
    | qpush => exact execQpush_lands h
    | qpop => exact execQpop_lands h
    | qtry => exact execQtry_lands h
    | setfr => exact execSetfr_lands h
    | getfr => exact execGetfr_lands h
    | ximm => exact execXimm_lands h
    | offs => exact execOffs_lands h
    | perm => exact execPerm_lands h
    | mixw => exact execMixw_lands h
    | lka => exact execLka_lands h
    | longLatencyWriteLands => exact execLongLatencyWriteLands_lands h
    | loadDataError => exact execLoadDataError_lands h
    | joinDeadlock => exact execJoinDeadlock_lands h
    | sbwaitPoll => exact execSbwaitPoll_lands h
    | bitwaitPoll => exact execBitwaitPoll_lands h
    | yieldRelease => exact execYieldRelease_lands h
    | spawnBinTimer => exact execSpawnBinTimer_lands h
    | blockRetire => exact execBlockRetire_lands h
    | blockPlacement => exact execBlockPlacement_lands h
    | dependencyPoll => exact execDependencyPoll_lands h
    | streamFetch => exact execStreamFetch_lands h
    | fetchAhead => exact execFetchAhead_lands h
    | instructionFetchFill => exact execInstructionFetchFill_lands h
    | translationParkResolve => exact execTranslationParkResolve_lands h
    | translationInvalidate => exact execTranslationInvalidate_lands h
    | pcieCompletion => exact execPcieCompletion_lands h
    | pcieCompletionTimeout => exact execPcieCompletionTimeout_lands h
    | writebackUndelivered => exact execWritebackUndelivered_lands h
    | pciePostedWrite => exact execPciePostedWrite_lands h
    | chipletDeviceAccess => exact execChipletDeviceAccess_lands h
    | wringerLineWrite => exact execWringerLineWrite_lands h
    | mangleCommandStart => exact execMangleCommandStart_lands h
    | mangleCommandComplete => exact execMangleCommandComplete_lands h
    | waitbReturn => exact execWaitbReturn_lands h
    | wsendRemoteWrite => exact execWsendRemoteWrite_lands h
    | wcollMatch => exact execWcollMatch_lands h
    | sorterSample => exact execSorterSample_lands h
    | timeSliceEnd => exact execTimeSliceEnd_lands h
    | engineDrain => exact execEngineDrain_lands h
    | graceDeadline => exact execGraceDeadline_lands h
    | watchdog => exact execWatchdog_lands h
    | contextResume => exact execContextResume_lands h
    | blockDrop => exact execBlockDrop_lands h
    | skeinResume => exact execSkeinResume_lands h
    | resumeMask => exact execResumeMask_lands h
    | finwesinStopAction => exact execFinwesinStopAction_lands h
    | clusterConfirm => exact execClusterConfirm_lands h
    | timeCall => exact execTimeCall_lands h
    | memAlloc => exact execMemAlloc_lands h
    | memUnmap => exact execMemUnmap_lands h
    | tagWiden => exact execTagWiden_lands h
    | fileOpen => exact execFileOpen_lands h
    | fileRead => exact execFileRead_lands h
    | fileWrite => exact execFileWrite_lands h
    | fileClose => exact execFileClose_lands h
    | sockCreate => exact execSockCreate_lands h
    | sockSend => exact execSockSend_lands h
    | sockRecv => exact execSockRecv_lands h
    | sockClose => exact execSockClose_lands h
    | egress => exact execEgress_lands h
    | basketCreate => exact execBasketCreate_lands h
    | basketDestroy => exact execBasketDestroy_lands h
    | stageRegister => exact execStageRegister_lands h
    | stageRemove => exact execStageRemove_lands h
    | spawnConfig => exact execSpawnConfig_lands h
    | collGroup => exact execCollGroup_lands h
    | uintRegister => exact execUintRegister_lands h
    | uintUnregister => exact execUintUnregister_lands h
    | unlistedCall => exact execUnlistedCall_lands h
    | submit => exact execSubmit_lands h
    | mapReq => exact execMapReq_lands h
    | unmapReq => exact execUnmapReq_lands h
    | uireg => exact execUireg_lands h
    | uiunreg => exact execUiunreg_lands h
    | invalidRequest => exact execInvalidRequest_lands h
    | queueNotify => exact execQueueNotify_lands h
    | functionLevelReset => exact execFunctionLevelReset_lands h
    | virtioStatusReset => exact execVirtioStatusReset_lands h
    | seamFailure => exact execSeamFailure_lands h
    | routeFailure => exact execRouteFailure_lands h
    | nvmeCompletion => exact execNvmeCompletion_lands h
    | nvmeAbortTimeout => exact execNvmeAbortTimeout_lands h
    | moduleReset => exact execModuleReset_lands
    | powerCapExceeded => exact execPowerCapExceeded_lands h
    | thermalThrottle => exact execThermalThrottle_lands h
    | thermalShutdown => exact execThermalShutdown_lands h
    | inventoryRefresh => exact execInventoryRefresh_lands h
    | discardedWrite => exact execDiscardedWrite_lands h
    | drain => exact execDrain_lands h
    | resume => exact execResume_lands h
    | releaseHold => exact execReleaseHold_lands h
    | attach => exact execAttach_lands h
    | detach => exact execDetach_lands h
    | policy => exact execPolicy_lands h
    | attest => exact execAttest_lands h
    | cap => exact execCap_lands h
    | dbgEvent => exact execDbgEvent_lands h
    | dbgRead => exact execDbgRead_lands h
    | dbgWrite => exact execDbgWrite_lands h
    | dbgResume => exact execDbgResume_lands h
    | invalidCommand => exact execInvalidCommand_lands h
    | freezeAssert => exact execFreezeAssert_lands h
    | freezeRelease => exact execFreezeRelease_lands h
    | scansel => exact execScansel_lands h
    | scanout => exact execScanout_lands h
    | idcode => exact execIdcode_lands h
    | bypass => exact execBypass_lands h
    | illegalInstruction => exact execIllegalInstruction_lands h
    | storePerformed => exact execStorePerformed_lands h
    | codeObjectLoad => exact execCodeObjectLoad_lands h
    | finwesinSubmission => exact execFinwesinSubmission_lands h
    | devicePageGrant => exact execDevicePageGrant_lands h
    | applicationCoreAccess => exact execApplicationCoreAccess_lands h
    | memoryWindowRead => exact execMemoryWindowRead_lands h
    | commonConfigurationWrite => exact execCommonConfigurationWrite_lands h
    | hbmStackOffline => exact execHbmStackOffline_lands h
    | engineTimeout => exact execEngineTimeout_lands h
    | backInsideLimits => exact execBackInsideLimits_lands h
    | controllerResetComplete => exact execControllerResetComplete_lands h

/-! ## The issue of a word (R72, R87, R376) -/

/-- The state that a fetch leaves is canonical. -/
def Fetched.memOk : Fetched → Prop
  | .word _ t | .fault _ t => t.memOk
  | .park _ | .wait _ => True

theorem State.memOk.fetchPa {s : State} (h : s.memOk) {k : Skein} {pa : Nat} : (s.fetchPa k pa).memOk := by
  fun_cases State.fetchPa s k pa
  case case3 => trivial
  case case4 => exact h.countError
  all_goals exact h

theorem State.memOk.fetch {s : State} (h : s.memOk) {k : Skein} {p : Split} : (s.fetch k p).memOk := by
  unfold State.fetch
  split
  · trivial
  · split
    · trivial
    · trivial
    · split
      · exact h
      · split
        · exact h
        · exact h.fetchPa

theorem runWord_lands {s : State} (h : s.memOk) : Lands (runWord s) := by
  unfold runWord
  split
  · exact lands_next (by exact h)
  · next k p _ =>
    dsimp only
    split
    · exact exec_lands _ h
    · have hf := h.fetch (k := k) (p := p)
      split
      · next e => rw [e] at hf; exact exec_lands _ hf
      · next e => rw [e] at hf; exact lands_next (State.memOk.trapStop hf)
      · exact lands_next h.meetFault
      · exact lands_next h.stallOn

theorem step_lands {s : State} (h : s.memOk) : Lands (step s) := by
  unfold step
  split
  · have ha {l : List Instr} : ({ s with agenda := l } : State).memOk := h
    have hw {l : List Instr} : ({ s with agenda := l, issuing := none } : State).wake.memOk := h
    split
    · exact lands_next ha
    · exact exec_lands _ hw
  · split
    · exact lands_next (by exact h)
    · split
      · exact lands_next h.wake.tick
      · split
        · next e => exact lands_next (h.wake.faultsDue e)
        · split
          · exact lands_next h.wake.tick
          · exact runWord_lands h.wake.startIssue

/-- Settles O16: each step answers a canonical state, move by move. -/
theorem memoryStaysCanonical : Obligations.MemoryStaysCanonical := fun _ t h e => step_lands h t e

end Sys2Proof.Machine
end

section
/-! SUPPORT. The bits of lane files: masks of slices, merged files, images of values, and the sets after a write (R13, R14, R17, R25). -/

namespace Sys2Proof.Machine

/-! ## Masks of slices (R17) -/

theorem getLsbD_sliceMask (s n b : Nat) : (sliceMask s n).getLsbD b = (decide (b < 1024) && decide (4 * s ≤ b) && decide (b < 4 * s + 4 * n)) := by
  unfold sliceMask
  rw [BitVec.getLsbD_shiftLeft, BitVec.getLsbD_ofNat, Nat.testBit_two_pow_sub_one]
  by_cases h1 : b < 1024
  · by_cases h2 : 4 * s ≤ b
    · have h3 : b - 4 * s < 1024 := by omega
      have h4 : (b - 4 * s < 4 * n) = (b < 4 * s + 4 * n) := propext (by omega)
      simp [h1, h2, h3, h4]
    · have h3 : b < 4 * s := by omega
      simp [h2, h3]
  · simp [h1]

/-- A bit of a slice lies in a run of slices exactly when the slice does. -/
theorem getLsbD_sliceMask_slice (s n sl j : Nat) (hj : j < 4) :
    (sliceMask s n).getLsbD (4 * sl + j) = (decide (sl < 256) && decide (s ≤ sl) && decide (sl < s + n)) := by
  rw [getLsbD_sliceMask]
  congr 1
  · congr 1
    · exact decide_eq_decide.mpr (by omega)
    · exact decide_eq_decide.mpr (by omega)
  · exact decide_eq_decide.mpr (by omega)

/-! ## Files lane by lane -/

theorem getD_range32_map {α : Type} (f : Nat → α) (d : α) {l : Nat} (hl : l < 32) : ((List.range 32).map f).getD l d = f l := by
  simp [List.getD, hl]

theorem getD_mergeLanes (files imgs masks : List LaneFile) {l : Nat} (hl : l < 32) :
    (mergeLanes files imgs masks).getD l 0 = (files.getD l 0 &&& ~~~(masks.getD l 0)) ||| (imgs.getD l 0 &&& masks.getD l 0) :=
  getD_range32_map _ _ hl

/-- A merged file holds the image's bit under the mask, and the file's elsewhere. -/
theorem getLsbD_mergeLanes (files imgs masks : List LaneFile) {l : Nat} (hl : l < 32) (b : Nat) :
    ((mergeLanes files imgs masks).getD l 0).getLsbD b =
      if (masks.getD l 0).getLsbD b then (imgs.getD l 0).getLsbD b else (files.getD l 0).getLsbD b := by
  rw [getD_mergeLanes _ _ _ hl, BitVec.getLsbD_or, BitVec.getLsbD_and, BitVec.getLsbD_and, BitVec.getLsbD_not]
  by_cases hb : b < 1024
  · cases (masks.getD l 0).getLsbD b <;> simp [hb]
  · simp [BitVec.getLsbD_of_ge _ _ (Nat.le_of_not_lt hb)]

theorem getD_laneMasks (em : Mask) (mask : LaneFile) {l : Nat} (hl : l < 32) :
    (laneMasks em mask).getD l 0 = if inMask em l then mask else 0 := getD_range32_map _ _ hl

theorem getLsbD_laneMasks (em : Mask) (mask : LaneFile) {l : Nat} (hl : l < 32) (b : Nat) :
    ((laneMasks em mask).getD l 0).getLsbD b = (inMask em l && mask.getLsbD b) := by
  rw [getD_laneMasks _ _ hl]
  cases inMask em l <;> simp

theorem getD_imageOf (start n : Nat) (v : Nat → Nat) {l : Nat} (hl : l < 32) :
    (imageOf start n v).getD l 0 = BitVec.ofNat 1024 (v l % 2 ^ (4 * n) * 2 ^ (4 * start)) := getD_range32_map _ _ hl

theorem getLsbD_imageOf (start n : Nat) (v : Nat → Nat) {l : Nat} (hl : l < 32) {b : Nat} (hb : 4 * start + b < 1024) :
    ((imageOf start n v).getD l 0).getLsbD (4 * start + b) = (v l % 2 ^ (4 * n)).testBit b := by
  rw [getD_imageOf _ _ _ hl, BitVec.getLsbD_ofNat, Nat.testBit_mul_two_pow]
  simp [hb]

/-! ## Registers and their sets (R14, R24, R25) -/

theorem mem_regsOf {s n r : Nat} (hn : 0 < n) : r ∈ regsOf s n ↔ s < 8 * r + 8 ∧ 8 * r < s + n := by
  unfold regsOf
  rw [if_neg (by omega), List.mem_map]
  constructor
  · rintro ⟨a, ha, rfl⟩
    have := List.mem_range.mp ha
    omega
  · intro h
    exact ⟨r - s / 8, List.mem_range.mpr (by omega), by omega⟩

theorem getD_writeSets (window : Nat) (sets : List OSet) (em : Mask) (mask : LaneFile) (regs : List Nat) (set : Nat → OSet) {r : Nat}
    (hr : r < 32) : (writeSets window sets em mask regs set).getD r 0 =
      if regs.contains r then
        if em == 0xFFFFFFFF#32 && (presentMask window r &&& ~~~mask) == 0 then set r else sets.getD r 0 ||| set r
      else sets.getD r 0 := getD_range32_map _ _ hr

/-- A register is whole in a run of slices when the run holds every slice of it that the window holds. -/
theorem present_sub_sliceMask {window r d n : Nat} (hr : r < 32) :
    presentMask window r &&& ~~~(sliceMask d n) = 0 ↔
      ∀ sl, 8 * r ≤ sl → sl < 8 * r + 8 → sl < window → d ≤ sl ∧ sl < d + n := by
  constructor
  · intro h sl h1 h2 h3
    have hb := congrArg (fun x => BitVec.getLsbD x (4 * sl + 0)) h
    simp only [BitVec.getLsbD_and, BitVec.getLsbD_not, presentMask, getLsbD_sliceMask_slice _ _ _ 0 (by omega)] at hb
    simp [h1, show sl < 256 by omega, show sl < 8 * r + min 8 (window - 8 * r) by omega] at hb
    omega
  · intro h
    refine BitVec.eq_of_getLsbD_eq fun b hb => ?_
    simp only [BitVec.getLsbD_and, BitVec.getLsbD_not, presentMask, getLsbD_sliceMask]
    by_cases hm : 4 * (8 * r) ≤ b ∧ b < 4 * (8 * r) + 4 * min 8 (window - 8 * r)
    · have := h (b / 4) (by omega) (by omega) (by omega)
      simp [hb, show 4 * d ≤ b by omega, show b < 4 * d + 4 * n by omega]
    · have : ¬ (4 * (8 * r) ≤ b) ∨ ¬ (b < 4 * (8 * r) + 4 * min 8 (window - 8 * r)) := by omega
      rcases this with h' | h' <;> simp [h']

/-! ## What a write at issue does (R25, R30) -/

/-- A write gives each active lane the value's bits in its run of slices. -/
theorem wr_value {x : Iss} {d n : Nat} {v : Nat → Nat} {set : OSet} (hd : d + n ≤ 256) {l : Nat} (hl : l < 32) (ha : inMask x.p.em l = true) :
    ((x.wr d n v set).lanes.getD l 0).toNat / 2 ^ (4 * d) % 2 ^ (4 * n) = v l % 2 ^ (4 * n) := by
  refine Nat.eq_of_testBit_eq fun b => ?_
  rw [Nat.testBit_mod_two_pow, Nat.testBit_div_two_pow]
  by_cases hb : b < 4 * n
  · have h1 : b + 4 * d = 4 * d + b := Nat.add_comm ..
    have hbit : ((x.wr d n v set).lanes.getD l 0).getLsbD (4 * d + b) = (v l % 2 ^ (4 * n)).testBit b := by
      show ((mergeLanes x.k.lanes (imageOf d n v) (laneMasks x.p.em (sliceMask d n))).getD l 0).getLsbD _ = _
      rw [getLsbD_mergeLanes _ _ _ hl, getLsbD_laneMasks _ _ hl, ha, getLsbD_sliceMask, getLsbD_imageOf _ _ _ hl (by omega)]
      simp [hb, show 4 * d + b < 1024 by omega]
    simp only [hb, decide_true, Bool.true_and, h1]
    exact hbit
  · rw [Nat.testBit_mod_two_pow]
    simp [hb]

/-- A write leaves every slice outside its run, and every inactive lane. -/
theorem wr_keeps {x : Iss} {d n : Nat} {v : Nat → Nat} {set : OSet} {l sl j : Nat} (hl : l < 32) (hj : j < 4)
    (h : inMask x.p.em l = false ∨ sl < d ∨ d + n ≤ sl) :
    ((x.wr d n v set).lanes.getD l 0).getLsbD (4 * sl + j) = (x.k.lanes.getD l 0).getLsbD (4 * sl + j) := by
  show ((mergeLanes x.k.lanes (imageOf d n v) (laneMasks x.p.em (sliceMask d n))).getD l 0).getLsbD _ = _
  rw [getLsbD_mergeLanes _ _ _ hl, getLsbD_laneMasks _ _ hl, getLsbD_sliceMask_slice _ _ _ _ hj, if_neg]
  rcases h with h | h | h
  · simp [h]
  · simp [show ¬ d ≤ sl by omega]
  · simp [show ¬ sl < d + n by omega]

/-- A write leaves the set of a register that holds no slice of its run. -/
theorem wr_keeps_set {x : Iss} {d n : Nat} {v : Nat → Nat} {set : OSet} (hn : 0 < n) {g : Nat} (hg : g < 32)
    (h : 8 * g + 8 ≤ d ∨ d + n ≤ 8 * g) : (x.wr d n v set).sets.getD g 0 = x.k.sets.getD g 0 := by
  show (writeSets x.k.window x.k.sets x.p.em (sliceMask d n) (regsOf d n) fun _ => set).getD g 0 = _
  have : ¬ g ∈ regsOf d n := fun hm => by have := (mem_regsOf hn).mp hm; omega
  rw [getD_writeSets _ _ _ _ _ _ hg, if_neg (by simpa using this)]

/-- The set of a register that a write reaches: the result set where it writes the whole of it in all lanes, else the join. -/
theorem wr_set {x : Iss} {d n : Nat} {v : Nat → Nat} {set : OSet} (hn : 0 < n) {g : Nat} (hg : g < 32) (h1 : d < 8 * g + 8)
    (h2 : 8 * g < d + n) : (x.wr d n v set).sets.getD g 0 =
      if x.p.em = 0xFFFFFFFF#32 ∧ presentMask x.k.window g &&& ~~~(sliceMask d n) = 0 then set else x.k.sets.getD g 0 ||| set := by
  show (writeSets x.k.window x.k.sets x.p.em (sliceMask d n) (regsOf d n) fun _ => set).getD g 0 = _
  rw [getD_writeSets _ _ _ _ _ _ hg, if_pos (by simpa using (mem_regsOf hn).mpr ⟨h1, h2⟩)]
  simp only [Bool.and_eq_true, beq_iff_eq]

/-- MOVI completes with its immediate in the active lanes. -/
theorem movi_completes {w : Width} {d : BitVec 8} {imm : BitVec 7} {s : State} {k : Skein} {p : Split} {x : Iss}
    (hs : Starts (.movi w d imm) s k p) (ho : (Iss.start s k p).operands [opdOut d.toNat w.slices] = .ok x) :
    Completes (.movi w d imm) s k p
      (x.put (x.wr d.toNat w.slices (fun _ => (BitVec.ofInt w.bits (x.h.imm imm true)).toNat) x.rset)) := by
  have he : exec (.movi w d imm) s = execMovi w d imm s := rfl
  unfold Completes
  rw [he]
  refine issue_ok hs.1 hs.2 ?_
  rw [res_bind_ok ho]
  rfl

/-- Settles O7: the rows by the frame that they share, MOVI by its own lemma, and the write slice by slice. -/
theorem laneInstructionsComplete : Obligations.LaneInstructionsComplete := by
  refine ⟨fun i r h => laneOp_gives r (exec_of_laneRow h), fun w d imm s k p x hs ho => movi_completes hs ho, ?_⟩
  intro x d n v set hn hd hw _
  refine ⟨fun l hl ha => wr_value (by omega) hl ha, fun l sl j hl hj h => wr_keeps hl hj h, fun g hg => ?_⟩
  refine ⟨fun h => wr_keeps_set hn hg h, fun h1 h2 => ?_⟩
  have hset := wr_set (x := x) (v := v) (set := set) hn hg h1 h2
  have hsub := present_sub_sliceMask (window := x.k.window) (d := d) (n := n) hg
  exact ⟨fun hwhole => hset.trans (if_pos ⟨hwhole.1, hsub.mpr hwhole.2⟩),
    fun hpart => hset.trans (if_neg fun h => hpart ⟨h.1, hsub.mp h.2⟩)⟩

end Sys2Proof.Machine
end

section
/-! SUPPORT. Memory reads back what was written, little-endian (R29), and what a skein and a block hold as they are placed (R124 to R128). -/

namespace Sys2Proof.Machine

/-! ## Bytes of memory (R29) -/

/-- A byte read after a put in canonical cells: the put byte at its address, and any other as before. -/
theorem cellGet_cellPut {l : List Host.Cell} (h : Memory.wf l = true) (a c : Nat) (b : Byte) :
    cellGet (cellPut a b l) c = if c = a then b else cellGet l c := by
  induction l with
  | nil =>
    simp only [cellPut]
    split
    · next hb => simp [cellGet, hb]
    · simp [cellGet, eq_comm]
  | cons q t ih =>
    obtain ⟨y, d⟩ := q
    obtain ⟨hd, hy, ht⟩ := (wf_cons y d t).mp h
    simp only [cellPut]
    split
    · next hlt =>
      have hlow : cellGet ((y, d) :: t) a = 0#8 := cellGet_above fun c hc => by
        rcases List.mem_cons.mp hc with rfl | hc
        · exact hlt
        · exact Nat.lt_trans hlt (hy c hc)
      split
      · next hb =>
        split
        · next hc => rw [hc, hlow, hb]
        · rfl
      · simp only [cellGet, eq_comm]
    · split
      · next hge heq =>
        subst heq
        split
        · next hb =>
          split
          · next hc => rw [hc, cellGet_above hy, hb]
          · next hc => simp [cellGet, Ne.symm hc]
        · simp only [cellGet, eq_comm]
          split
          · rfl
          · rfl
      · next hge hne =>
        simp only [cellGet, ih ht]
        split
        · next hc => rw [if_neg (by omega)]
        · rfl

/-- A byte read after bytes were written: the written byte inside them, and any other as before. -/
theorem cellGet_cellsWrite {l : List Host.Cell} (h : Memory.wf l = true) (a c : Nat) (bs : List Byte) :
    cellGet (cellsWrite l a bs) c = if a ≤ c ∧ c < a + bs.length then bs.getD (c - a) 0 else cellGet l c := by
  induction bs generalizing l a with
  | nil => rw [if_neg (by simp)]; rfl
  | cons b bs ih =>
    show cellGet (cellsWrite (cellPut a b l) (a + 1) bs) c = _
    rw [ih (cellPut_wf a b h), cellGet_cellPut h, List.length_cons]
    by_cases hc : c = a
    · subst hc
      rw [if_neg (by omega), if_pos rfl, if_pos (by omega), Nat.sub_self, List.getD_cons_zero]
    · rw [if_neg hc]
      by_cases hr : a + 1 ≤ c ∧ c < a + 1 + bs.length
      · rw [if_pos hr, if_pos (by omega), show c - a = c - (a + 1) + 1 by omega, List.getD_cons_succ]
      · rw [if_neg hr, if_neg (by omega)]

theorem cellsRead_cellsWrite {l : List Host.Cell} (h : Memory.wf l = true) (a : Nat) (bs : List Byte) :
    cellsRead (cellsWrite l a bs) a bs.length = bs := by
  unfold cellsRead
  refine List.ext_getElem (by simp) fun i h1 h2 => ?_
  rw [List.getElem_map, List.getElem_range, cellGet_cellsWrite h, if_pos (by omega), Nat.add_sub_cancel_left]
  exact (List.getElem_eq_getD (h := h2) 0).symm

theorem length_bytesLE (n x : Nat) : (bytesLE n x).length = n := by
  induction n generalizing x with
  | zero => rfl
  | succ n ih => rw [bytesLE, List.length_cons, ih]

/-- The little-endian number of the bytes of x is x. -/
theorem ofBytesLE_bytesLE (n x : Nat) : ofBytesLE (bytesLE n x) = x % 2 ^ (8 * n) := by
  induction n generalizing x with
  | zero => simp [bytesLE, ofBytesLE, Nat.mod_one]
  | succ n ih =>
    rw [bytesLE, ofBytesLE, ih, BitVec.toNat_ofNat, show 8 * (n + 1) = 8 + 8 * n by omega, Nat.pow_add]
    exact (Nat.mod_mul (x := x) (a := 2 ^ 8) (b := 2 ^ (8 * n))).symm

/-- Settles O15: byte by byte, along the cells and along the bytes written. -/
theorem memoryReadsBack : Obligations.MemoryReadsBack := by
  intro m a bs h
  refine ⟨cellsRead_cellsWrite h a bs, fun c hc => ?_, cellsWrite_wf a bs h, fun n x => ?_⟩
  · rw [cellGet_cellsWrite h, if_neg (by omega)]
  · unfold cellsNat
    have := cellsRead_cellsWrite h a (bytesLE n x)
    rw [length_bytesLE] at this
    rw [this, ofBytesLE_bytesLE]

/-! ## Placement (R15, R124 to R128, R141, R168) -/

theorem fresh_lanes (id ctx grid blk num window tenant : Nat) (pc : Addr) (em : Mask) (co : OSet) (now l : Nat) :
    (Skein.fresh id ctx grid blk num window tenant pc em co now).lanes.getD l 0 = 0 := by
  show (List.replicate 32 (0 : LaneFile)).getD l 0 = 0
  rw [List.getD_eq_getElem?_getD]
  exact List.getElem?_getD_replicate_default_eq _ 32 l

theorem fresh_sets (id ctx grid blk num window tenant : Nat) (pc : Addr) (em : Mask) (co : OSet) (now : Nat) {r : Nat} (hr : r < 32) :
    (Skein.fresh id ctx grid blk num window tenant pc em co now).sets.getD r 0 = 1#16 <<< tenant := by
  show (List.replicate 32 (tenantBit tenant)).getD r 0 = _
  rw [List.getD_replicate _ hr]
  rfl

/-- Settles O19: the fields of a skein and of a block as they are placed. -/
theorem placement : Obligations.Placement := by
  constructor
  · intro id ctx grid blk num window tenant pc em co now k
    refine ⟨fun l sl j => ?_, fun r hr => fresh_sets _ _ _ _ _ _ _ _ _ _ _ hr, rfl, rfl, rfl, rfl, rfl, ?_⟩
    · rw [fresh_lanes]
      exact BitVec.getLsbD_zero
    · exact ⟨_, rfl, rfl, rfl, rfl, rfl, rfl, rfl⟩
  · intro g num core slots b
    refine ⟨by simp [b, Block.fresh], List.length_replicate, rfl, fun n hn => ?_, fun x hx => ?_⟩
    · exact ⟨KReg.fresh (g.kinit.getD n 0) g.kset, by simp [b, Block.fresh, hn], rfl, rfl, rfl⟩
    · obtain ⟨-, rfl⟩ := List.mem_replicate.mp hx
      exact ⟨rfl, rfl, rfl⟩

end Sys2Proof.Machine
end

section
/-! SUPPORT. What a performed store leaves of the skeins and of the menders, and what a stop saves (R140, R202, R247, R344). -/

namespace Sys2Proof.Machine

/-! ## Lookups by key -/

/-- A change of elements that leaves their keys is seen through a lookup. -/
theorem find_map_key {α : Type} (key : α → Nat) (f : α → α) (hf : ∀ x, key (f x) = key x) (n : Nat) (l : List α) :
    (l.map f).find? (fun x => key x == n) = (l.find? fun x => key x == n).map f := by
  rw [List.find?_map]
  congr 1
  exact List.find?_congr fun x _ => by simp [hf]

theorem length_modCluster (s : State) (n : Nat) (f : Cluster → Cluster) : (s.modCluster n f).clusters.length = s.clusters.length := by
  rw [modCluster_clusters, List.length_modify]

/-- The clusters of a state, by number, after one of them has changed. -/
theorem cluster_modCluster (s : State) (n m : Nat) (f : Cluster → Cluster) :
    (s.modCluster n f).cluster m = if n = m ∧ m < s.clusters.length then f (s.cluster m) else s.cluster m := by
  unfold State.cluster
  rw [modCluster_clusters, List.getD_eq_getElem?_getD, List.getD_eq_getElem?_getD, List.getElem?_modify]
  by_cases hm : m < s.clusters.length
  · rw [List.getElem?_eq_getElem hm]
    by_cases h : n = m <;> simp [h, hm]
  · rw [List.getElem?_eq_none (Nat.le_of_not_lt hm)]
    simp [hm]

/-- A change of a cluster that leaves a field is not seen in that field of any. -/
theorem cluster_modCluster_field {α : Type} (g : Cluster → α) (s : State) (n m : Nat) (f : Cluster → Cluster) (hf : ∀ c, g (f c) = g c) :
    g ((s.modCluster n f).cluster m) = g (s.cluster m) := by
  rw [cluster_modCluster]
  split
  · exact hf _
  · rfl

/-! ## A performed store changes no skein and no mender (R238, R248) -/

/-- The skeins are the same, and the records and the fault buffer of each cluster. -/
def KeepsSkeins (s t : State) : Prop :=
  t.skeins = s.skeins ∧ t.clusters.length = s.clusters.length ∧
    ∀ n, (t.cluster n).records = (s.cluster n).records ∧ (t.cluster n).fbuf = (s.cluster n).fbuf

theorem KeepsSkeins.refl (s : State) : KeepsSkeins s s := ⟨rfl, rfl, fun _ => ⟨rfl, rfl⟩⟩

theorem KeepsSkeins.trans {s t u : State} (h : KeepsSkeins s t) (g : KeepsSkeins t u) : KeepsSkeins s u :=
  ⟨g.1.trans h.1, g.2.1.trans h.2.1, fun n => ⟨(g.2.2 n).1.trans (h.2.2 n).1, (g.2.2 n).2.trans (h.2.2 n).2⟩⟩

theorem KeepsSkeins.foldl {α : Type} {f : State → α → State} (hf : ∀ t a, KeepsSkeins t (f t a)) (s : State) (l : List α) :
    KeepsSkeins s (l.foldl f s) := by
  induction l generalizing s with
  | nil => exact .refl s
  | cons a l ih => exact (hf s a).trans (ih (f s a))

theorem poke_keeps (s : State) (l : Loc) (b : Byte) : KeepsSkeins s (s.poke l b) := by
  unfold State.poke
  split
  · exact .refl s
  · exact .refl s
  · refine ⟨rfl, length_modCluster .., fun m => ⟨cluster_modCluster_field Cluster.records s _ m _ fun _ => rfl,
      cluster_modCluster_field Cluster.fbuf s _ m _ fun _ => rfl⟩⟩

theorem pokes_keeps (s : State) (l : Loc) (bs : List Byte) : KeepsSkeins s (s.pokes l bs) := by
  induction bs generalizing s l with
  | nil => exact .refl s
  | cons b bs ih => exact (poke_keeps s l b).trans (ih ..)

theorem pclean_keeps (s : State) (die line : Nat) : KeepsSkeins s (s.pclean die line) := by
  unfold State.pclean
  split
  · exact .refl s
  · refine KeepsSkeins.foldl (fun t i => ?_) s _
    split
    · split
      · exact poke_keeps ..
      · exact .refl t
    · exact .refl t

theorem roomPcie_keeps (s : State) (die line : Nat) : KeepsSkeins s (s.roomPcie die line) := by
  unfold State.roomPcie
  split
  · exact .refl s
  · exact pclean_keeps ..

theorem pstore_keeps (s : State) (die pa : Nat) (b : Byte) : KeepsSkeins s (s.pstore die pa b) := by
  unfold State.pstore
  extract_lets t
  split
  · exact .refl s
  · exact roomPcie_keeps t die (pa / 64)

theorem storeByte_keeps (s : State) (core pa : Nat) (b : Byte) : KeepsSkeins s (s.storeByte core pa b) := by
  unfold State.storeByte
  extract_lets t
  have ht : KeepsSkeins s t := by
    unfold t
    split
    · exact pstore_keeps ..
    · exact poke_keeps ..
  exact ht

theorem storeBytes_keeps (s : State) (core pa : Nat) (bs : List Byte) : KeepsSkeins s (s.storeBytes core pa bs) := by
  induction bs generalizing s pa with
  | nil => exact .refl s
  | cons b bs ih => exact (storeByte_keeps s core pa b).trans (ih ..)

theorem perform_keeps (s : State) (core : Nat) (e : PStore) : KeepsSkeins s (s.perform core e) := by
  unfold State.perform
  split
  · exact storeBytes_keeps ..
  · exact pokes_keeps ..
  · exact pokes_keeps ..

theorem performAll_keeps (s : State) (core : Nat) (es : List (PStore × Bool)) (kept : List PStore) :
    KeepsSkeins s (s.performAll core es kept).1 := by
  fun_induction State.performAll s core es kept
  case case1 => exact .refl _
  case case2 ih => exact (perform_keeps ..).trans ih
  case case3 ih => exact ih

/-! ## A release changes no skein but for its own waiting stores (R212, R247) -/

/-- What a release leaves of the skeins and the menders: all but the waiting stores of the skein. -/
theorem drain_keeps (s : State) (sid : Nat) (f : PStore → Bool) :
    ∃ es t, KeepsSkeins s t ∧
      s.drain sid f = { t with skeins := t.skeins.map fun x => if x.id == sid then { x with stores := es } else x } ∨ s.drain sid f = s := by
  unfold State.drain
  split
  · exact ⟨[], s, .inr rfl⟩
  · exact ⟨_, _, .inl ⟨performAll_keeps .., rfl⟩⟩

/-- The clusters' menders after a release are as before. -/
theorem release_menders (s : State) (sid : Nat) (f : PStore → Bool) (bk : Bool) :
    (s.release sid f bk).clusters.length = s.clusters.length ∧
      ∀ n, ((s.release sid f bk).cluster n).records = (s.cluster n).records ∧ ((s.release sid f bk).cluster n).fbuf = (s.cluster n).fbuf := by
  have hd : (s.drain sid f).clusters.length = s.clusters.length ∧
      ∀ n, ((s.drain sid f).cluster n).records = (s.cluster n).records ∧ ((s.drain sid f).cluster n).fbuf = (s.cluster n).fbuf := by
    obtain ⟨es, t, ⟨ht, e⟩ | e⟩ := drain_keeps s sid f
    · rw [e]; exact ht.2
    · rw [e]; exact ⟨rfl, fun _ => ⟨rfl, rfl⟩⟩
  unfold State.release
  dsimp only
  split
  · exact hd
  · split
    · exact hd
    · exact hd

theorem release_skeins (s : State) (sid : Nat) (f : PStore → Bool) (bk : Bool) : (s.release sid f bk).skeins = (s.drain sid f).skeins := by
  unfold State.release
  dsimp only
  split
  · rfl
  · split
    · rfl
    · rfl

/-- Another skein is as before a release. -/
theorem skein_release_other (s : State) {sid n : Nat} (f : PStore → Bool) (bk : Bool) (h : n ≠ sid) :
    (s.release sid f bk).skein? n = s.skein? n := by
  show (s.release sid f bk).skeins.find? _ = _
  rw [release_skeins]
  obtain ⟨es, t, ⟨ht, e⟩ | e⟩ := drain_keeps s sid f
  · rw [e, ht.1]
    show ((s.skeins.map _).find? fun x : Skein => x.id == n) = _
    rw [find_map_key Skein.id _ fun x => by split <;> rfl]
    show (s.skein? n).map _ = _
    cases hn : s.skein? n with
    | none => rfl
    | some x =>
      have hx : ¬ (x.id == sid) = true := by rw [skein_id hn]; simpa using h
      exact congrArg some (if_neg hx)
  · rw [e]; rfl

/-- The skein that releases keeps all but its waiting stores. -/
theorem skein_release_same (s : State) {sid : Nat} {k : Skein} (f : PStore → Bool) (bk : Bool) (h : s.skein? sid = some k) :
    ∃ es, (s.release sid f bk).skein? sid = some { k with stores := es } := by
  show ∃ es, (s.release sid f bk).skeins.find? _ = _
  rw [release_skeins]
  obtain ⟨es, t, ⟨ht, e⟩ | e⟩ := drain_keeps s sid f
  · refine ⟨es, ?_⟩
    rw [e, ht.1]
    show ((s.skeins.map _).find? fun x : Skein => x.id == sid) = _
    rw [find_map_key Skein.id _ fun x => by split <;> rfl]
    show (s.skein? sid).map _ = _
    rw [h]
    exact congrArg some (if_pos (by rw [skein_id h]; exact beq_self_eq_true sid))
  · exact ⟨k.stores, by rw [e]; exact h⟩

/-- A skein with no waiting store releases nothing. -/
theorem mem_release (s : State) {sid : Nat} {k : Skein} (f : PStore → Bool) (bk : Bool) (h : s.skein? sid = some k) (hs : k.stores = []) :
    (s.release sid f bk).mem = s.mem := by
  have hd : (s.drain sid f).mem = s.mem := by
    unfold State.drain
    rw [h]
    dsimp only
    rw [hs]
    rfl
  unfold State.release
  dsimp only
  split
  · exact hd
  · split
    · exact hd
    · exact hd

/-! ## What a stop saves (R35, R72, R125, R137, R140, R202, R344) -/

/-- A split as a stop leaves it, by the cause of the stop: at its group's first word; in a stop for a pre-emption no longer parked on a
translation; and with the replay that met the trap gone. -/
theorem atStop_again (p : Split) (uid : Nat) (r : Record) :
    (p.again.filter fun x => x.counted || !(r.cause == 0 && p.uid == uid && x.word == r.word)) =
      if r.cause = 0 ∧ p.uid = uid ∧ p.again.map (fun x => (x.word, x.counted)) = some (r.word, false) then none else p.again := by
  cases p.again with
  | none => simp
  | some x =>
    simp only [Option.filter_some, Option.map_some, Option.some.injEq, Prod.mk.injEq]
    cases x.counted <;> by_cases h1 : r.cause = 0 <;> by_cases h2 : p.uid = uid <;> by_cases h3 : x.word = r.word <;> simp [h1, h2, h3]

/-- The skein as a stop saves it. -/
def Skein.stopped (k : Skein) (uid : Nat) (r : Record) (lset : OSet) (redo : Option Pend) : Skein :=
  let k1 := if r.cause == 5 then k.landAll.preempted else k.landAll
  { k1 with
    splits := k1.splits.map fun p =>
      { p.atStop with again := p.again.filter fun x => x.counted || !(r.cause == 0 && p.uid == uid && x.word == r.word) },
    lfm := if r.writesLfm then r.lfm else k1.lfm,
    lfmSet := if r.writesLfm then lset else k1.lfmSet,
    cur := some uid,
    stop := some { record := r, uid := uid, redo := redo, delivered := false, go := false } }

theorem takeStop_eq (s : State) (k : Skein) (uid : Nat) (r : Record) (lset : OSet) (redo : Option Pend) :
    s.takeStop k uid r lset redo =
      (((if r.cause == 5 then s.freeParks k else s).setSkein (k.stopped uid r lset redo)).release k.id (fun _ => true) true).receive
        k.cluster r := rfl

theorem stopped_id (k : Skein) (uid : Nat) (r : Record) (lset : OSet) (redo : Option Pend) : (k.stopped uid r lset redo).id = k.id := by
  unfold Skein.stopped
  dsimp only
  split <;> rfl

/-- Freeing the fault-buffer entries of a skein leaves the skeins. -/
theorem skein_stopState (s : State) (k : Skein) (b : Bool) (n : Nat) : (if b then s.freeParks k else s).skein? n = s.skein? n := by
  split <;> rfl

/-- Another skein is as it was before a stop. -/
theorem skein_takeStop_other (s : State) (k : Skein) (uid : Nat) (r : Record) (lset : OSet) (redo : Option Pend) {n : Nat}
    (h : n ≠ k.id) : (s.takeStop k uid r lset redo).skein? n = s.skein? n := by
  rw [takeStop_eq]
  show (State.release _ k.id _ true).skein? n = _
  rw [skein_release_other _ _ _ h, skein_setSkein_other _ _ _ (by rw [stopped_id]; exact h), skein_stopState]

theorem skein_stopped_set {s : State} {k : Skein} (uid : Nat) (r : Record) (lset : OSet) (redo : Option Pend)
    (h : (s.skein? k.id).isSome) : ((if r.cause == 5 then s.freeParks k else s).setSkein (k.stopped uid r lset redo)).skein? k.id =
      some (k.stopped uid r lset redo) := by
  have hid := stopped_id k uid r lset redo
  have hset := skein_setSkein_same (s := if r.cause == 5 then s.freeParks k else s) (k := k.stopped uid r lset redo)
    (by rw [hid, skein_stopState]; exact h)
  rwa [hid] at hset

/-- The skein itself is as the stop saves it, but for its waiting stores. -/
theorem skein_takeStop_same {s : State} {k : Skein} (uid : Nat) (r : Record) (lset : OSet) (redo : Option Pend)
    (h : (s.skein? k.id).isSome) :
    ∃ es, (s.takeStop k uid r lset redo).skein? k.id = some { k.stopped uid r lset redo with stores := es } := by
  exact skein_release_same _ _ _ (skein_stopped_set uid r lset redo h)

/-- A split in the state that a stop leaves it in. -/
theorem unpark_st (p : Split) :
    p.unpark = { p with st := (match p.st with
      | .parked (.translation _ _) => .ready
      | st => st) } := by
  obtain ⟨_, _, _, _, _, _, _, st⟩ := p
  cases st with
  | parked w => cases w <;> rfl
  | _ => rfl

/-- The splits that a stop saves. -/
theorem stopped_splits (k : Skein) (uid : Nat) (r : Record) (lset : OSet) (redo : Option Pend) :
    (k.stopped uid r lset redo).splits = k.splits.map fun p =>
      { p with
          pc := (p.hints.gpc.getD p.pc),
          hints := Hints.empty,
          again := (if r.cause = 0 ∧ p.uid = uid ∧ p.again.map (fun x => (x.word, x.counted)) = some (r.word, false) then none
            else p.again),
          st := (match p.st with
            | .parked (.translation e q) => if r.cause = 5 then .ready else .parked (.translation e q)
            | st => st) } := by
  unfold Skein.stopped
  simp only [atStop_again]
  by_cases h : r.cause = 5
  · simp only [h, beq_self_eq_true, if_true, Skein.preempted, Skein.landAll, List.map_map]
    refine List.map_congr_left fun p _ => ?_
    simp only [Function.comp_apply, unpark_st, Split.atStop]
  · have h' : (r.cause == 5) = false := by simpa using h
    simp only [h, h', Bool.false_eq_true, if_false, Skein.landAll]
    refine List.map_congr_left fun p _ => ?_
    obtain ⟨_, _, _, _, _, _, _, st⟩ := p
    cases st with
    | parked w => cases w <;> rfl
    | _ => rfl

/-- The skein that a stop saves, field by field, but for its splits (R125, R140, R193). -/
theorem stopped_fields (k : Skein) (uid : Nat) (r : Record) (lset : OSet) (redo : Option Pend) :
    let j := k.stopped uid r lset redo
    j.pend = [] ∧ j.lanes = k.pend.foldl (fun f q => mergeLanes f q.img q.masks) k.lanes ∧ j.sets = k.sets ∧ j.stack = k.stack ∧
      j.stores = k.stores ∧ j.streams = (if r.cause = 5 then [] else k.streams) ∧
      j.lfm = (if r.cause = 0 ∨ r.cause = 2 ∨ r.cause = 3 ∨ r.cause = 6 then r.lfm else k.lfm) := by
  have hw : r.writesLfm = true ↔ r.cause = 0 ∨ r.cause = 2 ∨ r.cause = 3 ∨ r.cause = 6 := by
    simp [Record.writesLfm, or_assoc]
  unfold Skein.stopped
  simp only [← hw]
  by_cases h : r.cause = 5
  · simp only [h, beq_self_eq_true, if_true]
    exact ⟨rfl, rfl, rfl, rfl, rfl, rfl, rfl⟩
  · have h' : (r.cause == 5) = false := by simpa using h
    simp only [h, h', Bool.false_eq_true, if_false]
    exact ⟨rfl, rfl, rfl, rfl, rfl, rfl, rfl⟩

/-- The mender of the skein's cluster after a stop: it has the record, and in a stop for a pre-emption none of the skein's entries. -/
theorem takeStop_mender {s : State} {k : Skein} (uid : Nat) (r : Record) (lset : OSet) (redo : Option Pend)
    (h : k.cluster < s.clusters.length) :
    ((s.takeStop k uid r lset redo).cluster k.cluster).records = (s.cluster k.cluster).records ++ [r] ∧
      ((s.takeStop k uid r lset redo).cluster k.cluster).fbuf =
        (s.cluster k.cluster).fbuf.filter fun e => !(decide (r.cause = 5) && decide (e.sid = k.id)) := by
  rw [takeStop_eq]
  generalize hu : ((if r.cause == 5 then s.freeParks k else s).setSkein (k.stopped uid r lset redo)).release k.id (fun _ => true) true = u
  obtain ⟨hlen, hm⟩ := release_menders ((if r.cause == 5 then s.freeParks k else s).setSkein (k.stopped uid r lset redo)) k.id
    (fun _ => true) true
  rw [hu] at hlen hm
  obtain ⟨hrec, hfb⟩ := hm k.cluster
  have hbase : (if r.cause == 5 then s.freeParks k else s).clusters.length = s.clusters.length := by
    split
    · exact length_modCluster ..
    · rfl
  unfold State.receive
  rw [cluster_modCluster, if_pos ⟨rfl, by rw [hlen]; exact hbase.symm ▸ h⟩]
  simp only [hrec, hfb]
  show (State.cluster (if r.cause == 5 then s.freeParks k else s) k.cluster).records ++ [r] = _ ∧
    (State.cluster (if r.cause == 5 then s.freeParks k else s) k.cluster).fbuf = _
  by_cases h5 : r.cause = 5
  · simp only [h5, beq_self_eq_true, if_true, State.freeParks, decide_true, Bool.true_and]
    rw [cluster_modCluster, if_pos ⟨rfl, h⟩]
    exact ⟨rfl, rfl⟩
  · have h' : (r.cause == 5) = false := by simpa using h5
    simp [h5, h']

/-- Settles O20: the skein that a stop saves, the release, and the record that the mender receives. -/
theorem stopEntry : Obligations.StopEntry := by
  refine ⟨fun s k uid r lset redo hk hcl => ?_, fun s k p gpc word code lfm addrs set => ?_⟩
  · have hset := skein_stopped_set uid r lset redo (s := s) (k := k) (by rw [hk]; rfl)
    obtain ⟨es, he⟩ := skein_takeStop_same uid r lset redo (s := s) (k := k) (by rw [hk]; rfl)
    obtain ⟨hrec, hfb⟩ := takeStop_mender uid r lset redo hcl
    obtain ⟨hp, hl, hsets, hst, hstores, hstr, hlfm⟩ := stopped_fields k uid r lset redo
    refine ⟨hrec, hfb, fun hs => ?_, fun sid h => skein_takeStop_other s k uid r lset redo h, _, he, ?_⟩
    · have hm := mem_release _ (fun _ => true) true hset (hstores.trans hs)
      have hb : (if r.cause == 5 then s.freeParks k else s).mem = s.mem := by split <;> rfl
      exact hm.trans hb
    · exact ⟨rfl, rfl, hp, hl, hsets, hst, hstr, hlfm, stopped_splits k uid r lset redo⟩
  · have he : addrs.isEmpty = true ↔ addrs = [] := List.isEmpty_iff
    simp only [State.trapStop, Skein.record, Skein.coreId, Skein.slotId, he]

end Sys2Proof.Machine
end

section
/-! SUPPORT. What the operand checks and the write of a lane instruction leave (R14, R25, R87, R88). -/

namespace Sys2Proof.Machine

/-! ## The answers of the operand checks (R22, R33, R87, R349) -/

/-- The operand checks meet a trap with no address, or the error of a failed register, whose state differs from the issue's in its skeins
by the writes that have landed. -/
theorem operands_error {i : Iss} {ops : List Opd} {c : Check} (h : i.operands ops = .error c) :
    (∃ code lfm set, c = .trap code lfm [] set) ∨
      ∃ lfm set t, ∃ u : Skein, c = .dataError 0xCC06 lfm [] set (State.countError t u.coreId 0 6) ∧
        (t = i.s ∨ t = (i.readLanded ops).s) := by
  have intact (y : Iss) (hy : y.intact ops = .error c) :
      ∃ lfm set, c = .dataError 0xCC06 lfm [] set (y.s.countError y.k.coreId 0 6) := by
    unfold Iss.intact at hy
    dsimp only at hy
    split at hy
    · cases hy
    · exact ⟨_, _, (Except.error.inj hy).symm⟩
  unfold Iss.operands Iss.operandsBut at h
  split at h
  · cases h
  · dsimp only at h
    split at h
    · exact .inl ⟨_, _, _, (Except.error.inj h).symm⟩
    · split at h
      · exact .inl ⟨_, _, _, (Except.error.inj h).symm⟩
      · split at h
        · obtain ⟨lfm, set, e⟩ := intact _ h
          exact .inr ⟨lfm, set, _, _, e, .inl rfl⟩
        · split at h
          · exact .inl ⟨_, _, _, (Except.error.inj h).symm⟩
          · obtain ⟨lfm, set, e⟩ := intact _ h
            exact .inr ⟨lfm, set, _, _, e, .inr rfl⟩

/-- A skein written over one of its own identity. -/
theorem setSkein_setSkein (s : State) {j k : Skein} (h : j.id = k.id) : (s.setSkein j).setSkein k = s.setSkein k := by
  have e : putBy Skein.id k (putBy Skein.id j s.skeins) = putBy Skein.id k s.skeins := by
    unfold putBy
    rw [List.map_map]
    refine List.map_congr_left fun y _ => ?_
    simp only [Function.comp_apply]
    by_cases hy : y.id = k.id
    · simp [hy, h]
    · simp [hy, h]
  show { s with skeins := putBy Skein.id k (putBy Skein.id j s.skeins) } = _
  rw [e]
  rfl

/-- With no write outstanding no write lands. -/
theorem landThose_nil {k : Skein} (hp : k.pend = []) (f : Pend → Bool) : k.landThose f = k := by
  unfold Skein.landThose
  rw [hp]
  show { k with lanes := k.lanes, pend := [], badRegs := k.badRegs } = k
  rw [← hp]

/-- With no write outstanding the operand checks leave the skein, its split, and the state that the word then writes. -/
theorem operands_leave {i x : Iss} {ops : List Opd} (hp : i.k.pend = []) (h : i.operands ops = .ok x) :
    x.k = i.k ∧ x.p = i.p ∧ ∀ w : Skein, w.id = i.k.id → x.put w = i.put w := by
  cases hk : i.kept with
  | none =>
    rw [operands_of_no_pend hk hp h]
    exact ⟨rfl, rfl, fun _ _ => rfl⟩
  | some z =>
    unfold Iss.operands Iss.operandsBut at h
    rw [hk] at h
    cases h
    have hl := landThose_nil hp fun q => q.hits ops i.p.em && q.binds i.p && !q.exempt i.p
    refine ⟨hl, rfl, fun w hw => ?_⟩
    show State.setSkein (State.setSkein { i.s with free := i.s.free + (i.k.landThose _).pend.length } (i.k.landThose _)) w = i.s.setSkein w
    rw [hl, hp, setSkein_setSkein _ hw.symm]
    rfl

/-! ## A word after its effect (R31, R370, R373) -/

/-- A word whose skein's step bit is clear leaves, after its effect, the skein with its windows shorter and its stub followed. -/
theorem afterWord_eq {t : State} {sid uid : Nat} {w : Skein} {counted : Bool} (h : t.skein? sid = some w) :
    t.afterWord sid uid false counted = t.setSkein (w.afterIssue uid counted) := by
  unfold State.afterWord
  rw [h]
  rfl

/-- The split that has issued, with its stub followed where it ends (R370). -/
def Split.followStub (p : Split) : Split :=
  match p.stub with
  | some (e, r) => if p.pc == e then { p with pc := r, stub := none } else p
  | none => p

theorem followStub_eq (p : Split) : p.followStub = { p with pc := p.followStub.pc, stub := p.followStub.stub } := by
  unfold Split.followStub
  split
  · split <;> rfl
  · rfl

theorem followStub_uid (p : Split) : p.followStub.uid = p.uid := by rw [followStub_eq]

theorem afterIssue_splits (k : Skein) (uid : Nat) (counted : Bool) :
    (k.afterIssue uid counted).splits = k.splits.map fun p => if p.uid == uid then p.followStub else p := rfl

/-- A split that has not issued is as before. -/
theorem split_afterIssue_other (k : Skein) {uid u : Nat} (counted : Bool) (h : u ≠ uid) :
    (k.afterIssue uid counted).split? u = k.split? u := by
  unfold Skein.split?
  rw [afterIssue_splits, find_map_key Split.uid _ fun p => by
    split
    · exact followStub_uid p
    · rfl]
  show (k.split? u).map _ = k.split? u
  cases hu : k.split? u with
  | none => rfl
  | some p => exact congrArg some (if_neg (by rw [split_uid hu]; simpa using h))

theorem split_afterIssue_same {k : Skein} {uid : Nat} {p : Split} (counted : Bool) (h : k.split? uid = some p) :
    (k.afterIssue uid counted).split? uid = some p.followStub := by
  unfold Skein.split?
  rw [afterIssue_splits, find_map_key Split.uid _ fun p => by
    split
    · exact followStub_uid p
    · rfl]
  show (k.split? uid).map _ = _
  rw [h]
  exact congrArg some (if_pos (by rw [split_uid h]; exact beq_self_eq_true uid))

/-- Another split is not affected by a change of one. -/
theorem split_setSplit_other (k : Skein) (p : Split) {u : Nat} (h : u ≠ p.uid) : (k.setSplit p).split? u = k.split? u :=
  find_putBy_other Split.uid p u h k.splits

/-! ## Lane instructions (R25, R30, R88) -/

theorem slices_pos (w : Width) : 0 < w.slices := by cases w <;> decide

/-- A word checks operands and then writes the slices of a destination at its issue. -/
def ChecksAndWrites (i : Instr) (s : State) (k : Skein) (p : Split) (d n : Nat) : Prop :=
  ∃ (body : Iss → Res State) (ops : List Opd) (v : Iss → Nat → Nat), exec i s = issue i s body ∧
    body (Iss.start s k p) = ((Iss.start s k p).operands ops >>= fun y => .ok (y.put (y.wr d n (v y) y.rset)))

theorem laneRow_checks_and_writes {i : Instr} {r : LaneRow} (h : laneRow i = some r) (s : State) (k : Skein) (p : Split) :
    ChecksAndWrites i s k p r.d (r.ws p.hints).d.slices :=
  ⟨_, r.opds (Iss.start s k p), fun y l =>
      r.value y.h (r.ws p.hints) (y.raw l r.d (r.ws p.hints).d.slices) (y.raw (y.h.srcA l) r.a (r.ws p.hints).a.slices)
        (y.raw (y.h.srcB l) r.b (r.ws p.hints).b.slices), exec_of_laneRow h s, rfl⟩

theorem movi_checks_and_writes (w : Width) (d : BitVec 8) (imm : BitVec 7) (s : State) (k : Skein) (p : Split) :
    ChecksAndWrites (.movi w d imm) s k p d.toNat w.slices :=
  ⟨fun x => x.operands [opdOut d.toNat w.slices] >>= fun x =>
      .ok (x.put (x.wr d.toNat w.slices (fun _ => wrap w.bits (x.h.imm imm true)) x.rset)),
    [opdOut d.toNat w.slices], fun y _ => wrap w.bits (y.h.imm imm true), rfl, rfl⟩

theorem lane_checks_and_writes {i : Instr} {p : Split} {d n : Nat} (h : laneOut i p.hints = some (d, n)) (s : State) (k : Skein) :
    0 < n ∧ ChecksAndWrites i s k p d n := by
  unfold laneOut at h
  split at h
  · next w dst imm =>
    cases h
    exact ⟨slices_pos _, movi_checks_and_writes w dst imm s k p⟩
  · obtain ⟨r, hr, hd⟩ := Option.map_eq_some_iff.mp h
    cases hd
    exact ⟨slices_pos _, laneRow_checks_and_writes hr s k p⟩

/-- A stopped skein has a stop. -/
theorem stop_of_trapStop {s : State} {j k' : Skein} {p : Split} {gpc word : Addr} {code : BitVec 16} {lfm : Mask} {addrs : List (Nat × Nat)}
    {set : OSet} (h : (s.skein? j.id).isSome) (e : (s.trapStop j p gpc word code lfm addrs set).skein? j.id = some k') : k'.stop ≠ none := by
  unfold State.trapStop at e
  obtain ⟨es, he⟩ := skein_takeStop_same p.uid _ set none h
  rw [he] at e
  cases e
  exact Option.some_ne_none _

theorem skein_start {s : State} {k : Skein} {p : Split} (h : s.skein? k.id = some k) :
    (Iss.start s k p).s.skein? k.id = some (Iss.start s k p).k :=
  skein_setSkein_same (s := s) (k := (Iss.start s k p).k) (by
    show (s.skein? k.id).isSome
    rw [h]
    rfl)

theorem skein_countError (s : State) (core pa level n : Nat) : (s.countError core pa level).skein? n = s.skein? n := by
  unfold State.countError
  split <;> rfl

theorem withSplit_id {t : State} {k : Skein} {p : Split} (h : (t.skein? k.id).isSome) : (t.withSplit k p).id = k.id := by
  obtain ⟨j, hj⟩ := Option.isSome_iff_exists.mp h
  have e : t.withSplit k p = j.setSplit p := by rw [State.withSplit, hj, Option.getD_some]
  have hid := skein_id hj
  rw [e]
  exact hid

/-- Writes that land leave the skein where it is found. -/
theorem skein_readLanded {x : Iss} (ops : List Opd) (h : (x.s.skein? x.k.id).isSome) : ((x.readLanded ops).s.skein? x.k.id).isSome := by
  have := skein_setSkein_same (s := { x.s with free := x.s.free + (x.readLanded ops).k.pend.length }) (k := (x.readLanded ops).k) h
  exact Option.isSome_iff_exists.mpr ⟨_, this⟩

/-- A word whose operand checks meet a cause leaves its skein stopped. -/
theorem stop_of_operands_error {i : Instr} {s t : State} {k k' : Skein} {p : Split} {body : Iss → Res State} {ops : List Opd} {c : Check}
    (hc : s.current = some (k, p)) (hf : groupFault i (p.hints.gpc.getD p.pc) p.pc p.hints = none)
    (ho : (Iss.start s k p).operands ops = .error c) (hb : body (Iss.start s k p) = .error c) (he : issue i s body = .next t)
    (hk : t.skein? k.id = some k') : k'.stop ≠ none := by
  obtain ⟨hsk, -, -, -⟩ := current_cases hc
  rcases operands_error ho with ⟨code, lfm, set, rfl⟩ | ⟨lfm, set, u, j, rfl, hu⟩
  · rw [issue_trap hc hf hb] at he
    cases he
    exact stop_of_trapStop (by rw [hsk]; rfl) hk
  · rw [issue_dataError hc hf hb] at he
    cases he
    have hstart : ((Iss.start s k p).s.skein? k.id).isSome := by rw [skein_start hsk]; rfl
    have hcount : ((State.countError u j.coreId 0 6).skein? k.id).isSome := by
      rw [skein_countError]
      rcases hu with rfl | rfl
      · exact hstart
      · exact skein_readLanded ops hstart
    have hid := withSplit_id (p := p) hcount
    exact stop_of_trapStop (by rw [hid]; exact hcount) (by rw [hid]; exact hk)

/-- A word that has written its skein over the state leaves it with its windows shorter and its stub followed. -/
theorem afterWord_written {s : State} {k w : Skein} {uid : Nat} {counted : Bool} (h : (s.skein? k.id).isSome) (hw : w.id = k.id) :
    (s.setSkein w).afterWord k.id uid false counted = s.setSkein (w.afterIssue uid counted) := by
  have hread := skein_setSkein_same (s := s) (k := w) (by rw [hw]; exact h)
  rw [hw] at hread
  rw [afterWord_eq hread]
  exact setSkein_setSkein s rfl

/-- A lane instruction that leaves its skein running has passed its operand checks, and has written its destination. -/
theorem lane_completed {i : Instr} {s t : State} {k k' : Skein} {p : Split} {d n : Nat} (hb : ChecksAndWrites i s k p d n)
    (hc : s.current = some (k, p)) (hp : k.pend = []) (hstep : k.swlo.getLsbD 1 = false) (he : exec i s = .next t)
    (hk : t.skein? k.id = some k') (hstop : k'.stop = none) :
    ∃ (y : Iss) (v : Nat → Nat), y.k = (Iss.start s k p).k ∧ y.p = (Iss.start s k p).p ∧
      k' = (y.wr d n v y.rset).afterIssue p.uid p.counted ∧ t = s.setSkein k' := by
  obtain ⟨hsk, -, -, -⟩ := current_cases hc
  have hsome : (s.skein? k.id).isSome := by rw [hsk]; rfl
  obtain ⟨body, ops, v, hexec, hbody⟩ := hb
  rw [hexec] at he
  cases hf : groupFault i (p.hints.gpc.getD p.pc) p.pc p.hints with
  | some w =>
    rw [issue_illegal hc hf] at he
    cases he
    exact absurd hstop (stop_of_trapStop hsome hk)
  | none =>
    cases ho : (Iss.start s k p).operands ops with
    | error c =>
      rw [res_bind_error ho] at hbody
      exact absurd hstop (stop_of_operands_error hc hf ho hbody he hk)
    | ok y =>
      obtain ⟨hyk, hyp, hput⟩ := operands_leave (i := Iss.start s k p) hp ho
      rw [res_bind_ok ho] at hbody
      have hw : (y.wr d n (v y) y.rset).id = k.id := (congrArg Skein.id hyk).trans rfl
      have hT : y.put (y.wr d n (v y) y.rset) = s.setSkein (y.wr d n (v y) y.rset) :=
        (hput _ hw).trans (setSkein_setSkein s hw.symm)
      rw [issue_ok hc hf hbody, hstep, hT, afterWord_written hsome hw] at he
      cases he
      have hid : ((y.wr d n (v y) y.rset).afterIssue p.uid p.counted).id = k.id := hw
      have hread := skein_setSkein_same (s := s) (k := (y.wr d n (v y) y.rset).afterIssue p.uid p.counted) (by rw [hid]; exact hsome)
      rw [hid, hk] at hread
      cases hread
      exact ⟨y, v y, hyk, hyp, rfl, rfl⟩

/-- The pending writes after a write with none outstanding. -/
theorem pend_wr_afterIssue {y : Iss} {d n : Nat} {v : Nat → Nat} {set : OSet} {uid : Nat} {counted : Bool} (h : y.k.pend = []) :
    ((y.wr d n v set).afterIssue uid counted).pend = [] := by
  have hw : (y.wr d n v set).pend = [] := by
    show y.k.pend.map _ = []
    rw [h]
    rfl
  unfold Skein.afterIssue
  simp [hw]

/-- Settles O14: the write leaves what is outside the destination, and what follows the issue leaves all but the split's progress. -/
theorem laneFrame : Obligations.LaneFrame := by
  intro i s t k k' p d n hout hc hp hstep he hk hstop
  obtain ⟨hn, hb⟩ := lane_checks_and_writes hout s k
  obtain ⟨hsk, hsp, -, -⟩ := current_cases hc
  obtain ⟨y, v, hyk, hyp, rfl, rfl⟩ := lane_completed hb hc hp hstep he hk hstop
  have hem : y.p.em = p.em := (congrArg Split.em hyp).trans rfl
  have hlanes : y.k.lanes = k.lanes := (congrArg Skein.lanes hyk).trans rfl
  have hsets : y.k.sets = k.sets := (congrArg Skein.sets hyk).trans rfl
  have hid : ((y.wr d n v y.rset).afterIssue p.uid p.counted).id = k.id := (congrArg Skein.id hyk).trans rfl
  have hsplits : (y.wr d n v y.rset).splits = (Iss.start s k p).k.splits := (congrArg Skein.splits hyk).trans rfl
  refine ⟨fun l sl j hl hj h => ?_, fun g hg h => ?_, fun sid h => ?_, rfl, ?_, fun u hu => ?_, ?_⟩
  · rw [← hlanes]
    exact wr_keeps (set := y.rset) hl hj (by rw [hem]; exact h)
  · rw [← hsets]
    exact wr_keeps_set (v := v) hn hg h
  · exact skein_setSkein_other _ _ _ (by rw [hid]; exact h)
  · have hpend : ((y.wr d n v y.rset).afterIssue p.uid p.counted).pend = k.pend := by
      rw [hp]
      exact pend_wr_afterIssue (by rw [hyk]; exact hp)
    have e : (y.wr d n v y.rset).afterIssue p.uid p.counted = { y.k with
        lanes := ((y.wr d n v y.rset).afterIssue p.uid p.counted).lanes, sets := ((y.wr d n v y.rset).afterIssue p.uid p.counted).sets,
        splits := ((y.wr d n v y.rset).afterIssue p.uid p.counted).splits, badRegs := ((y.wr d n v y.rset).afterIssue p.uid p.counted).badRegs,
        pend := ((y.wr d n v y.rset).afterIssue p.uid p.counted).pend } := rfl
    generalize (y.wr d n v y.rset).afterIssue p.uid p.counted = a at hpend e ⊢
    rw [hyk, hpend] at e
    exact e
  · rw [split_afterIssue_other _ _ hu]
    show (y.wr d n v y.rset).splits.find? _ = _
    rw [hsplits]
    exact split_setSplit_other k (Iss.start s k p).p hu
  · refine ⟨_, split_afterIssue_same (p := (Iss.start s k p).p) _ ?_, ?_⟩
    · show (y.wr d n v y.rset).splits.find? _ = _
      rw [hsplits]
      exact split_setSplit_same (p := (Iss.start s k p).p) (by rw [show (Iss.start s k p).p.uid = p.uid from rfl, hsp]; rfl)
    · exact followStub_eq _

end Sys2Proof.Machine
end

section
/-! SUPPORT. What the operand checks read, land and answer (R14, R22, R24, R32, R33, R87, R349). -/

namespace Sys2Proof.Machine

/-! ## Bits of joins -/

theorem getLsbD_foldl_or {α : Type} {w : Nat} (f : α → BitVec w) (l : List α) (m : BitVec w) (t : Nat) :
    (l.foldl (fun a x => a ||| f x) m).getLsbD t = (m.getLsbD t || l.any fun x => (f x).getLsbD t) := by
  induction l generalizing m with
  | nil => simp
  | cons x l ih => rw [List.foldl_cons, ih, BitVec.getLsbD_or, List.any_cons, Bool.or_assoc]

/-- A join of what some elements of a list add. -/
theorem getLsbD_foldl_if {α : Type} {w : Nat} (c : α → Bool) (f : α → BitVec w) (l : List α) (m : BitVec w) (t : Nat) :
    (l.foldl (fun a x => if c x then a ||| f x else a) m).getLsbD t = (m.getLsbD t || l.any fun x => c x && (f x).getLsbD t) := by
  induction l generalizing m with
  | nil => simp
  | cons x l ih =>
    rw [List.foldl_cons, ih, List.any_cons]
    cases c x with
    | false => simp
    | true => simp [Bool.or_assoc]

theorem getLsbD_maskOf (f : Nat → Bool) (l : Nat) : (maskOf f).getLsbD l = (decide (l < 32) && f l) := by
  unfold maskOf
  rw [getLsbD_foldl_if f (fun x => 1#32 <<< x), BitVec.getLsbD_zero, Bool.false_or, Bool.eq_iff_iff]
  simp only [laneIds, List.any_eq_true, List.mem_range, Bool.and_eq_true, decide_eq_true_eq, BitVec.getLsbD_shiftLeft, BitVec.getLsbD_one,
    Bool.not_eq_true', decide_eq_false_iff_not]
  constructor
  · rintro ⟨x, hx, hf, ⟨hl, hge⟩, -, h0⟩
    have : l = x := by omega
    exact ⟨hl, this ▸ hf⟩
  · rintro ⟨hl, hf⟩
    exact ⟨l, hl, hf, ⟨hl, by omega⟩, by omega, by omega⟩

/-- A word of bits is not zero when one of its bits is set. -/
theorem ne_zero_iff_bit {w : Nat} (x : BitVec w) : x ≠ 0 ↔ ∃ b, x.getLsbD b = true := by
  constructor
  · intro h
    by_contra hb
    exact h (BitVec.eq_of_getLsbD_eq fun i _ => by
      rw [Bool.eq_false_iff.mpr fun e => hb ⟨i, e⟩]
      exact BitVec.getLsbD_zero.symm)
  · rintro ⟨b, hb⟩ rfl
    exact absurd hb (Bool.eq_false_iff.mp BitVec.getLsbD_zero)

/-! ## The writes that land (R22, R32) -/

theorem landWhere_files (f : Pend → Bool) (qs : List Pend) (files : List LaneFile) :
    (landWhere f qs files).1 = (qs.filter f).foldl (fun g q => mergeLanes g q.img q.masks) files := by
  induction qs generalizing files with
  | nil => rfl
  | cons q qs ih =>
    unfold landWhere
    by_cases h : f q
    · rw [if_pos h, ih, List.filter_cons_of_pos h, List.foldl_cons]
    · rw [if_neg h, List.filter_cons_of_neg h]
      exact ih files

/-- A write that stays is one that does not satisfy the test, without the slices that later writes took. -/
theorem mem_landWhere {f : Pend → Bool} {qs : List Pend} {files : List LaneFile} {q : Pend} (h : q ∈ (landWhere f qs files).2) :
    ∃ o ∈ qs, f o = false ∧ ∃ ms, q = trimPend ms o := by
  induction qs generalizing files with
  | nil => cases h
  | cons o qs ih =>
    unfold landWhere at h
    by_cases hf : f o
    · rw [if_pos hf] at h
      obtain ⟨o', ho', hf', hq⟩ := ih h
      exact ⟨o', List.mem_cons_of_mem _ ho', hf', hq⟩
    · rw [if_neg hf] at h
      rcases List.mem_cons.mp h with rfl | h
      · exact ⟨o, List.mem_cons_self .., Bool.eq_false_iff.mpr hf, _, rfl⟩
      · obtain ⟨o', ho', hf', hq⟩ := ih h
        exact ⟨o', List.mem_cons_of_mem _ ho', hf', hq⟩

/-- A write that has lost slices meets no operand that it did not meet before. -/
theorem hits_of_trimPend {ms : List LaneFile} {q : Pend} {ops : List Opd} {em : Mask} (h : (trimPend ms q).hits ops em = true) :
    q.hits ops em = true := by
  obtain ⟨l, hl, hb⟩ := List.any_eq_true.mp h
  refine List.any_eq_true.mpr ⟨l, hl, ?_⟩
  have hlt : l < 32 := List.mem_range.mp hl
  simp only [bne_iff_ne] at hb ⊢
  obtain ⟨b, hb⟩ := (ne_zero_iff_bit _).mp hb
  refine (ne_zero_iff_bit _).mpr ⟨b, ?_⟩
  unfold trimPend at hb
  rw [getD_range32_map _ _ hlt] at hb
  simp only [BitVec.getLsbD_and, Bool.and_eq_true] at hb ⊢
  exact ⟨hb.1.1, hb.2⟩

/-- The writes for which a word waits (R22). -/
def Iss.lands (x : Iss) (ops : List Opd) (q : Pend) : Bool := q.hits ops x.p.em && q.binds x.p && !q.exempt x.p

theorem lands_trimPend {x : Iss} {ops : List Opd} {ms : List LaneFile} {q : Pend} (h : x.lands ops q = false) :
    x.lands ops (trimPend ms q) = false := by
  cases hh : (trimPend ms q).hits ops x.p.em with
  | false => simp [Iss.lands, hh]
  | true =>
    have hq := hits_of_trimPend hh
    unfold Iss.lands at h ⊢
    rw [hq] at h
    rw [hh]
    exact h

/-- The skein after the operand checks: with every write landed for which the word waits. -/
theorem operands_k {x y : Iss} {ops : List Opd} (h : x.operands ops = .ok y) : y.k = x.k.landThose (x.lands ops) := by
  unfold Iss.operands Iss.operandsBut at h
  split at h
  · cases h
    rfl
  · dsimp only at h
    split at h
    · cases h
    · split at h
      · cases h
      · split at h
        · next hp =>
          rw [intact_ok h, landThose_nil (List.isEmpty_iff.mp hp)]
        · split at h
          · cases h
          · rw [intact_ok h]
            rfl

/-- What a word that is no replay reads: lane files in which a pending slice is old or new, and the sets of its registers. -/
theorem operands_reads {x y : Iss} {ops : List Opd} (hn : x.kept = none) (h : x.operands ops = .ok y) :
    y.files = resolveFiles x.s.free y.k.pend y.k.lanes ∧ y.rd = x.readSets y.k ops := by
  have hk := operands_k h
  by_cases hp : x.k.pend = []
  · have e := operands_of_no_pend hn hp h
    rw [e]
    show x.k.lanes = resolveFiles _ x.k.pend _ ∧ _
    rw [hp]
    exact ⟨rfl, rfl⟩
  · unfold Iss.operands Iss.operandsBut at h
    rw [hn] at h
    dsimp only at h
    split at h
    · cases h
    · split at h
      · cases h
      · split at h
        · next he => exact absurd (List.isEmpty_iff.mp he) hp
        · split at h
          · cases h
          · rw [intact_ok h]
            exact ⟨rfl, rfl⟩

/-! ## Pending slices are read old or new (R32, R77) -/

/-- A slice that no write has pending is read as it stands. -/
theorem resolveFiles_settled {n : Nat} {qs : List Pend} {files : List LaneFile} {l j : Nat} (hl : l < 32)
    (h : ∀ q ∈ qs, (q.masks.getD l 0).getLsbD j = false) :
    ((resolveFiles n qs files).getD l 0).getLsbD j = (files.getD l 0).getLsbD j := by
  induction qs generalizing n files with
  | nil => rfl
  | cons q qs ih =>
    unfold resolveFiles
    rw [ih fun o ho => h o (List.mem_cons_of_mem _ ho), getLsbD_mergeLanes _ _ _ hl, getD_range32_map _ _ hl, BitVec.getLsbD_and,
      h q (List.mem_cons_self ..), Bool.false_and, if_neg Bool.false_ne_true]

/-- A slice is read as it stands or as a write that has it pending leaves it. -/
theorem resolveFiles_old_or_new {n : Nat} {qs : List Pend} {files : List LaneFile} {l : Nat} (j : Nat) (hl : l < 32) :
    ((resolveFiles n qs files).getD l 0).getLsbD j = (files.getD l 0).getLsbD j ∨
      ∃ q ∈ qs, (q.masks.getD l 0).getLsbD j = true ∧ ((resolveFiles n qs files).getD l 0).getLsbD j = (q.img.getD l 0).getLsbD j := by
  induction qs generalizing n files with
  | nil => exact .inl rfl
  | cons q qs ih =>
    unfold resolveFiles
    rcases ih (n := n + 1) (files := mergeLanes files q.img ((List.range 32).map fun l => q.masks.getD l 0 &&& sliceSpread (Config.freeSlices n l)))
      with h | ⟨o, ho, hm, h⟩
    · rw [getLsbD_mergeLanes _ _ _ hl, getD_range32_map _ _ hl, BitVec.getLsbD_and] at h
      by_cases hb : ((q.masks.getD l 0).getLsbD j && (sliceSpread (Config.freeSlices n l)).getLsbD j) = true
      · rw [if_pos hb] at h
        exact .inr ⟨q, List.mem_cons_self .., (Bool.and_eq_true_iff.mp hb).1, h⟩
      · rw [if_neg hb] at h
        exact .inl h
    · exact .inr ⟨o, List.mem_cons_of_mem _ ho, hm, h⟩

/-! ## The sets that operands read (R24, R32) -/

/-- An operand reads a slice of a register that a write has pending. -/
theorem reads_pending_iff {o : Opd} {q : Pend} {r : Nat} :
    (laneIds.any fun l => inMask o.lanes l && (q.masks.getD l 0 &&& o.mask &&& sliceMask (8 * r) 8) != 0) = true ↔
      ∃ l sl j, l < 32 ∧ j < 4 ∧ o.lanes.getLsbD l = true ∧ o.start ≤ sl ∧ sl < o.start + o.n ∧ sl / 8 = r ∧
        (q.masks.getD l 0).getLsbD (4 * sl + j) = true := by
  simp only [List.any_eq_true, laneIds, List.mem_range, Bool.and_eq_true, bne_iff_ne, ne_zero_iff_bit, BitVec.getLsbD_and, Opd.mask]
  constructor
  · rintro ⟨l, hl, hin, b, ⟨hm, ho⟩, hr⟩
    rw [getLsbD_sliceMask] at ho hr
    simp only [Bool.and_eq_true, decide_eq_true_eq] at ho hr
    refine ⟨l, b / 4, b % 4, hl, by omega, hin, by omega, by omega, by omega, ?_⟩
    rw [Nat.div_add_mod]
    exact hm
  · rintro ⟨l, sl, j, hl, hj, hin, h1, h2, h3, hm⟩
    have hb : 4 * sl + j < 1024 := BitVec.lt_of_getLsbD hm
    refine ⟨l, hl, hin, 4 * sl + j, ⟨hm, ?_⟩, ?_⟩
    · rw [getLsbD_sliceMask_slice _ _ _ _ hj]
      simp only [Bool.and_eq_true, decide_eq_true_eq]
      omega
    · rw [getLsbD_sliceMask_slice _ _ _ _ hj]
      simp only [Bool.and_eq_true, decide_eq_true_eq]
      omega

/-- The older set that a write keeps of a register (R32). -/
theorem old_bit_iff {q : Pend} {r t : Nat} :
    ((q.old.find? (·.1 == r)).elim (0 : OSet) (·.2)).getLsbD t = true ↔ ∃ e, q.old.find? (·.1 == r) = some e ∧ e.2.getLsbD t = true := by
  cases q.old.find? (·.1 == r) with
  | none => simp
  | some e => simp

/-- The set of a register as an operand reads it. -/
theorem readSet_bit_iff {k : Skein} {o : Opd} {r t : Nat} :
    (k.readSet o r).getLsbD t = true ↔ (k.sets.getD r 0).getLsbD t = true ∨
      ∃ q ∈ k.pend, ∃ l sl j, l < 32 ∧ j < 4 ∧ o.lanes.getLsbD l = true ∧ o.start ≤ sl ∧ sl < o.start + o.n ∧ sl / 8 = r ∧
        (q.masks.getD l 0).getLsbD (4 * sl + j) = true ∧ ∃ e, q.old.find? (·.1 == r) = some e ∧ e.2.getLsbD t = true := by
  unfold Skein.readSet
  rw [getLsbD_foldl_if, Bool.or_eq_true_iff, List.any_eq_true]
  refine or_congr Iff.rfl (exists_congr fun q => and_congr Iff.rfl ?_)
  rw [Bool.and_eq_true_iff, reads_pending_iff, old_bit_iff]
  constructor
  · rintro ⟨⟨l, sl, j, h1, h2, h3, h4, h5, h6, h7⟩, he⟩
    exact ⟨l, sl, j, h1, h2, h3, h4, h5, h6, h7, he⟩
  · rintro ⟨l, sl, j, h1, h2, h3, h4, h5, h6, h7, he⟩
    exact ⟨⟨l, sl, j, h1, h2, h3, h4, h5, h6, h7⟩, he⟩

/-- The sets read so far with those that operands add. -/
theorem readSets_bit_iff {x : Iss} {k : Skein} {ops : List Opd} {t : Nat} :
    (x.readSets k ops).getLsbD t = true ↔
      x.rd.getLsbD t = true ∨ ∃ o ∈ ops, o.reads = true ∧ ∃ r ∈ regsOf o.start o.n, (k.readSet o r).getLsbD t = true := by
  unfold Iss.readSets
  rw [getLsbD_foldl_or, Bool.or_eq_true_iff, List.any_eq_true]
  refine or_congr Iff.rfl (exists_congr fun o => and_congr Iff.rfl ?_)
  unfold Skein.opdSet
  cases o.reads with
  | false => simp
  | true => simp [getLsbD_foldl_or]

/-! ## The answers of the checks in their order (R14, R33, R87, R349) -/

/-- What a word that is no replay has read while no write has landed for it. -/
def Iss.unlanded (x : Iss) (ops : List Opd) : Iss := { x with rd := x.readSets { x.k with pend := [] } ops, files := x.k.lanes }

/-- Some operand lies beyond the skein's window (R14). -/
def Iss.beyond (x : Iss) (ops : List Opd) : Prop := ∃ o ∈ ops, x.k.window < o.start + o.n

/-- Some operand is misaligned (R18). -/
def skewed (ops : List Opd) : Prop := ∃ o ∈ ops, o.start % o.align ≠ 0

/-- Some operand meets a write inside its lookahead window under `sw.lkchk` (R33). -/
def Iss.meetsEarly (x : Iss) (ops : List Opd) : Prop :=
  x.k.swlo.getLsbD 0 = true ∧ ∃ q ∈ x.k.pend, q.exempt x.p = true ∧ q.hits ops x.p.em = true

/-- An operand reads a failed register in a lane (R349). -/
def Iss.readsBad (x : Iss) (ops : List Opd) (l : Nat) : Prop :=
  ∃ r, (l, r) ∈ x.k.badRegs ∧ ∃ o ∈ ops, o.reads = true ∧ o.lanes.getLsbD l = true ∧ r ∈ regsOf o.start o.n

theorem beyond_iff {x : Iss} {ops : List Opd} : (ops.any fun o => decide (x.k.window < o.start + o.n)) = true ↔ x.beyond ops := by
  simp [Iss.beyond]

theorem skewed_iff {ops : List Opd} : (ops.any fun o => o.start % o.align != 0) = true ↔ skewed ops := by
  simp [skewed]

theorem early_iff {x : Iss} {ops : List Opd} :
    (true && x.k.swlo.getLsbD 0 && x.k.pend.any fun q => q.exempt x.p && q.hits ops x.p.em) = true ↔ x.meetsEarly ops := by
  simp [Iss.meetsEarly]

theorem operands_beyond {x : Iss} {ops : List Opd} (hn : x.kept = none) (h : x.beyond ops) :
    x.operands ops = (x.unlanded ops).trap 0x8201 x.p.em := by
  unfold Iss.operands Iss.operandsBut
  rw [hn]
  exact if_pos (beyond_iff.mpr h)

theorem operands_skewed {x : Iss} {ops : List Opd} (hn : x.kept = none) (hb : ¬x.beyond ops) (h : skewed ops) :
    x.operands ops = (x.unlanded ops).trap 0x8202 x.p.em := by
  unfold Iss.operands Iss.operandsBut
  rw [hn]
  exact (if_neg fun c => hb (beyond_iff.mp c)).trans (if_pos (skewed_iff.mpr h))

theorem operands_early {x : Iss} {ops : List Opd} (hn : x.kept = none) (hb : ¬x.beyond ops) (hs : ¬skewed ops) (h : x.meetsEarly ops) :
    x.operands ops = (x.unlanded ops).trap 0x8700 x.p.em := by
  have hp : ¬x.k.pend.isEmpty = true := fun e => by
    obtain ⟨-, q, hq, -⟩ := h
    rw [List.isEmpty_iff.mp e] at hq
    cases hq
  unfold Iss.operands Iss.operandsBut
  rw [hn]
  exact (if_neg fun c => hb (beyond_iff.mp c)).trans <| (if_neg fun c => hs (skewed_iff.mp c)).trans <| (if_neg hp).trans <|
    if_pos (early_iff.mpr h)

/-- Operands that pass the earlier checks are read, with the writes for which the word waits landed, if their registers are sound. -/
theorem operands_passed {x : Iss} {ops : List Opd} (hn : x.kept = none) (hb : ¬x.beyond ops) (hs : ¬skewed ops) (he : ¬x.meetsEarly ops) :
    x.operands ops = if x.k.pend.isEmpty then (x.unlanded ops).intact ops else (x.readLanded ops).intact ops := by
  unfold Iss.operands Iss.operandsBut
  rw [hn]
  refine (if_neg fun c => hb (beyond_iff.mp c)).trans <| (if_neg fun c => hs (skewed_iff.mp c)).trans ?_
  by_cases hp : x.k.pend.isEmpty = true
  · rw [if_pos hp, if_pos hp]
    rw [← hn]
    rfl
  · rw [if_neg hp, if_neg hp]
    exact if_neg fun c => he (early_iff.mp c)

/-- A lane in which an operand reads a failed register, as the model asks for it. -/
theorem readsBad_iff {x : Iss} {ops : List Opd} {l : Nat} :
    (x.k.badRegs.any fun b => b.1 == l && ops.any fun o => o.reads && inMask o.lanes l && (regsOf o.start o.n).contains b.2) = true ↔
      x.readsBad ops l := by
  simp only [List.any_eq_true, Bool.and_eq_true, beq_iff_eq, List.contains_iff_mem, Iss.readsBad, inMask]
  constructor
  · rintro ⟨⟨l', r⟩, hb, rfl, o, ho, ⟨hr, hl⟩, hm⟩
    exact ⟨r, hb, o, ho, hr, hl, hm⟩
  · rintro ⟨r, hb, o, ho, hr, hl, hm⟩
    exact ⟨(l, r), hb, rfl, o, ho, ⟨hr, hl⟩, hm⟩

theorem lt_of_readsBad {x : Iss} {ops : List Opd} {l : Nat} (h : x.readsBad ops l) : l < 32 := by
  obtain ⟨-, -, o, -, -, hl, -⟩ := h
  exact BitVec.lt_of_getLsbD hl

theorem intact_of_sound {x : Iss} {ops : List Opd} (h : ∀ l, ¬x.readsBad ops l) : x.intact ops = .ok x := by
  refine if_pos ?_
  rw [Bool.not_eq_true', List.any_eq_false]
  exact fun l _ hl => h l (readsBad_iff.mp hl)

/-- A failed register that is read stops the word with exactly the lanes that read it. -/
theorem intact_of_failed {x : Iss} {ops : List Opd} (h : ∃ l, x.readsBad ops l) :
    ∃ lfm, x.intact ops = .error (.dataError 0xCC06 lfm [] (x.rd ||| x.p.co) (x.s.countError x.k.coreId 0 6)) ∧
      ∀ l, lfm.getLsbD l = true ↔ x.readsBad ops l := by
  obtain ⟨l, hl⟩ := h
  refine ⟨_, if_neg ?_, fun l => ?_⟩
  · rw [Bool.not_eq_true', Bool.not_eq_false, List.any_eq_true]
    exact ⟨l, List.mem_range.mpr (lt_of_readsBad hl), readsBad_iff.mpr hl⟩
  · rw [getLsbD_maskOf, Bool.and_eq_true, decide_eq_true_eq, readsBad_iff]
    exact ⟨And.right, fun h => ⟨lt_of_readsBad h, h⟩⟩

/-- Registers that are all sound stay so when writes land. -/
theorem badRegs_landThose {k : Skein} {f : Pend → Bool} (h : k.badRegs = []) : (k.landThose f).badRegs = [] := by
  show (k.pend.filter f).foldl (fun b q => mendRegs q.masks b) k.badRegs = []
  rw [h]
  induction k.pend.filter f with
  | nil => rfl
  | cons q qs ih => exact ih

theorem not_readsBad_of_sound {x : Iss} (h : x.k.badRegs = []) (ops : List Opd) (l : Nat) : ¬x.readsBad ops l := by
  rintro ⟨r, hr, -⟩
  rw [h] at hr
  cases hr

/-- Settles O22: the checks are the branches of `Iss.operandsBut` in their order; the landed writes are those of `landWhere`, and what a
pending slice or an older set gives is read bit by bit. -/
theorem operandChecks : Obligations.OperandChecks := by
  refine ⟨fun x y ops h => ?_, fun x ops hk => ?_, fun x ops hn => ?_⟩
  · obtain ⟨hh, -, -, hp, hkeep⟩ := operands_keeps h
    have hk := operands_k h
    have hsets : y.k.sets = x.k.sets := by rw [hkeep]
    refine ⟨hp, hh, hkeep, ?_, fun q hq => ?_, fun z hz => ?_, fun hn => ?_⟩
    · rw [hk]
      exact landWhere_files ..
    · rw [hk] at hq
      obtain ⟨o, ho, hf, ms, rfl⟩ := mem_landWhere hq
      exact ⟨lands_trimPend hf, o, ho, rfl⟩
    · unfold Iss.operands Iss.operandsBut at h
      rw [hz] at h
      cases h
      exact ⟨rfl, rfl⟩
    · obtain ⟨hf, hr⟩ := operands_reads hn h
      rw [hf, hr, ← hsets]
      refine ⟨fun l j hl _ => ⟨fun hq => resolveFiles_settled hl hq, resolveFiles_old_or_new j hl⟩, fun t _ => ?_⟩
      rw [readSets_bit_iff]
      simp only [readSet_bit_iff]
  · obtain ⟨z, hz⟩ := Option.ne_none_iff_exists'.mp hk
    refine ⟨x.again z ops, ?_⟩
    unfold Iss.operands Iss.operandsBut
    rw [hz]
  · refine ⟨fun hb => operands_beyond hn hb, fun hb hs => operands_skewed hn hb hs, fun hb hs he => operands_early hn hb hs he,
      fun hb hs he => ?_⟩
    have hpass := operands_passed hn hb hs he
    refine ⟨fun hbad => ?_, fun hp => ?_⟩
    · rw [hpass]
      split
      · exact ⟨_, intact_of_sound fun l => not_readsBad_of_sound (x := x.unlanded ops) hbad ops l⟩
      · exact ⟨_, intact_of_sound fun l => not_readsBad_of_sound (x := x.readLanded ops) (badRegs_landThose hbad) ops l⟩
    · rw [hpass, if_pos (List.isEmpty_iff.mpr hp)]
      exact ⟨fun hs => ⟨_, intact_of_sound (x := x.unlanded ops) hs, rfl, rfl, rfl, rfl, rfl⟩,
        fun hf => intact_of_failed (x := x.unlanded ops) hf⟩

end Sys2Proof.Machine
end

section
/-! SUPPORT. What a store checks before its bytes wait (R24, R27, R119, R191). -/

namespace Sys2Proof.Machine

/-! ## Masks of lanes -/

theorem getLsbD_maskOfLanes (ls : List Nat) (l : Nat) : (maskOfLanes ls).getLsbD l = true ↔ l < 32 ∧ l ∈ ls := by
  unfold maskOfLanes
  rw [getLsbD_maskOf, Bool.and_eq_true, decide_eq_true_eq, List.contains_iff_mem]

theorem subset_iff (a b : OSet) : a.subset b = true ↔ a &&& ~~~b = 0 := beq_iff_eq

/-! ## The policy operand (R191) -/

/-- Reading a policy changes nothing of the issue but the policy that it keeps and the state whose policy register it reads. -/
theorem policy_keeps {x y : Iss} {n : Nat} {store : Bool} {q : BitVec 32} (h : x.policy n store = .ok (q, y)) :
    y = { x with pol := y.pol, s := y.s } := by
  revert h
  fun_cases Iss.policy x n store
  · rintro ⟨⟩
    rfl
  · rintro ⟨⟩
    rfl
  · intro h
    cases h
  · rintro ⟨⟩
    rfl

/-! ## The sets that operands read with no write outstanding (R24) -/

/-- The join of the sets of the registers that hold some of `n` slices. -/
def Skein.setsOf (k : Skein) (start n : Nat) : OSet := (regsOf start n).foldl (fun a g => a ||| k.sets.getD g 0) 0

theorem readSet_settled {k : Skein} (hp : k.pend = []) (o : Opd) (r : Nat) : k.readSet o r = k.sets.getD r 0 := by
  unfold Skein.readSet
  rw [hp]
  rfl

theorem opdSet_settled {k : Skein} (hp : k.pend = []) {o : Opd} (hr : o.reads = true) : k.opdSet o = k.setsOf o.start o.n := by
  unfold Skein.opdSet Skein.setsOf
  rw [if_pos hr]
  simp only [readSet_settled hp]

/-! ## The checks on the addresses of an access (R118, R120) -/

/-- The checks on an access's addresses, and what follows them. -/
def Iss.located (y : Iss) (r : AccessRow) (rest : List LaneAcc → Res State) : Res State := do
  y.aligned r.bytes (y.ea r.n)
  let as ← y.map r.sp r.kind r.need (y.lanesAt r.n r.bytes)
  rest as

theorem located_ok {y : Iss} {r : AccessRow} {rest : List LaneAcc → Res State} {as : List LaneAcc}
    (hal : y.aligned r.bytes (y.ea r.n) = .ok ()) (hmap : y.map r.sp r.kind r.need (y.lanesAt r.n r.bytes) = .ok as) :
    y.located r rest = rest as := (res_bind_ok hal).trans (res_bind_ok hmap)

/-- An issuing word comes to the checks on its addresses with an issue. -/
def Reaches (i : Instr) (s : State) (k : Skein) (p : Split) (r : AccessRow) (y : Iss) (rest : List LaneAcc → Res State) : Prop :=
  ∃ body, exec i s = issue i s body ∧ body (Iss.start s k p) = y.located r rest

/-! ## The three stores (R119, R207) -/

/-- What a store does once its locations are known (R27, R228). -/
def StoreRow.rest (r : StoreRow) (y : Iss) (as : List LaneAcc) : Res State := do
  y.origin y.rset as
  y.hold true as
  .ok (y.put (y.store 16 as fun l => bytesLE (memBytes r.w) (y.raw l r.d.toNat (memSlices r.w))))

/-- A store as an access. -/
def StoreRow.access (r : StoreRow) : AccessRow :=
  ⟨r.sp, memBytes r.w, r.n, 2, needStore, fun em => [opdPair (8 * r.n.toNat) em, opdIn r.d.toNat (memSlices r.w) em], r.pol, true⟩

theorem store_reaches {i : Instr} {r : StoreRow} {s : State} {k : Skein} {p : Split} {x y : Iss} {q : BitVec 32}
    (h : storeRow i = some r) (ho : (Iss.start s k p).operands (r.access.ops p.em) = .ok x) (hpol : x.policy r.pol true = .ok (q, y)) :
    Reaches i s k p r.access y (r.rest y) := by
  have he : exec i s = storeOp i r.sp r.w r.d r.n r.pol s := by
    unfold storeRow at h
    split at h
    · cases h
      rfl
    · cases h
      rfl
    · cases h
      rfl
    · cases h
  refine ⟨_, he, ?_⟩
  refine (res_bind_ok ho).trans ?_
  exact (res_bind_ok hpol).trans rfl

/-- The lanes with a page or block of whose set `d` is no subset (R27). -/
def originFails (d : OSet) (as : List LaneAcc) : List LaneAcc := as.filter fun a => a.parts.any fun b => b.sets.any fun e => !d.subset e

theorem mem_originFails {d : OSet} {as : List LaneAcc} {a : LaneAcc} :
    a ∈ originFails d as ↔ a ∈ as ∧ ∃ b ∈ a.parts, ∃ e ∈ b.sets, d &&& ~~~e ≠ 0 := by
  simp only [originFails, List.mem_filter, List.any_eq_true, Bool.not_eq_true', Bool.eq_false_iff, ne_eq, subset_iff]

theorem origin_of_none {x : Iss} {d : OSet} {as : List LaneAcc} (h : originFails d as = []) : x.origin d as = .ok () := by
  show x.need (originFails d as).isEmpty _ _ = _
  rw [h]
  rfl

theorem origin_of_some {x : Iss} {d : OSet} {as : List LaneAcc} (h : originFails d as ≠ []) :
    x.origin d as = .error (.trap 0x8500 (maskOfLanes ((originFails d as).map (·.lane))) [] x.rset) := by
  show x.need (originFails d as).isEmpty _ _ = _
  rw [List.isEmpty_eq_false_iff.mpr h]
  rfl

section
variable {i : Instr} {r : StoreRow} {s : State} {k : Skein} {p : Split} {x y : Iss} {q : BitVec 32} {as : List LaneAcc}

/-- With no write outstanding a store of a first issue has read the sets of its address and data registers. -/
theorem rd_of_store (hn : p.again = none) (hp : k.pend = [])
    (ho : (Iss.start s k p).operands [opdPair (8 * r.n.toNat) p.em, opdIn r.d.toNat (memSlices r.w) p.em] = .ok x) :
    x.rd = k.setsOf (8 * r.n.toNat) 16 ||| k.setsOf r.d.toNat (memSlices r.w) := by
  have hkept : (Iss.start s k p).kept = none := by
    show p.again.bind (·.kept) = none
    rw [hn]
    rfl
  rw [operands_of_no_pend hkept hp ho]
  have hp1 : (Iss.start s k p).k.pend = [] := hp
  show 0 ||| (Iss.start s k p).k.opdSet _ ||| (Iss.start s k p).k.opdSet _ = _
  rw [opdSet_settled hp1 rfl, opdSet_settled hp1 rfl]
  exact congrArg (· ||| _) BitVec.zero_or

/-- Settles O23: a store's set is tested against every page or block before anything is written. -/
theorem storeOrigin : Obligations.StoreOrigin := by
  intro i r s k p x y q as hi hs ho hpol hal hmap
  obtain ⟨body, he, hb⟩ := store_reaches hi ho hpol
  have hrest := hb.trans (located_ok hal hmap)
  have hy := policy_keeps hpol
  have hp : y.p.co = p.co := by
    rw [hy]
    show x.p.co = p.co
    rw [(operands_keeps ho).2.2.2.1]
    rfl
  have hset : y.rset = x.rd ||| p.co := by
    unfold Iss.rset
    rw [hp, hy]
  refine ⟨fun hn hpe => by rw [rd_of_store hn hpe ho]; rfl, fun hf => ?_, fun hf hh => ?_⟩
  · have hne : originFails (x.rd ||| p.co) as ≠ [] := by
      obtain ⟨a, ha, hb⟩ := hf
      exact List.ne_nil_of_mem (mem_originFails.mpr ⟨ha, hb⟩)
    refine ⟨maskOfLanes ((originFails (x.rd ||| p.co) as).map (·.lane)), [], traps_of_body he hs ?_, fun l hl => ?_⟩
    · rw [hrest]
      unfold StoreRow.rest
      rw [hset, res_bind_error (origin_of_some hne), hset]
    · rw [getLsbD_maskOfLanes, List.mem_map]
      simp only [mem_originFails]
      constructor
      · rintro ⟨-, a, ⟨ha, hb⟩, e⟩
        exact ⟨a, ha, e, hb⟩
      · rintro ⟨a, ha, e, hb⟩
        exact ⟨hl, a, ⟨ha, hb⟩, e⟩
  · have hnil : originFails (x.rd ||| p.co) as = [] :=
      List.eq_nil_iff_forall_not_mem.mpr fun a ha => hf a (mem_originFails.mp ha).1 (mem_originFails.mp ha).2
    refine completes_of_body he hs ?_
    rw [hrest]
    unfold StoreRow.rest
    rw [hset, res_bind_ok (origin_of_none hnil), res_bind_ok hh]

end
end Sys2Proof.Machine
end

section
/-! SUPPORT. What the lines of PCIe memory that a load brings or drops leave: every byte of other memory, and every byte of S and C
(R211, R214, R244). -/

namespace Sys2Proof.Machine

/-- Another byte than the one written reads as before. -/
theorem cellGet_cellPut_other {a c : Nat} (b : Byte) (h : c ≠ a) (l : List Host.Cell) : cellGet (cellPut a b l) c = cellGet l c := by
  induction l with
  | nil =>
    unfold cellPut
    split
    · rfl
    · simp [cellGet, h.symm]
  | cons q t ih =>
    obtain ⟨x, y⟩ := q
    unfold cellPut
    split
    · split
      · rfl
      · exact if_neg h.symm
    · split
      · next e =>
        have hx : ¬x = c := fun hc => h (hc.symm.trans e.symm)
        split
        · exact (if_neg hx).symm
        · exact (if_neg h.symm).trans (if_neg hx).symm
      · simp only [cellGet, ih]

theorem getD_modify_cases {α : Type} (l : List α) (n m : Nat) (f : α → α) (d : α) :
    (l.modify n f).getD m d = f (l.getD m d) ∨ (l.modify n f).getD m d = l.getD m d := by
  rw [List.getD_eq_getElem?_getD, List.getD_eq_getElem?_getD, List.getElem?_modify]
  cases h : l[m]? with
  | none => exact .inr rfl
  | some a =>
    by_cases hn : n = m
    · exact .inl (by simp [hn])
    · exact .inr (by simp [hn])

theorem die_modDie_cases (s : State) (n m : Nat) (f : Die → Die) :
    (s.modDie n f).die m = f (s.die m) ∨ (s.modDie n f).die m = s.die m := getD_modify_cases ..

theorem core_modCore_cases (s : State) (n m : Nat) (f : Core → Core) :
    (s.modCore n f).core m = f (s.core m) ∨ (s.modCore n f).core m = s.core m := getD_modify_cases ..

/-! ## Lines of a die's copies -/

/-- Every copy that a die holds in its PCIe L2 is of PCIe memory. -/
def PcieLines (s : State) (die : Nat) : Prop := ∀ z ∈ (s.die die).pcie, paType (z.line * 64) = 2

theorem PcieLines.modDie {s : State} {die : Nat} (h : PcieLines s die) (n : Nat) {f : Die → Die}
    (hf : ∀ d : Die, (∀ z ∈ d.pcie, paType (z.line * 64) = 2) → ∀ z ∈ (f d).pcie, paType (z.line * 64) = 2) :
    PcieLines (s.modDie n f) die := by
  unfold PcieLines
  rcases die_modDie_cases s n die f with e | e
  · rw [e]
    exact hf _ h
  · rw [e]
    exact h

/-- The bytes of a line are of one memory type. -/
theorem paType_line (line i : Nat) (hi : i < 64) : paType (line * 64 + i) = paType (line * 64) := by
  unfold paType
  have h1 : line * 64 + i < 0x200000000000 ↔ line * 64 < 0x200000000000 := by omega
  have h2 : line * 64 + i < 0x300000000000 ↔ line * 64 < 0x300000000000 := by omega
  simp only [h1, h2]

theorem paType_of_line (pa : Nat) : paType (pa / 64 * 64) = paType pa := by
  have := paType_line (pa / 64) (pa % 64) (Nat.mod_lt _ (by decide))
  rw [← this, show pa / 64 * 64 + pa % 64 = pa by omega]

/-! ## What moves of PCIe lines leave -/

/-- A state after some moves of PCIe lines of a die: nothing of S and C has changed, no core has a new copy, and no byte of other
memory has changed. -/
structure SparesRam (die : Nat) (s t : State) : Prop where
  blocks : t.blocks = s.blocks
  clusters : t.clusters = s.clusters
  copies : ∀ n, ∀ z ∈ (t.core n).l1, z ∈ (s.core n).l1
  lines : PcieLines s die → PcieLines t die
  ram : PcieLines s die → ∀ pa, paType pa ≠ 2 → cellGet t.mem pa = cellGet s.mem pa

theorem SparesRam.refl (die : Nat) (s : State) : SparesRam die s s := ⟨rfl, rfl, fun _ _ h => h, id, fun _ _ _ => rfl⟩

theorem SparesRam.trans {die : Nat} {s t u : State} (h : SparesRam die s t) (g : SparesRam die t u) : SparesRam die s u :=
  ⟨g.blocks.trans h.blocks, g.clusters.trans h.clusters, fun n z hz => h.copies n z (g.copies n z hz), fun hl => g.lines (h.lines hl),
    fun hl pa hp => (g.ram (h.lines hl) pa hp).trans (h.ram hl pa hp)⟩

theorem SparesRam.foldl {α : Type} {die : Nat} {f : State → α → State} (s : State) (l : List α)
    (hf : ∀ t, ∀ a ∈ l, SparesRam die t (f t a)) : SparesRam die s (l.foldl f s) := by
  induction l generalizing s with
  | nil => exact .refl die s
  | cons a l ih => exact (hf s a List.mem_cons_self).trans (ih (f s a) fun t b hb => hf t b (List.mem_cons_of_mem _ hb))

/-- A change of a die's copies that brings no line of other memory. -/
theorem SparesRam.modDie (s : State) (die n : Nat) {f : Die → Die}
    (hf : ∀ d : Die, (∀ z ∈ d.pcie, paType (z.line * 64) = 2) → ∀ z ∈ (f d).pcie, paType (z.line * 64) = 2) :
    SparesRam die s (s.modDie n f) := ⟨rfl, rfl, fun _ _ h => h, fun h => h.modDie n hf, fun _ _ _ => rfl⟩

/-- A change of the number of the next free choice. -/
theorem SparesRam.free {die : Nat} {s t : State} (h : SparesRam die s t) (n : Nat) : SparesRam die s { t with free := n } :=
  ⟨h.blocks, h.clusters, h.copies, h.lines, h.ram⟩

/-- A byte of PCIe memory written at the host. -/
theorem SparesRam.poke (s : State) (die pa : Nat) (b : Byte) (h : PcieLines s die → paType pa = 2) :
    SparesRam die s (s.poke (locG pa) b) :=
  ⟨rfl, rfl, fun _ _ hz => hz, id, fun hl _ hc => cellGet_cellPut_other b (fun e => hc ((congrArg paType e).trans (h hl))) s.mem⟩

/-- A dirty byte of a die's copy reaches the host. -/
def State.writeBack (ln : PLine) (line : Nat) (t : State) (i : Nat) : State :=
  if ln.dirty.getLsbD i then match ln.bytes.getD i none with
    | some b => t.poke (locG (line * 64 + i)) b
    | none => t
  else t

theorem writeBack_dieSt (ln : PLine) (line : Nat) (t : State) (i : Nat) : (t.writeBack ln line i).dieSt = t.dieSt := by
  unfold State.writeBack
  split
  · split <;> rfl
  · rfl

theorem writeBacks_spare {ln : PLine} {line die : Nat} (is : List Nat) (hi : ∀ i ∈ is, i < 64) (t : State)
    (ht : PcieLines t die → paType (line * 64) = 2) : SparesRam die t (is.foldl (State.writeBack ln line) t) := by
  induction is generalizing t with
  | nil => exact .refl die t
  | cons i is ih =>
    have hstep : SparesRam die t (t.writeBack ln line i) := by
      unfold State.writeBack
      split
      · split
        · exact .poke t die _ _ fun h => (paType_line line i (hi i List.mem_cons_self)).trans (ht h)
        · exact .refl die t
      · exact .refl die t
    refine hstep.trans (ih (fun j hj => hi j (List.mem_cons_of_mem _ hj)) _ fun h => ht ?_)
    unfold PcieLines State.die at h ⊢
    rwa [writeBack_dieSt] at h

theorem pclean_spares (s : State) (die line : Nat) : SparesRam die s (s.pclean die line) := by
  unfold State.pclean
  split
  · exact .refl die s
  · next ln hln =>
    have hline : PcieLines s die → paType (line * 64) = 2 := fun h => by
      have hl : ln.line = line := beq_iff_eq.mp (List.find?_some (p := fun x : PLine => x.line == line) hln)
      rw [← hl]
      exact h ln (List.mem_of_find?_eq_some hln)
    have hback := writeBacks_spare (ln := ln) (List.range 64) (fun i hi => List.mem_range.mp hi) s hline
    refine SparesRam.trans hback (SparesRam.modDie _ die die fun d hd z hz => ?_)
    obtain ⟨y, hy, rfl⟩ := List.mem_map.mp hz
    split
    · exact hd y hy
    · exact hd y hy

theorem pdrop_spares (s : State) (die line : Nat) : SparesRam die s (s.pdrop die line) :=
  (pclean_spares s die line).trans (.modDie _ die die fun _ hd z hz => hd z (List.mem_of_mem_filter hz))

theorem roomPcie_spares (s : State) (die line : Nat) : SparesRam die s (s.roomPcie die line) := by
  unfold State.roomPcie
  split
  · exact .refl die s
  · exact pdrop_spares s die _

/-- A line of PCIe memory that enters the die's L2. -/
theorem fillPcie_spares (s : State) (die : Nat) {line : Nat} (hline : paType (line * 64) = 2) (refused : Bool) (seen : List (List Byte)) :
    SparesRam die s (s.fillPcie die line refused seen) := by
  unfold State.fillPcie
  extract_lets read host t
  have ht : SparesRam die s t := by
    unfold t
    split
    · next x hx =>
      have hxl : x.line = line := beq_iff_eq.mp (List.find?_some (p := fun y : PLine => y.line == line) hx)
      refine .modDie s die die fun d hd z hz => ?_
      obtain ⟨y, hy, rfl⟩ := List.mem_map.mp hz
      split
      · exact (congrArg (fun n => paType (n * 64)) hxl).trans hline
      · exact hd y hy
    · refine (roomPcie_spares s die line).trans (.modDie _ die die fun d hd z hz => ?_)
      rcases List.mem_cons.mp hz with rfl | h
      · exact hline
      · exact hd z h
  exact ht.free _

/-! ## What a load's accesses leave before and after it reads -/

/-- A part of a word's checks that goes on. -/
theorem res_bind_inv {α β : Type} {x : Res α} {f : α → Res β} {b : β} (h : (x >>= f) = .ok b) : ∃ a, x = .ok a ∧ f a = .ok b := by
  cases x with
  | error c => cases h
  | ok a => exact ⟨a, rfl, h⟩

theorem consume_spares (x : Iss) (die : Nat) : SparesRam die x.s x.consume.s := ⟨rfl, rfl, fun _ _ h => h, id, fun _ _ _ => rfl⟩

/-- A served load of PCIe memory has changed nothing of its issue but the requests of its skein and the state, whose other memory is as
before. -/
theorem pcieReady_spares {x j : Iss} {as : List LaneAcc} (h : x.pcieReady as = .ok j) :
    j = { x with k := { x.k with preqs := j.k.preqs }, s := j.s } ∧ SparesRam x.k.die x.s j.s := by
  unfold Iss.pcieReady at h
  extract_lets missing lanes asked at h
  obtain ⟨-, -, h⟩ := res_bind_inv h
  split at h
  · injection h with h
    subst h
    split
    · exact ⟨rfl, consume_spares x _⟩
    · exact ⟨rfl, .refl _ _⟩
  · split at h
    · cases h
    · next st _ =>
      injection h with h
      subst h
      refine ⟨rfl, (consume_spares x x.k.die).trans (SparesRam.foldl _ _ fun t n hn => fillPcie_spares t x.k.die ?_ _ _)⟩
      obtain ⟨l, hl, rfl⟩ := List.mem_map.mp (List.mem_eraseDups.mp hn)
      have hty := (List.mem_filter.mp hl).2
      simp only [Bool.and_eq_true, beq_iff_eq] at hty
      rw [paType_of_line]
      exact hty.1.2

/-- The lines that an INVAL has passed leave the die's L2 and the core's L1 once the load has read. -/
theorem shed_spares (x : Iss) (s : State) : SparesRam x.k.die s (x.shed s) := by
  unfold Iss.shed
  refine SparesRam.foldl s _ fun t n _ => (pdrop_spares t x.k.die n).trans ⟨rfl, rfl, fun m z hz => ?_, id, fun _ _ _ => rfl⟩
  rcases core_modCore_cases (t.pdrop x.k.die n) x.k.coreId m fun c => { c with l1 := l1Drop c.l1 n } with e | e
  · rw [e] at hz
    exact List.mem_of_mem_filter hz
  · rwa [e] at hz

end Sys2Proof.Machine
end

section
/-! SUPPORT. Which bytes a load reads when its core and its skein hold nothing of them (R179, R189, R214, R231). -/

namespace Sys2Proof.Machine

/-! ## The lines that a load reads -/

theorem mem_of_l1Shrink {pick : Nat → Nat} {room n : Nat} {ls : List CLine} {z : CLine} (h : z ∈ l1Shrink pick room n ls) : z ∈ ls := by
  induction n generalizing ls with
  | zero => exact h
  | succ n ih =>
    unfold l1Shrink at h
    split at h
    · exact h
    · exact List.mem_of_mem_eraseIdx (ih h)

/-- A copy that a core holds after a line has entered its L1 is of that line, or one of before. -/
theorem l1_fillL1 {s : State} {core m n : Nat} {bytes : List Byte} {z : CLine} (h : z ∈ ((s.fillL1 core m bytes).core n).l1) :
    z.line = m ∨ z ∈ (s.core n).l1 := by
  unfold State.fillL1 at h
  rcases core_modCore_cases s core n fun c => c.addL1 ⟨m, bytes⟩ (s.spadUsed core) (Config.freeWay s.free) with e | e
  · rw [e] at h
    rcases List.mem_cons.mp h with rfl | h
    · exact .inl rfl
    · exact .inr (List.mem_of_mem_filter (mem_of_l1Shrink h))
  · rw [e] at h
    exact .inr h

/-- What reading one line changes: the free choices, and the cores' copies, which are of that line or of before. -/
structure ViewsLine (m : Nat) (s t : State) : Prop where
  mem : t.mem = s.mem
  blocks : t.blocks = s.blocks
  clusters : t.clusters = s.clusters
  copies : ∀ n, ∀ z ∈ (t.core n).l1, z.line = m ∨ z ∈ (s.core n).l1

theorem ViewsLine.same (m : Nat) (s : State) (n : Nat) : ViewsLine m s { s with free := n } := ⟨rfl, rfl, rfl, fun _ _ h => .inr h⟩

theorem ViewsLine.fill (m : Nat) (s : State) (n core : Nat) (bytes : List Byte) :
    ViewsLine m s (State.fillL1 { s with free := n } core m bytes) := ⟨rfl, rfl, rfl, fun _ _ h => l1_fillL1 (s := { s with free := n }) h⟩

theorem viewLine_views (s : State) (core m : Nat) (noalloc : Bool) : ViewsLine m s (s.viewLine core m noalloc).2 := by
  fun_cases State.viewLine s core m noalloc
  · exact .same m s s.free
  · exact .fill m s (s.free + 1) core _
  · exact .same m s (s.free + 1)
  · exact .fill m s (s.free + 1) core _
  · dsimp only
    split
    · exact .same m s s.free
    · exact .fill m s s.free core _

theorem homeView_views (s : State) (core m : Nat) (noalloc : Bool) : ViewsLine m s (s.homeView core m noalloc).2 := by
  unfold State.homeView
  dsimp only
  split
  · exact .same m s s.free
  · exact .fill m s s.free core _

/-- Reading lines leaves memory, S and C. -/
theorem viewLines_spaces (s : State) (core : Nat) (noalloc home : Bool) (ls : List Nat) :
    (s.viewLines core noalloc home ls).2.mem = s.mem ∧ (s.viewLines core noalloc home ls).2.blocks = s.blocks ∧
      (s.viewLines core noalloc home ls).2.clusters = s.clusters := by
  induction ls generalizing s with
  | nil => exact ⟨rfl, rfl, rfl⟩
  | cons m ls ih =>
    have hv : ViewsLine m s (if home then s.homeView core m noalloc else s.viewLine core m noalloc).2 := by
      split
      · exact homeView_views ..
      · exact viewLine_views ..
    obtain ⟨h1, h2, h3⟩ := ih (if home then s.homeView core m noalloc else s.viewLine core m noalloc).2
    exact ⟨h1.trans hv.mem, h2.trans hv.blocks, h3.trans hv.clusters⟩

/-- A line of which the core holds no copy is read from memory. -/
theorem viewLines_home {s : State} {core n : Nat} {noalloc : Bool} {ls : List Nat} (hn : n ∈ ls)
    (hno : ∀ z ∈ (s.core core).l1, z.line ≠ n) (hty : paType (n * 64) ≠ 2) :
    (s.viewLines core noalloc false ls).1.find? (·.1 == n) = some (n, cellsRead s.mem (n * 64) 64) := by
  induction ls generalizing s with
  | nil => cases hn
  | cons m ls ih =>
    show ((m, (s.viewLine core m noalloc).1) :: ((s.viewLine core m noalloc).2.viewLines core noalloc false ls).1).find? _ = _
    by_cases hm : m = n
    · subst hm
      have hnone : (s.core core).l1.find? (·.line == m) = none := List.find?_eq_none.mpr fun z hz => by simp [hno z hz]
      have hline : (s.viewLine core m noalloc).1 = cellsRead s.mem (m * 64) 64 := by
        unfold State.viewLine State.homeLine
        rw [hnone, if_neg hty]
      rw [List.find?_cons_of_pos (by simp), hline]
    · have hv := viewLine_views s core m noalloc
      rw [List.find?_cons_of_neg (by simp [hm]), ih ((List.mem_cons.mp hn).resolve_left (Ne.symm hm)) fun z hz => ?_, hv.mem]
      rcases hv.copies core z hz with e | h
      · exact fun c => hm (e.symm.trans c)
      · exact hno z h

theorem getD_cellsRead (m : List Host.Cell) (a : Nat) {n i : Nat} (hi : i < n) : (cellsRead m a n).getD i 0#8 = cellGet m (a + i) := by
  unfold cellsRead
  simp [List.getD, hi]

/-! ## Bytes of a state -/

theorem peek_of_g {l : Loc} (h : l.sp = .g) (s : State) : s.peek l = cellGet s.mem l.addr := by
  unfold State.peek
  rw [h]

/-- A byte of S or C is the same in states with the same blocks and clusters. -/
theorem peek_of_spaces {s t : State} {l : Loc} (h : l.sp ≠ .g) (hb : t.blocks = s.blocks) (hc : t.clusters = s.clusters) :
    t.peek l = s.peek l := by
  unfold State.peek State.block? State.cluster
  rw [hb, hc]
  split
  · next e => exact absurd e h
  · rfl
  · rfl

/-- The block of a skein has the skein's grid and number, and is the one that the state lists, if it lists one. -/
theorem blockOf_cases (s : State) (k : Skein) :
    (s.blockOf k).grid = k.grid ∧ (s.blockOf k).num = k.block ∧ ∀ x, s.block? k.grid k.block = some x → s.blockOf k = x := by
  unfold State.blockOf
  cases h : s.block? k.grid k.block with
  | none => exact ⟨rfl, rfl, fun x hx => by cases hx⟩
  | some x =>
    have hx := List.find?_some h
    simp only [Bool.and_eq_true, beq_iff_eq] at hx
    exact ⟨hx.1, hx.2, fun y hy => Option.some.inj hy⟩

/-- A lookup after a block was written over the one of its number. -/
theorem block_setBlock (s : State) (b : Block) (g n : Nat) :
    (s.setBlock b).block? g n = (s.block? g n).map fun x => if x.grid == b.grid && x.num == b.num then b else x := by
  unfold State.block? State.setBlock
  dsimp only
  rw [List.find?_map]
  congr 1
  refine List.find?_congr fun x _ => ?_
  simp only [Function.comp_apply]
  split
  · next h =>
    simp only [Bool.and_eq_true, beq_iff_eq] at h
    rw [h.1, h.2]
  · rfl

/-- Writing a block that keeps its bytes over the one of its number changes no byte. -/
theorem peek_setBlock (s : State) (k : Skein) {b : Block} (hg : b.grid = (s.blockOf k).grid) (hn : b.num = (s.blockOf k).num)
    (hcells : b.cells = (s.blockOf k).cells) (l : Loc) : (s.setBlock b).peek l = s.peek l := by
  obtain ⟨hkg, hkn, hblock⟩ := blockOf_cases s k
  unfold State.peek
  split
  · rfl
  · rw [block_setBlock]
    cases hx : s.block? l.own.1 l.own.2 with
    | none => rfl
    | some x =>
      have hkey := List.find?_some hx
      simp only [Bool.and_eq_true, beq_iff_eq] at hkey
      simp only [Option.map_some]
      split
      · next h =>
        simp only [Bool.and_eq_true, beq_iff_eq] at h
        have hsame : s.blockOf k = x := hblock x (by
          rw [← hkg, ← hkn, ← hg, ← hn, ← h.1, ← h.2, hkey.1, hkey.2]
          exact hx)
        rw [hcells, hsame]
      · rfl
  · rfl

/-! ## What an access's state has kept when it comes to memory -/

/-- States with the same bytes, copies in the cores, and copies in the dies. -/
structure SameBytes (s t : State) : Prop where
  peek : ∀ l, t.peek l = s.peek l
  cores : t.cores = s.cores
  dies : t.dieSt = s.dieSt

theorem SameBytes.trans {s t u : State} (h : SameBytes s t) (g : SameBytes t u) : SameBytes s u :=
  ⟨fun l => (g.peek l).trans (h.peek l), g.cores.trans h.cores, g.dies.trans h.dies⟩

theorem start_sameBytes (s : State) (k : Skein) (p : Split) : SameBytes s (Iss.start s k p).s := ⟨fun _ => rfl, rfl, rfl⟩

/-- The operand checks change of the state only its skeins and the free choices. -/
theorem operands_state {x y : Iss} {ops : List Opd} (h : x.operands ops = .ok y) :
    ∃ n ks, y.s = { x.s with free := n, skeins := ks } := by
  unfold Iss.operands Iss.operandsBut at h
  split at h
  · cases h
    exact ⟨_, _, rfl⟩
  · dsimp only at h
    split at h
    · cases h
    · split at h
      · cases h
      · split at h
        · rw [intact_ok h]
          exact ⟨x.s.free, x.s.skeins, rfl⟩
        · split at h
          · cases h
          · rw [intact_ok h]
            exact ⟨_, _, rfl⟩

theorem operands_sameBytes {x y : Iss} {ops : List Opd} (h : x.operands ops = .ok y) : SameBytes x.s y.s := by
  obtain ⟨n, ks, e⟩ := operands_state h
  rw [e]
  exact ⟨fun _ => rfl, rfl, rfl⟩

/-- Reading a policy changes the free choices, and registers of the skein's block. -/
theorem policy_sameBytes {x y : Iss} {n : Nat} {store : Bool} {q : BitVec 32} (h : x.policy n store = .ok (q, y)) : SameBytes x.s y.s := by
  revert h
  fun_cases Iss.policy x n store
  · rintro ⟨⟩
    exact ⟨fun _ => rfl, rfl, rfl⟩
  · rintro ⟨⟩
    exact ⟨fun _ => rfl, rfl, rfl⟩
  · intro h
    cases h
  · rintro ⟨⟩
    refine ⟨fun l => ?_, rfl, rfl⟩
    show (State.setBlock x.s _).peek l = _
    exact peek_setBlock x.s x.k (by rfl) (by rfl) (by rfl) l

end Sys2Proof.Machine
end

section
/-! SUPPORT. The bytes of a load whose core and skein hold nothing older or newer of them are those of memory (R179, R192, R231). -/

namespace Sys2Proof.Machine

/-! ## What a view holds -/

theorem byte_of_g {v : ReadView} (hs : v.stores = []) (hp : v.pick = none) {l : Loc} (hl : l.sp = .g) : v.byte l = lineByte v.lines l.addr := by
  unfold ReadView.byte
  simp only [hs, hp, hl]
  rfl

theorem byte_of_space {v : ReadView} (hs : v.stores = []) (hp : v.pick = none) {l : Loc} (hl : l.sp ≠ .g) : v.byte l = v.i.s.peek l := by
  unfold ReadView.byte
  simp only [hs, hp]
  cases hsp : l.sp with
  | g => exact absurd hsp hl
  | s => rfl
  | c => rfl

section
variable {j : Iss} {q : BitVec 32} {as : List LaneAcc}

theorem read_stores (h : j.k.stores = []) : (j.read q as).stores = [] := by
  unfold Iss.read
  simp only [h]
  rfl

theorem read_pick (h : q.getLsbD 16 = false) : (j.read q as).pick = none := by
  unfold Iss.read
  simp only [h, Bool.false_and]
  rfl

theorem read_lines (h : q.getLsbD 16 = false) : (j.read q as).lines =
    (State.viewLines { j.s with free := j.s.free + 1 } j.k.coreId (q.getLsbD 17) false
      (((as.flatMap LaneAcc.locs).filter (·.sp == .g)).map (·.addr / 64)).eraseDups).1 := by
  unfold Iss.read
  simp only [h, Bool.false_and]

theorem read_spaces : (j.read q as).i.s.blocks = j.s.blocks ∧ (j.read q as).i.s.clusters = j.s.clusters := by
  obtain ⟨-, hb, hc⟩ := viewLines_spaces { j.s with free := j.s.free + 1 } j.k.coreId (q.getLsbD 17) (q.getLsbD 16 && Config.freeBit j.s.free)
    (((as.flatMap LaneAcc.locs).filter (·.sp == .g)).map (·.addr / 64)).eraseDups
  exact ⟨hb, hc⟩

/-- What a read changes of its issue: the state, and the stores of its skein that the split has seen. -/
theorem read_keeps : (j.read q as).i = { j with k := { j.k with stores := (j.read q as).stores }, s := (j.read q as).i.s } := rfl

end

/-! ## Loads -/

section
variable {y : Iss} {q : BitVec 32} {as : List LaneAcc} {v : ReadView}

/-- A load that goes on has read once its PCIe lines were there. -/
theorem load_inv (h : y.load q as = .ok v) :
    ∃ j, y.pcieReady as = .ok j ∧ v.lines = (j.read q as).lines ∧ v.stores = (j.read q as).stores ∧ v.pick = (j.read q as).pick ∧
      v.i = { (j.read q as).i with s := y.shed (j.read q as).i.s } := by
  unfold Iss.load at h
  obtain ⟨-, -, h⟩ := res_bind_inv h
  obtain ⟨-, -, h⟩ := res_bind_inv h
  obtain ⟨j, hj, h⟩ := res_bind_inv h
  cases h
  exact ⟨j, hj, rfl, rfl, rfl, rfl⟩

/-- What a load changes of its issue: the state, and its skein's requests and the stores that the split has seen. -/
theorem load_keeps (h : y.load q as = .ok v) :
    v.i = { y with k := { y.k with preqs := v.i.k.preqs, stores := v.i.k.stores }, s := v.i.s } := by
  obtain ⟨j, hj, -, -, -, hi⟩ := load_inv h
  obtain ⟨e, -⟩ := pcieReady_spares hj
  rw [hi, read_keeps]
  rw [e]

/-- A byte of S or C is read from its space. -/
theorem byte_of_load_space (h : y.load q as = .ok v) (hs : y.k.stores = []) (h16 : q.getLsbD 16 = false) {l : Loc} (hl : l.sp ≠ .g) :
    v.byte l = y.s.peek l := by
  obtain ⟨j, hj, hlines, hstores, hpick, hi⟩ := load_inv h
  obtain ⟨e, hsp⟩ := pcieReady_spares hj
  have hjs : j.k.stores = [] := by
    rw [e]
    exact hs
  have hshed := shed_spares y (j.read q as).i.s
  obtain ⟨hb, hc⟩ := read_spaces (j := j) (q := q) (as := as)
  refine (byte_of_space (hstores.trans (read_stores hjs)) (hpick.trans (read_pick h16)) hl).trans (peek_of_spaces hl ?_ ?_)
  · rw [hi]
    exact hshed.blocks.trans (hb.trans hsp.blocks)
  · rw [hi]
    exact hshed.clusters.trans (hc.trans hsp.clusters)

/-- A byte of G that is not of PCIe memory, and of whose line the core has no copy, is read from memory. -/
theorem byte_of_load_ram (h : y.load q as = .ok v) (hs : y.k.stores = []) (h16 : q.getLsbD 16 = false) {l : Loc}
    (hmem : l ∈ as.flatMap LaneAcc.locs) (hl : l.sp = .g) (hty : paType l.addr ≠ 2)
    (hno : ∀ z ∈ (y.s.core y.k.coreId).l1, z.line ≠ l.addr / 64) (hdie : PcieLines y.s y.k.die) : v.byte l = y.s.peek l := by
  obtain ⟨j, hj, hlines, hstores, hpick, hi⟩ := load_inv h
  obtain ⟨e, hsp⟩ := pcieReady_spares hj
  have hjs : j.k.stores = [] := by
    rw [e]
    exact hs
  have hcore : j.k.coreId = y.k.coreId := by
    rw [e]
    rfl
  refine (byte_of_g (hstores.trans (read_stores hjs)) (hpick.trans (read_pick h16)) hl).trans ?_
  have hline : l.addr / 64 ∈ (((as.flatMap LaneAcc.locs).filter (·.sp == .g)).map (·.addr / 64)).eraseDups :=
    List.mem_eraseDups.mpr (List.mem_map.mpr ⟨l, List.mem_filter.mpr ⟨hmem, by simp [hl]⟩, rfl⟩)
  have hfind := viewLines_home (s := { j.s with free := j.s.free + 1 }) (core := j.k.coreId) (noalloc := q.getLsbD 17) hline
    (fun z hz => hno z (hcore ▸ hsp.copies j.k.coreId z hz)) (by rwa [paType_of_line])
  unfold lineByte
  rw [hlines, read_lines h16, hfind]
  show (cellsRead j.s.mem (l.addr / 64 * 64) 64).getD (l.addr % 64) 0#8 = _
  rw [getD_cellsRead _ _ (Nat.mod_lt _ (by decide)), peek_of_g hl, show l.addr / 64 * 64 + l.addr % 64 = l.addr by omega]
  exact hsp.ram hdie l.addr hty

end

end Sys2Proof.Machine
end

section
/-! SUPPORT. What a load writes (R25, R26, R31, R118). -/

namespace Sys2Proof.Machine

/-! ## The accesses that the checks give (R120, R207) -/

/-- The accesses of a word are one of each active lane. -/
theorem map_lanes {y : Iss} {sp : Space} {kind bytes : Nat} {need : Need} {n : BitVec 5} {as : List LaneAcc}
    (h : y.map sp kind need (y.lanesAt n bytes) = .ok as) : ∃ F : Nat → LaneAcc, as = y.active.map F ∧ ∀ l, (F l).lane = l := by
  have hG : ∀ as, y.mapG kind need (y.lanesAt n bytes) = .ok as → ∃ F : Nat → LaneAcc, as = y.active.map F ∧ ∀ l, (F l).lane = l := by
    intro as h
    unfold Iss.mapG Iss.lanesAt at h
    dsimp only at h
    split at h
    · cases h
    · split at h
      · cases h
      · split at h
        · cases h
        · cases h
          simp only [List.map_map]
          exact ⟨_, rfl, fun _ => rfl⟩
  have hSC : ∀ as, y.mapSC sp (y.lanesAt n bytes) = .ok as → ∃ F : Nat → LaneAcc, as = y.active.map F ∧ ∀ l, (F l).lane = l := by
    intro as h
    unfold Iss.mapSC Iss.lanesAt at h
    dsimp only at h
    split at h
    · cases h
    · split at h
      · cases h
      · cases h
        simp only [List.map_map]
        exact ⟨_, rfl, fun _ => rfl⟩
  cases sp with
  | g => exact hG as h
  | s => exact hSC as h
  | c => exact hSC as h

/-- An access to S or C names no byte of G. -/
theorem locs_of_mapSC {y : Iss} {sp : Space} {rs : List (Nat × Nat × Nat)} {as : List LaneAcc} (hsp : sp ≠ .g)
    (h : y.mapSC sp rs = .ok as) {a : LaneAcc} (ha : a ∈ as) {l : Loc} (hl : l ∈ a.locs) : l.sp ≠ .g := by
  unfold Iss.mapSC at h
  dsimp only at h
  split at h
  · cases h
  · split at h
    · cases h
    · cases h
      obtain ⟨r, -, rfl⟩ := List.mem_map.mp ha
      obtain ⟨b, hb, hl⟩ := List.mem_flatMap.mp hl
      obtain rfl := List.mem_singleton.mp hb
      obtain ⟨i, -, rfl⟩ := List.mem_map.mp hl
      cases sp with
      | g => exact absurd rfl hsp
      | s => exact Space.noConfusion
      | c => exact Space.noConfusion

/-- The access of a lane is found by its lane. -/
theorem find_lane {y : Iss} {as : List LaneAcc} {F : Nat → LaneAcc} (hF : as = y.active.map F) (hl : ∀ l, (F l).lane = l) {a : LaneAcc}
    (ha : a ∈ as) : a.lane < 32 ∧ as.find? (·.lane == a.lane) = some a := by
  subst hF
  obtain ⟨n, hn, rfl⟩ := List.mem_map.mp ha
  rw [hl]
  refine ⟨List.mem_range.mp (List.mem_of_mem_filter hn), ?_⟩
  rw [List.find?_map]
  have : y.active.find? ((fun x : LaneAcc => x.lane == n) ∘ F) = some n := by
    have hfun : ((fun x : LaneAcc => x.lane == n) ∘ F) = fun m => m == n := by
      funext m
      simp [hl]
    rw [hfun]
    obtain ⟨m, hm⟩ := Option.isSome_iff_exists.mp ((List.find?_isSome (p := fun m => m == n)).mpr ⟨n, hn, beq_self_eq_true n⟩)
    rw [hm, beq_iff_eq.mp (List.find?_some (p := fun m => m == n) hm)]
  rw [this]
  rfl

/-! ## The sets and the bytes read (R26, R29) -/

theorem getLsbD_accSet (as : List LaneAcc) (t : Nat) :
    (accSet as).getLsbD t = true ↔ ∃ a ∈ as, ∃ b ∈ a.parts, ∃ e ∈ b.sets, e.getLsbD t = true := by
  have hparts (ps : List Part) (m : OSet) : (ps.foldl (fun x p => p.sets.foldl (· ||| ·) x) m).getLsbD t = true ↔
      m.getLsbD t = true ∨ ∃ b ∈ ps, ∃ e ∈ b.sets, e.getLsbD t = true := by
    induction ps generalizing m with
    | nil => simp
    | cons b ps ih =>
      rw [List.foldl_cons, ih, getLsbD_foldl_or (fun e : OSet => e), Bool.or_eq_true_iff, List.any_eq_true]
      simp [or_assoc]
  unfold accSet
  rw [getLsbD_foldl_or, Bool.or_eq_true_iff, List.any_eq_true]
  unfold LaneAcc.set
  simp only [hparts]
  simp

theorem byte_ofBytesLE (bs : List Byte) (m : Nat) {b : Byte} (h : bs[m]? = some b) : ofBytesLE bs / 2 ^ (8 * m) % 256 = b.toNat := by
  induction bs generalizing m with
  | nil => cases h
  | cons c bs ih =>
    cases m with
    | zero =>
      obtain rfl := Option.some.inj h
      have := c.isLt
      simp only [ofBytesLE]
      omega
    | succ m =>
      rw [← ih m h, ofBytesLE, show 8 * (m + 1) = 8 + 8 * m by omega, Nat.pow_add, ← Nat.div_div_eq_div_mul]
      have := c.isLt
      congr 2
      omega

/-- A byte of a number shifted into a lane file. -/
theorem byte_image {d n m x : Nat} (hd : d + n ≤ 256) (hm : 2 * m + 2 ≤ n) :
    (BitVec.ofNat 1024 (x % 2 ^ (4 * n) * 2 ^ (4 * d))).toNat / 2 ^ (4 * d + 8 * m) % 256 = x / 2 ^ (8 * m) % 256 := by
  refine Nat.eq_of_testBit_eq fun b => ?_
  rw [show (256 : Nat) = 2 ^ 8 from rfl, Nat.testBit_mod_two_pow, Nat.testBit_mod_two_pow]
  by_cases hb : b < 8
  · simp only [hb, decide_true, Bool.true_and]
    rw [Nat.testBit_div_two_pow, Nat.testBit_div_two_pow, BitVec.testBit_toNat, BitVec.getLsbD_ofNat, Nat.testBit_mul_two_pow,
      Nat.testBit_mod_two_pow]
    have h1 : b + (4 * d + 8 * m) < 1024 := by omega
    have h2 : b + (4 * d + 8 * m) - 4 * d = b + 8 * m := by omega
    have h3 : b + 8 * m < 4 * n := by omega
    have h4 : 4 * d ≤ b + (4 * d + 8 * m) := by omega
    simp [h1, h2, h3, h4]
  · simp only [hb, decide_false, Bool.false_and]

/-! ## The write of a load (R25, R31, R118) -/

section
variable {v : ReadView} {la d n : Nat} {as : List LaneAcc}

/-- A load changes the sets as a write at issue does (log 5). -/
theorem write_sets : (v.write la d n as).sets = (v.i.wr d n (v.num as) (v.i.rset ||| accSet as)).sets := by
  unfold ReadView.write
  dsimp only
  split <;> rfl

/-- A load with an active lane waits as a long-latency write. -/
theorem write_pend (h : v.i.p.em ≠ 0) : (v.write la d n as).pend = v.i.k.pend ++
    [{ owner := v.i.p.uid, pc := v.i.gpc, word := v.i.pc, look := la, wins := [(v.i.p.uid, la + 1)], heirs := [v.i.p.uid], lanes := v.i.p.em,
       img := imageOf d n (v.num as), masks := laneMasks v.i.p.em (sliceMask d n),
       old := (regsOf d n).map fun r => (r, v.i.k.sets.getD r 0), src := as.map LaneAcc.src }] := by
  unfold ReadView.write
  dsimp only
  rw [if_neg (by simpa using h)]
  rfl

/-- The bytes of an access in the image of a load's write. -/
theorem byte_of_write {y : Iss} {F : Nat → LaneAcc} (hF : as = y.active.map F) (hlane : ∀ l, (F l).lane = l) {a : LaneAcc} (ha : a ∈ as)
    {m : Nat} {l : Loc} (hl : a.locs[m]? = some l) (hd : d + n ≤ 256) (hm : 2 * m + 2 ≤ n) :
    ((imageOf d n (v.num as)).getD a.lane 0).toNat / 2 ^ (4 * d + 8 * m) % 256 = (v.byte l).toNat := by
  obtain ⟨hlt, hfind⟩ := find_lane hF hlane ha
  rw [getD_imageOf _ _ _ hlt, byte_image hd hm]
  unfold ReadView.num
  rw [hfind]
  exact byte_ofBytesLE _ m (by simp [ReadView.bytes, hl])

end

end Sys2Proof.Machine
end

section
/-! SUPPORT. Where the checks of an access bring it, and how a load completes (R25, R26, R31, R118, R207). -/

namespace Sys2Proof.Machine

/-! ## An issue that comes to its addresses -/

/-- An issue whose operands and policy have passed: what it has kept of the state, the skein and the split it started from. -/
structure Prepared (s : State) (k : Skein) (p : Split) (y : Iss) : Prop where
  em : y.p.em = p.em
  uid : y.p.uid = p.uid
  co : y.p.co = p.co
  id : y.k.id = k.id
  window : y.k.window = k.window
  sets : y.k.sets = k.sets
  stores : y.k.stores = k.stores
  bytes : SameBytes s y.s

theorem prepared {s : State} {k : Skein} {p : Split} {x y : Iss} {ops : List Opd} {n : Nat} {store : Bool} {q : BitVec 32}
    (ho : (Iss.start s k p).operands ops = .ok x) (hpol : x.policy n store = .ok (q, y)) : Prepared s k p y := by
  have hbytes := ((start_sameBytes s k p).trans (operands_sameBytes ho)).trans (policy_sameBytes hpol)
  obtain ⟨-, -, -, hp, hk⟩ := operands_keeps ho
  have hyp : y.p = (Iss.start s k p).p := by
    rw [policy_keeps hpol]
    exact hp
  have hyk : y.k = { (Iss.start s k p).k with lanes := x.k.lanes, pend := x.k.pend, badRegs := x.k.badRegs } := by
    rw [policy_keeps hpol]
    exact hk
  refine ⟨?_, ?_, ?_, ?_, ?_, ?_, ?_, hbytes⟩
  · rw [hyp]
    rfl
  · rw [hyp]
    rfl
  · rw [hyp]
    rfl
  · rw [hyk]
    rfl
  · rw [hyk]
    rfl
  · rw [hyk]
    rfl
  · rw [hyk]
    rfl

/-! ## The three loads (R118, R207) -/

/-- A load as an access. -/
def LoadRow.access (r : LoadRow) : AccessRow :=
  ⟨r.sp, memBytes r.w, r.n, 1, needLoad, fun em => [opdPair (8 * r.n.toNat) em, opdOut r.d.toNat (memSlices r.w)], r.pol, false⟩

/-- What a load does once its locations are known (R31, R118). -/
def LoadRow.rest (r : LoadRow) (q : BitVec 32) (y : Iss) (as : List LaneAcc) : Res State := do
  let v ← y.load q as
  let k := v.write (y.h.look r.la) r.d.toNat (memSlices r.w) as
  .ok (v.i.put (if r.sp == .g then k.touch (y.lanesAt r.n (memBytes r.w)) else k))

theorem load_reaches {i : Instr} {r : LoadRow} {s : State} {k : Skein} {p : Split} {x y : Iss} {q : BitVec 32}
    (h : loadRow i = some r) (ho : (Iss.start s k p).operands (r.access.ops p.em) = .ok x) (hpol : x.policy r.pol false = .ok (q, y)) :
    Reaches i s k p r.access y (r.rest q y) := by
  have he : exec i s = loadOp i r.sp r.w r.d r.n r.pol r.la s := by
    unfold loadRow at h
    split at h
    · cases h
      rfl
    · cases h
      rfl
    · cases h
      rfl
    · cases h
  refine ⟨_, he, ?_⟩
  refine (res_bind_ok ho).trans ?_
  exact (res_bind_ok hpol).trans rfl

/-- Loads of S and C have no policy. -/
theorem loadRow_pol {i : Instr} {r : LoadRow} (h : loadRow i = some r) (hsp : r.sp ≠ .g) : r.pol = 0 := by
  unfold loadRow at h
  split at h
  · cases h
    exact absurd rfl hsp
  · cases h
    rfl
  · cases h
    rfl
  · cases h

theorem memBytes_pos (w : Width) : 0 < memBytes w := by
  cases w <;> decide

section
variable {i : Instr} {r : LoadRow} {s : State} {k : Skein} {p : Split} {x y : Iss} {q : BitVec 32} {as : List LaneAcc} {v : ReadView}

theorem load_rest (hld : y.load q as = .ok v) : r.rest q y as =
    .ok (v.i.put (if r.sp = .g then (v.write (y.h.look r.la) r.d.toNat (memSlices r.w) as).touch (y.lanesAt r.n (memBytes r.w))
      else v.write (y.h.look r.la) r.d.toNat (memSlices r.w) as)) := by
  unfold LoadRow.rest
  rw [res_bind_ok hld]
  dsimp only
  by_cases hg : r.sp = .g
  · rw [if_pos hg, if_pos (beq_iff_eq.mpr hg)]
  · rw [if_neg hg, if_neg fun h => hg (beq_iff_eq.mp h)]

theorem load_completes (hi : loadRow i = some r) (hs : Starts i s k p) (ho : (Iss.start s k p).operands (r.access.ops p.em) = .ok x)
    (hpol : x.policy r.pol false = .ok (q, y)) (hal : y.aligned (memBytes r.w) (y.ea r.n) = .ok ())
    (hmap : y.map r.sp 1 needLoad (y.lanesAt r.n (memBytes r.w)) = .ok as) (hld : y.load q as = .ok v) :
    Completes i s k p (v.i.put (if r.sp = .g then (v.write (y.h.look r.la) r.d.toNat (memSlices r.w) as).touch (y.lanesAt r.n (memBytes r.w))
      else v.write (y.h.look r.la) r.d.toNat (memSlices r.w) as)) := by
  obtain ⟨body, he, hb⟩ := load_reaches hi ho hpol
  have hloc : y.located r.access (r.rest q y) = r.rest q y as := located_ok hal hmap
  rw [load_rest hld] at hloc
  exact completes_of_body he hs (hb.trans hloc)

/-- The sets after a load: what it has read joins the registers of d, or replaces the set of one that it writes whole in every lane. -/
theorem load_sets (hy : Prepared s k p y) (hrd : y.rd = x.rd) (hld : y.load q as = .ok v) {la d n : Nat} (hn : 0 < n) :
    ∃ D : OSet, (∀ t, t < 16 → (D.getLsbD t = true ↔ x.rd.getLsbD t = true ∨ p.co.getLsbD t = true ∨
        ∃ a ∈ as, ∃ b ∈ a.parts, ∃ e ∈ b.sets, e.getLsbD t = true)) ∧
      ∀ g, g < 32 → d + n ≤ k.window →
        let whole := p.em = 0xFFFFFFFF#32 ∧ ∀ sl, 8 * g ≤ sl → sl < 8 * g + 8 → sl < k.window → d ≤ sl ∧ sl < d + n
        (8 * g + 8 ≤ d ∨ d + n ≤ 8 * g → (v.write la d n as).sets.getD g 0 = k.sets.getD g 0) ∧
        (d < 8 * g + 8 → 8 * g < d + n →
          (whole → (v.write la d n as).sets.getD g 0 = D) ∧ (¬whole → (v.write la d n as).sets.getD g 0 = k.sets.getD g 0 ||| D)) := by
  have hv := load_keeps hld
  have hem : v.i.p.em = p.em := by rw [hv, ← hy.em]
  have hsets : v.i.k.sets = k.sets := by rw [hv, ← hy.sets]
  have hwin : v.i.k.window = k.window := by rw [hv, ← hy.window]
  have hset : v.i.rset = x.rd ||| p.co := by
    unfold Iss.rset
    rw [hv, ← hy.co, ← hrd]
  refine ⟨v.i.rset ||| accSet as, fun t _ => ?_, fun g hg _ => ?_⟩
  · rw [BitVec.getLsbD_or, hset, BitVec.getLsbD_or, Bool.or_eq_true_iff, Bool.or_eq_true_iff, getLsbD_accSet, or_assoc]
  · rw [write_sets]
    refine ⟨fun h => (wr_keeps_set hn hg h).trans (by rw [hsets]), fun h1 h2 => ?_⟩
    have hw := wr_set (x := v.i) (v := v.num as) (set := v.i.rset ||| accSet as) hn hg h1 h2
    rw [hem, hsets, hwin] at hw
    have hsub := present_sub_sliceMask (window := k.window) (d := d) (n := n) hg
    exact ⟨fun hwhole => hw.trans (if_pos ⟨hwhole.1, hsub.mpr hwhole.2⟩),
      fun hpart => hw.trans (if_neg fun h => hpart ⟨h.1, hsub.mp h.2⟩)⟩

/-- The write that a load leaves waiting, with the bytes that it has read, the lowest first. -/
theorem load_pend (hy : Prepared s k p y) (hmap : y.map r.sp 1 needLoad (y.lanesAt r.n (memBytes r.w)) = .ok as)
    (hld : y.load q as = .ok v) {la d : Nat} (hem : p.em ≠ 0) (hd : d + memSlices r.w ≤ 256) :
    ∃ q, (v.write la d (memSlices r.w) as).pend = v.i.k.pend ++ [q] ∧ q.wins = [(p.uid, la + 1)] ∧
      (∀ l, l < 32 → q.masks.getD l 0 = if p.em.getLsbD l = true then sliceMask d (memSlices r.w) else 0) ∧
      ∀ a ∈ as, ∀ m l, m < memBytes r.w → a.locs[m]? = some l →
        (q.img.getD a.lane 0).toNat / 2 ^ (4 * d + 8 * m) % 256 = (v.byte l).toNat := by
  have hv := load_keeps hld
  have hvp : v.i.p = y.p := by rw [hv]
  obtain ⟨F, hF, hlane⟩ := map_lanes hmap
  refine ⟨_, write_pend (by rwa [hvp, hy.em]), ?_, fun l hl => ?_, fun a ha m l hm hl => ?_⟩
  · dsimp only
    rw [hvp, hy.uid]
  · dsimp only
    rw [getD_laneMasks _ _ hl, hvp, hy.em]
    rfl
  · exact byte_of_write hF hlane ha hl hd (by unfold memSlices; omega)

/-- With no older copy in the core and no store of the skein waiting, a load reads memory. -/
theorem load_bytes (hi : loadRow i = some r) (hy : Prepared s k p y) (hpol : x.policy r.pol false = .ok (q, y))
    (hmap : y.map r.sp 1 needLoad (y.lanesAt r.n (memBytes r.w)) = .ok as)
    (hld : y.load q as = .ok v) (hstores : k.stores = []) {a : LaneAcc} (ha : a ∈ as) {l : Loc} (hl : l ∈ a.locs)
    (h : r.sp ≠ .g ∨ (l.pcie = false ∧ q.getLsbD 16 = false ∧ (∀ z ∈ (s.core k.coreId).l1, z.line ≠ l.addr / 64) ∧
      ∀ z ∈ (s.die k.die).pcie, paType (z.line * 64) = 2)) : v.byte l = s.peek l := by
  have hys : y.k.stores = [] := hy.stores.trans hstores
  have h16 : q.getLsbD 16 = false := by
    rcases h with hsp | ⟨-, h16, -⟩
    · rw [loadRow_pol hi hsp] at hpol
      cases hpol
      rfl
    · exact h16
  have hsc : r.sp ≠ .g → l.sp ≠ .g := fun hsp => by
    cases hr : r.sp with
    | g => exact absurd hr hsp
    | s =>
      rw [hr] at hmap
      exact locs_of_mapSC Space.noConfusion hmap ha hl
    | c =>
      rw [hr] at hmap
      exact locs_of_mapSC Space.noConfusion hmap ha hl
  by_cases hg : l.sp = .g
  · obtain ⟨hpc, -, hno, hdie⟩ := h.resolve_left fun hsp => hsc hsp hg
    have hcore : y.k.coreId = k.coreId := congrArg (· / 128) hy.id
    have hdieId : y.k.die = k.die := congrArg (· / 128 / 64) hy.id
    refine (byte_of_load_ram hld hys h16 (List.mem_flatMap.mpr ⟨a, ha, hl⟩) hg (fun e => ?_) ?_ ?_).trans (hy.bytes.peek l)
    · simp [Loc.pcie, hg, e] at hpc
    · rw [hcore]
      unfold State.core
      rw [hy.bytes.cores]
      exact hno
    · unfold PcieLines State.die
      rw [hdieId, hy.bytes.dies]
      exact hdie
  · exact (byte_of_load_space hld hys h16 hg).trans (hy.bytes.peek l)

end

end Sys2Proof.Machine
end

section
/-! SUPPORT. The causes that an access meets at its addresses, lane by lane (R118, R120, R185, R194, R197, R200, R443). -/

namespace Sys2Proof.Machine

/-! ## Lanes that a trap names -/

theorem mem_active {x : Iss} {l : Nat} : l ∈ x.active ↔ l < 32 ∧ x.p.em.getLsbD l = true := by
  simp [Iss.active, lanesOf, laneIds, inMask]

/-- The active lanes that satisfy a test, each with its address. -/
def Iss.named (x : Iss) (n : BitVec 5) (bad : Nat → Bool) : List (Nat × Nat) := (x.active.filter bad).map fun l => (l, x.ea n l)

theorem mem_named {x : Iss} {n : BitVec 5} {bad : Nat → Bool} {v : Nat × Nat} :
    v ∈ x.named n bad ↔ v.1 < 32 ∧ x.p.em.getLsbD v.1 = true ∧ bad v.1 = true ∧ v.2 = x.ea n v.1 := by
  unfold Iss.named
  simp only [List.mem_map, List.mem_filter, mem_active]
  constructor
  · rintro ⟨l, ⟨⟨hl, he⟩, hb⟩, rfl⟩
    exact ⟨hl, he, hb, rfl⟩
  · rintro ⟨hl, he, hb, h2⟩
    exact ⟨v.1, ⟨⟨hl, he⟩, hb⟩, Prod.ext rfl h2.symm⟩

theorem map_fst_named (x : Iss) (n : BitVec 5) (bad : Nat → Bool) : (x.named n bad).map (·.1) = x.active.filter bad := by
  unfold Iss.named
  rw [List.map_map]
  exact List.map_id _

theorem getLsbD_named {x : Iss} {n : BitVec 5} {bad : Nat → Bool} {l : Nat} :
    (maskOfLanes ((x.named n bad).map (·.1))).getLsbD l = true ↔ l < 32 ∧ x.p.em.getLsbD l = true ∧ bad l = true := by
  rw [getLsbD_maskOfLanes, map_fst_named, List.mem_filter, mem_active]
  tauto

theorem named_isEmpty {x : Iss} {n : BitVec 5} {bad : Nat → Bool} :
    (x.named n bad).isEmpty = true ↔ ¬∃ l, l < 32 ∧ x.p.em.getLsbD l = true ∧ bad l = true := by
  rw [List.isEmpty_iff, List.eq_nil_iff_forall_not_mem]
  constructor
  · rintro h ⟨l, hl, he, hb⟩
    exact h (l, x.ea n l) (mem_named.mpr ⟨hl, he, hb, rfl⟩)
  · intro h v hv
    obtain ⟨hl, he, hb, -⟩ := mem_named.mp hv
    exact h ⟨v.1, hl, he, hb⟩

/-- The trap that names the active lanes that satisfy a test, and their addresses. -/
def Iss.trapNamed {α : Type} (x : Iss) (n : BitVec 5) (code : BitVec 16) (bad : Nat → Bool) : Res α :=
  x.trapAt code (maskOfLanes ((x.named n bad).map (·.1))) (x.named n bad)

/-! ## Alignment (R118) -/

theorem aligned_named (x : Iss) (n : BitVec 5) (bytes : Nat) :
    x.aligned bytes (x.ea n) = if (x.named n fun l => x.ea n l % bytes != 0).isEmpty then .ok ()
      else x.trapNamed n 0x8202 fun l => x.ea n l % bytes != 0 := by
  have hempty : (x.named n fun l => x.ea n l % bytes != 0).isEmpty = (x.active.filter fun l => x.ea n l % bytes != 0).isEmpty := by
    unfold Iss.named
    exact List.isEmpty_map
  unfold Iss.trapNamed
  rw [hempty, map_fst_named]
  rfl

/-! ## Range and baskets (R185, R443) -/

theorem filter_lanesAt (x : Iss) (n : BitVec 5) (bytes : Nat) (f : Nat × Nat × Nat → Bool) :
    ((x.lanesAt n bytes).filter f).map (fun r => (r.1, r.2.1)) = x.named n fun l => f (l, x.ea n l, bytes) := by
  unfold Iss.lanesAt Iss.named
  rw [List.filter_map, List.map_map]
  rfl

theorem mapSC_named (x : Iss) (sp : Space) (n : BitVec 5) (bytes : Nat) :
    let out (l : Nat) : Bool := !x.s.inRange x.k sp (x.ea n l) bytes
    let hit (l : Nat) : Bool := x.s.hitsBasket x.k sp (x.ea n l) bytes
    (¬(x.named n out).isEmpty = true → x.mapSC sp (x.lanesAt n bytes) = x.trapNamed n 0x8403 out) ∧
      ((x.named n out).isEmpty = true → ¬(x.named n hit).isEmpty = true →
        x.mapSC sp (x.lanesAt n bytes) = x.trapNamed n 0x8406 hit) := by
  intro out hit
  have ho := filter_lanesAt x n bytes fun r => !x.s.inRange x.k sp r.2.1 r.2.2
  have hh := filter_lanesAt x n bytes fun r => x.s.hitsBasket x.k sp r.2.1 r.2.2
  have hfst (l : List (Nat × Nat × Nat)) : (l.map fun r => (r.1, r.2.1)).map (·.1) = l.map (·.1) := by
    rw [List.map_map]
    rfl
  have heo : ((x.lanesAt n bytes).filter fun r => !x.s.inRange x.k sp r.2.1 r.2.2).isEmpty = (x.named n out).isEmpty := by
    rw [← ho]
    exact List.isEmpty_map.symm
  have heh : ((x.lanesAt n bytes).filter fun r => x.s.hitsBasket x.k sp r.2.1 r.2.2).isEmpty = (x.named n hit).isEmpty := by
    rw [← hh]
    exact List.isEmpty_map.symm
  unfold Iss.mapSC Iss.trapNamed
  dsimp only
  rw [heo, heh, ← hfst, ← hfst, ho, hh]
  refine ⟨fun h => ?_, fun h h' => ?_⟩
  · rw [if_pos (by simpa using h)]
    rfl
  · rw [if_neg (by simpa using h), if_pos (by simpa using h')]
    rfl

/-! ## Translation and permission (R194, R197, R200) -/

/-- No page of the walk. -/
def Walk.faults (w : Walk) : Bool := match w with
  | .leaf _ => false
  | .unmapped | .malformed => true

/-- A page that satisfies a test. -/
def Walk.leafIs (f : Leaf → Bool) (w : Walk) : Bool := match w with
  | .leaf l => f l
  | _ => false

/-- Where a lane's address leads in the context of the skein. -/
def Iss.walk (x : Iss) (n : BitVec 5) (l : Nat) : Walk := x.s.translate (x.s.ctxOf x.k) (x.ea n l)

/-- A range within one piece of 64 KiB. -/
theorem pieces_one {va n : Nat} (hn : 0 < n) (h : va % 65536 + n ≤ 65536) (f : Nat) : pieces (f + 2) va n = [(va, n)] := by
  unfold pieces
  rw [if_neg (by omega), show min n (65536 - va % 65536) = n by omega]
  show (va, n) :: pieces (f + 1) _ (n - n) = _
  rw [Nat.sub_self]
  rfl

/-- The walks of an access, each lane's within one piece. -/
theorem filterMap_walks (ls : List Nat) (ea : Nat → Nat) (bytes : Nat) (walk : Nat → Walk) (g : Walk → Bool) :
    (ls.map fun l => (l, [((ea l, bytes), walk l)])).filterMap (fun w => (w.2.find? fun x => g x.2).map fun x => (w.1, x.1.1)) =
      (ls.filter fun l => g (walk l)).map fun l => (l, ea l) := by
  induction ls with
  | nil => rfl
  | cons l ls ih =>
    rw [List.map_cons, List.filterMap_cons, ih]
    cases h : g (walk l) <;> simp [h]

theorem filterMap_faults (ls : List Nat) (ea : Nat → Nat) (bytes : Nat) (walk : Nat → Walk) (g : Walk → Bool) :
    (ls.map fun l => (l, [((ea l, bytes), walk l)])).filterMap (fun w => (w.2.find? fun x => g x.2).map fun x => (w.1, x.1.1, x.2)) =
      (ls.filter fun l => g (walk l)).map fun l => (l, ea l, walk l) := by
  induction ls with
  | nil => rfl
  | cons l ls ih =>
    rw [List.map_cons, List.filterMap_cons, ih]
    cases h : g (walk l) <;> simp [h]

/-- A page that lacks a permission of a need. -/
def lacksPerm (need : Need) (e : Leaf) : Bool := !e.permits need

/-- A page that the read mask of a context keeps from a need. -/
def veiledBy (c : Context) (need : Need) (e : Leaf) : Bool := need.mask && !c.mayRead e.set

/-- What translation and permission answer for accesses that each lie within one piece, in their order. -/
theorem mapG_named (x : Iss) (kind : Nat) (need : Need) (n : BitVec 5) (bytes : Nat)
    (hone : ∀ l ∈ x.active, pieces (bytes / 65536 + 2) (x.ea n l) bytes = [(x.ea n l, bytes)]) :
    let c := x.s.ctxOf x.k
    let gone (l : Nat) : Bool := (x.walk n l).faults
    let lacks (l : Nat) : Bool := (x.walk n l).leafIs (lacksPerm need)
    let veiled (l : Nat) : Bool := (x.walk n l).leafIs (veiledBy c need)
    let both (l : Nat) : Bool := (x.walk n l).leafIs fun e => lacksPerm need e || veiledBy c need e
    (¬(x.named n gone).isEmpty = true → x.mapG kind need (x.lanesAt n bytes) =
      .error (.park kind (x.named n gone) ((x.active.filter gone).any fun l => x.walk n l == .malformed) (some x.keeps))) ∧
    ((x.named n gone).isEmpty = true →
      (¬(x.named n lacks).isEmpty = true → x.mapG kind need (x.lanesAt n bytes) = x.trapNamed n 0x8401 both) ∧
      ((x.named n lacks).isEmpty = true → ¬(x.named n veiled).isEmpty = true →
        x.mapG kind need (x.lanesAt n bytes) = x.trapNamed n 0x8402 both)) := by
  intro c gone lacks veiled both
  unfold Iss.mapG
  extract_lets walks fault bad lacks' which noPerm noRead both'
  have hwalks : walks = x.active.map fun l => (l, [((x.ea n l, bytes), x.walk n l)]) := by
    unfold walks Iss.lanesAt
    rw [List.map_map]
    refine List.map_congr_left fun l hl => ?_
    simp only [Function.comp_apply]
    rw [hone l hl]
    rfl
  have hfault : fault = Walk.faults := by
    funext w
    cases w <;> rfl
  have hlacks (f : Leaf → Bool) : lacks' f = Walk.leafIs f := by
    funext w
    cases w <;> rfl
  have hbad : bad = (x.active.filter gone).map fun l => (l, x.ea n l, x.walk n l) := by
    unfold bad
    rw [hwalks, hfault]
    exact filterMap_faults ..
  have hwhich (f : Leaf → Bool) : which f = x.named n fun l => (x.walk n l).leafIs f := by
    unfold which
    rw [hwalks, hlacks]
    exact filterMap_walks ..
  have hgone : bad.isEmpty = (x.named n gone).isEmpty := by
    rw [hbad]
    unfold Iss.named
    rw [List.isEmpty_map, List.isEmpty_map]
  have hvas : (bad.map fun x => (x.1, x.2.1)) = x.named n gone := by
    rw [hbad, List.map_map]
    rfl
  have hmal : (bad.any fun x => x.2.2 == .malformed) = (x.active.filter gone).any fun l => x.walk n l == .malformed := by
    rw [hbad, List.any_map]
    rfl
  have hperm : noPerm = x.named n lacks := hwhich _
  have hread : noRead = x.named n veiled := hwhich _
  have hboth : both' = x.named n both := hwhich _
  rw [hgone, hvas, hmal, hperm, hread, hboth]
  refine ⟨fun h => if_pos (by simpa using h), fun h => ⟨fun h' => ?_, fun h' h'' => ?_⟩⟩
  · rw [if_neg (by simpa using h), if_pos (by simpa using h')]
    rfl
  · rw [if_neg (by simpa using h), if_neg (by simpa using h'), if_pos (by simpa using h'')]
    rfl

end Sys2Proof.Machine
end

section
/-! SUPPORT. Where a load, a store or an atomic stops at its addresses (R118, R120, R185, R197, R200, R201, R210, R443). -/

namespace Sys2Proof.Machine

/-! ## Loads, stores and atomics as accesses -/

theorem atomRow_bytes (f : AtomF) : f.bits / 8 = 4 ∨ f.bits / 8 = 8 ∨ f.bits / 8 = 16 ∨ f.bits / 8 = 32 := by
  have := f.wc.isLt
  unfold AtomF.bits
  interval_cases f.wc.toNat <;> simp

/-- An access is of a power of two of bytes, and needs no permission to execute. -/
theorem accessRow_cases {i : Instr} {r : AccessRow} (h : accessRow i = some r) :
    r.need.ex = false ∧ (r.bytes = 1 ∨ r.bytes = 2 ∨ r.bytes = 4 ∨ r.bytes = 8 ∨ r.bytes = 16 ∨ r.bytes = 32) := by
  have hw (w : Width) : memBytes w = 1 ∨ memBytes w = 2 ∨ memBytes w = 4 ∨ memBytes w = 8 ∨ memBytes w = 16 ∨ memBytes w = 32 := by
    cases w <;> decide
  unfold accessRow at h
  split at h
  · cases h
    exact ⟨rfl, hw _⟩
  · cases h
    exact ⟨rfl, hw _⟩
  · next f _ _ _ =>
    cases h
    exact ⟨rfl, Or.inr (Or.inr (atomRow_bytes f))⟩
  · cases h

section
variable {i : Instr} {r : AccessRow} {s : State} {k : Skein} {p : Split} {x y : Iss} {q : BitVec 32}

theorem atomic_reaches {op : AtomOp} {f : AtomF} (h : atomRow i = some (op, f)) (ho : (Iss.start s k p).operands (f.opds op p.em) = .ok x)
    (hem : x.p.em ≠ 0) :
    ∃ rest, Reaches i s k p ⟨f.space, f.bits / 8, f.n, 3, needAtomic, f.opds op, 0, false⟩ x rest := by
  have he : exec i s = atomic i op f s := by
    unfold atomRow at h
    split at h <;> cases h <;> rfl
  exact ⟨_, _, he, (res_bind_ok ho).trans ((if_neg (by simpa using hem)).trans rfl)⟩

/-- An access with an active lane comes to the checks on its addresses. -/
theorem access_reaches (hi : accessRow i = some r) (ho : (Iss.start s k p).operands (r.ops p.em) = .ok x)
    (hpol : x.policy r.pol r.store = .ok (q, y)) (hem : y.p.em ≠ 0) : ∃ rest, Reaches i s k p r y rest := by
  unfold accessRow at hi
  split at hi
  · next h =>
    cases hi
    exact ⟨_, load_reaches h ho hpol⟩
  · next h _ =>
    cases hi
    exact ⟨_, store_reaches h ho hpol⟩
  · next h _ _ =>
    cases hi
    cases hpol
    exact atomic_reaches h ho hem
  · cases hi

/-! ## The traps at an address -/

/-- A trap with a code that names exactly the active lanes that satisfy a predicate, with their addresses. -/
def TrapsAt (i : Instr) (s : State) (k : Skein) (p : Split) (ea : Nat → Nat) (code : BitVec 16) (bad : Nat → Prop) : Prop :=
  ∃ lfm addrs set, Traps i s k p code lfm addrs set ∧
    (∀ l, l < 32 → (lfm.getLsbD l = true ↔ p.em.getLsbD l = true ∧ bad l)) ∧
    ∀ v, v ∈ addrs ↔ v.1 < 32 ∧ p.em.getLsbD v.1 = true ∧ bad v.1 ∧ v.2 = ea v.1

theorem trapsAt_of_named {rest : List LaneAcc → Res State} {code : BitVec 16} {b : Nat → Bool} {bad : Nat → Prop}
    (hs : Starts i s k p) (hy : Prepared s k p y) (hr : Reaches i s k p r y rest) (h : y.located r rest = y.trapNamed r.n code b)
    (hb : ∀ l, l < 32 → p.em.getLsbD l = true → (b l = true ↔ bad l)) : TrapsAt i s k p (y.ea r.n) code bad := by
  obtain ⟨body, he, hbody⟩ := hr
  refine ⟨_, _, _, traps_of_body he hs (hbody.trans h), fun l hl => ?_, fun v => ?_⟩
  · rw [getLsbD_named, hy.em]
    constructor
    · rintro ⟨-, hem, hbl⟩
      exact ⟨hem, (hb l hl hem).mp hbl⟩
    · rintro ⟨hem, hbl⟩
      exact ⟨hl, hem, (hb l hl hem).mpr hbl⟩
  · rw [mem_named, hy.em]
    constructor
    · rintro ⟨hl, hem, hbl, h2⟩
      exact ⟨hl, hem, (hb v.1 hl hem).mp hbl, h2⟩
    · rintro ⟨hl, hem, hbl, h2⟩
      exact ⟨hl, hem, (hb v.1 hl hem).mpr hbl, h2⟩

/-- Some active lane satisfies a predicate. -/
def Split.someLane (p : Split) (bad : Nat → Prop) : Prop := ∃ l, l < 32 ∧ p.em.getLsbD l = true ∧ bad l

theorem named_isEmpty_iff (hy : Prepared s k p y) {n : BitVec 5} {b : Nat → Bool} {bad : Nat → Prop}
    (hb : ∀ l, l < 32 → p.em.getLsbD l = true → (b l = true ↔ bad l)) : (y.named n b).isEmpty = true ↔ ¬p.someLane bad := by
  rw [named_isEmpty, hy.em]
  refine not_congr (exists_congr fun l => ?_)
  constructor
  · rintro ⟨hl, hem, h⟩
    exact ⟨hl, hem, (hb l hl hem).mp h⟩
  · rintro ⟨hl, hem, h⟩
    exact ⟨hl, hem, (hb l hl hem).mpr h⟩

theorem em_ne_zero_of_someLane {bad : Nat → Prop} (h : p.someLane bad) : p.em ≠ 0 := by
  obtain ⟨l, -, hem, -⟩ := h
  exact (ne_zero_iff_bit _).mpr ⟨l, hem⟩

/-- A lane whose address is no multiple of the size. -/
def Iss.skewAt (y : Iss) (r : AccessRow) (l : Nat) : Prop := y.ea r.n l % r.bytes ≠ 0

theorem skew_iff {y : Iss} {r : AccessRow} (l : Nat) : (y.ea r.n l % r.bytes != 0) = true ↔ y.skewAt r l := bne_iff_ne

theorem traps_misaligned (hi : accessRow i = some r) (hs : Starts i s k p) (ho : (Iss.start s k p).operands (r.ops p.em) = .ok x)
    (hpol : x.policy r.pol r.store = .ok (q, y)) (h : p.someLane (y.skewAt r)) : TrapsAt i s k p (y.ea r.n) 0x8202 (y.skewAt r) := by
  have hy := prepared ho hpol
  obtain ⟨rest, hr⟩ := access_reaches hi ho hpol (by rw [hy.em]; exact em_ne_zero_of_someLane h)
  refine trapsAt_of_named hs hy hr (b := fun l => y.ea r.n l % r.bytes != 0) (res_bind_error ?_) fun l _ _ => skew_iff l
  rw [aligned_named, if_neg fun he => (named_isEmpty_iff hy fun l _ _ => skew_iff l).mp he h]
  rfl

theorem aligned_of_not_skew (hy : Prepared s k p y) (h : ¬p.someLane (y.skewAt r)) : y.aligned r.bytes (y.ea r.n) = .ok () := by
  rw [aligned_named, if_pos ((named_isEmpty_iff hy fun l _ _ => skew_iff l).mpr h)]

/-! ## S and C (R185, R443) -/

/-- A lane whose bytes do not lie in the space. -/
def Iss.outAt (y : Iss) (r : AccessRow) (l : Nat) : Prop := 2 ^ 32 ≤ y.ea r.n l ∨ y.s.spaceSize y.k r.sp < y.ea r.n l + r.bytes

theorem out_iff {y : Iss} {r : AccessRow} (l : Nat) : (!y.s.inRange y.k r.sp (y.ea r.n l) r.bytes) = true ↔ y.outAt r l := by
  unfold State.inRange Iss.outAt
  rw [Bool.not_eq_true', Bool.and_eq_false_iff, decide_eq_false_iff_not, decide_eq_false_iff_not, Nat.not_lt, Nat.not_le]

theorem map_eq_mapSC (hsp : r.sp ≠ .g) : y.map r.sp r.kind r.need (y.lanesAt r.n r.bytes) = y.mapSC r.sp (y.lanesAt r.n r.bytes) := by
  unfold Iss.map
  split
  · next e => exact absurd e hsp
  · rfl
  · rfl

theorem traps_space (hi : accessRow i = some r) (hs : Starts i s k p) (ho : (Iss.start s k p).operands (r.ops p.em) = .ok x)
    (hpol : x.policy r.pol r.store = .ok (q, y)) (hno : ¬p.someLane (y.skewAt r)) (hsp : r.sp ≠ .g) :
    (p.someLane (y.outAt r) → TrapsAt i s k p (y.ea r.n) 0x8403 (y.outAt r)) ∧
      (¬p.someLane (y.outAt r) → p.someLane (fun l => y.s.hitsBasket y.k r.sp (y.ea r.n l) r.bytes = true) →
        TrapsAt i s k p (y.ea r.n) 0x8406 fun l => y.s.hitsBasket y.k r.sp (y.ea r.n l) r.bytes = true) := by
  have hy := prepared ho hpol
  have hal := aligned_of_not_skew hy hno
  obtain ⟨hout, hhit⟩ := mapSC_named y r.sp r.n r.bytes
  have hoe := named_isEmpty_iff hy (n := r.n) (b := fun l => !y.s.inRange y.k r.sp (y.ea r.n l) r.bytes) fun l _ _ => out_iff (r := r) l
  refine ⟨fun h => ?_, fun h h' => ?_⟩
  · obtain ⟨rest, hr⟩ := access_reaches hi ho hpol (by rw [hy.em]; exact em_ne_zero_of_someLane h)
    exact trapsAt_of_named hs hy hr ((res_bind_ok hal).trans (res_bind_error ((map_eq_mapSC hsp).trans (hout fun e => hoe.mp e h))))
      fun l _ _ => out_iff l
  · obtain ⟨rest, hr⟩ := access_reaches hi ho hpol (by rw [hy.em]; exact em_ne_zero_of_someLane h')
    have hhe := named_isEmpty_iff hy (n := r.n) (b := fun l => y.s.hitsBasket y.k r.sp (y.ea r.n l) r.bytes) fun l _ _ => Iff.rfl
    exact trapsAt_of_named hs hy hr ((res_bind_ok hal).trans (res_bind_error ((map_eq_mapSC hsp).trans
      (hhit (hoe.mpr h) fun e => hhe.mp e h')))) fun l _ _ => Iff.rfl

end

end Sys2Proof.Machine
end

section
/-! SUPPORT. Translation faults and permissions of an access to G, and how its split parks (R120, R197, R200, R201). -/

namespace Sys2Proof.Machine

/-! ## Walks -/

theorem faults_iff (w : Walk) : w.faults = true ↔ ∀ e, w ≠ .leaf e := by
  cases w <;> simp [Walk.faults]

theorem leafIs_iff (f : Leaf → Bool) (w : Walk) : w.leafIs f = true ↔ ∃ e, w = .leaf e ∧ f e = true := by
  cases w <;> simp [Walk.leafIs]

theorem lacksPerm_iff {need : Need} (hex : need.ex = false) (e : Leaf) :
    lacksPerm need e = true ↔ (need.rd = true ∧ e.rd = false) ∨ (need.wr = true ∧ e.wr = false) := by
  unfold lacksPerm Leaf.permits
  rw [hex]
  simp only [Bool.not_false, Bool.true_or, Bool.and_true, Bool.not_eq_true', Bool.and_eq_false_iff, Bool.or_eq_false_iff, Bool.not_eq_false']

theorem veiledBy_iff (c : Context) (need : Need) (e : Leaf) : veiledBy c need e = true ↔ need.mask = true ∧ e.set &&& ~~~c.readMask ≠ 0 := by
  unfold veiledBy Context.mayRead
  rw [Bool.and_eq_true, Bool.not_eq_true', Bool.eq_false_iff, ne_eq, subset_iff]

/-! ## Parking (R200, R201) -/

section
variable {s : State} {k : Skein} {p : Split} {gpc word : Addr} {kind : Nat} {vas : List (Nat × Nat)} {bad : Bool} {redo : Redo}

theorem meetFault_of_full (h : 64 ≤ (s.cluster k.cluster).fbuf.length) :
    s.meetFault k p gpc word kind vas bad (some redo) = s.stallOn k p .buffer := if_pos (decide_eq_true h)

theorem meetFault_of_room (h : ¬64 ≤ (s.cluster k.cluster).fbuf.length) (hstep : k.swlo.getLsbD 1 = false) :
    s.meetFault k p gpc word kind vas bad (some redo) = s.parkOn k p gpc word kind vas bad (some redo) := by
  have hfull : ¬s.parkFull k = true := fun e => h (of_decide_eq_true e)
  unfold State.meetFault
  rw [if_neg hfull, hstep, Bool.false_and]
  rfl

/-- A record that a mender receives leaves the fault buffers. -/
theorem fbuf_receive (s : State) (n m : Nat) (r : Record) : ((s.receive n r).cluster m).fbuf = (s.cluster m).fbuf :=
  cluster_modCluster_field Cluster.fbuf s n m _ fun _ => rfl

/-- Parking adds one entry to the fault buffer of the skein's cluster. -/
theorem parkOn_fbuf (hcl : k.cluster < s.clusters.length) :
    ((s.parkOn k p gpc word kind vas bad (some redo)).cluster k.cluster).fbuf =
      (s.cluster k.cluster).fbuf ++ [⟨s.nextId, k.id, p.uid, k.ctx, gpc, kind, vas, bad⟩] := by
  unfold State.parkOn
  extract_lets e base r q s1
  obtain ⟨hlen, hm⟩ := release_menders ({ s with nextId := s.nextId + 1 }.setSkein (k.setSplit q)) k.id (·.owners.contains p.uid) true
  have hl : k.cluster < s1.clusters.length := by
    show k.cluster < (State.release _ _ _ _).clusters.length
    rw [hlen]
    exact hcl
  rw [fbuf_receive, cluster_modCluster, if_pos ⟨rfl, hl⟩]
  exact congrArg (· ++ [e]) (hm k.cluster).2

/-- The parked split stands at its group's address with the instruction to perform again; its skein is otherwise as before but for the
stores that the park releases. -/
theorem parkOn_skein (hk : s.skein? k.id = some k) (hp : k.split? p.uid = some p) :
    ∃ es q, (s.parkOn k p gpc word kind vas bad (some redo)).skein? k.id = some { k.setSplit q with stores := es } ∧
      (k.setSplit q).split? p.uid = some q ∧ q.pc = gpc ∧ q.st = .parked (.translation s.nextId (some redo)) := by
  unfold State.parkOn
  extract_lets e base r q s1
  have hset : ({ s with nextId := s.nextId + 1 }.setSkein (k.setSplit q)).skein? k.id = some (k.setSplit q) :=
    skein_setSkein_same (s := { s with nextId := s.nextId + 1 }) (k := k.setSplit q) (by
      show (s.skein? k.id).isSome = true
      rw [hk]
      rfl)
  obtain ⟨es, hes⟩ := skein_release_same _ (·.owners.contains p.uid) true hset
  have hsame : (k.setSplit q).split? q.uid = some q := split_setSplit_same (by
    show (k.split? p.uid).isSome = true
    rw [hp]
    rfl)
  exact ⟨es, q, hes, hsame, rfl, rfl⟩

end

/-! ## G -/

/-- A lane whose address has no page. -/
def Iss.goneAt (y : Iss) (n : BitVec 5) (l : Nat) : Prop := ∀ e, y.walk n l ≠ .leaf e

/-- A lane whose page lacks a permission. -/
def Iss.lacksAt (y : Iss) (r : AccessRow) (l : Nat) : Prop :=
  ∃ e, y.walk r.n l = .leaf e ∧ ((r.need.rd = true ∧ e.rd = false) ∨ (r.need.wr = true ∧ e.wr = false))

/-- A lane whose page the read mask forbids. -/
def Iss.veiledAt (y : Iss) (r : AccessRow) (l : Nat) : Prop :=
  ∃ e, y.walk r.n l = .leaf e ∧ r.need.mask = true ∧ e.set &&& ~~~(y.s.ctxOf y.k).readMask ≠ 0

section
variable {i : Instr} {r : AccessRow} {s : State} {k : Skein} {p : Split} {x y : Iss} {q : BitVec 32}

/-- An aligned access lies within one piece. -/
theorem pieces_of_aligned (hi : accessRow i = some r) (hy : Prepared s k p y) (hno : ¬p.someLane (y.skewAt r)) :
    ∀ l ∈ y.active, pieces (r.bytes / 65536 + 2) (y.ea r.n l) r.bytes = [(y.ea r.n l, r.bytes)] := by
  intro l hl
  obtain ⟨hl, hem⟩ := mem_active.mp hl
  have hmod : y.ea r.n l % r.bytes = 0 := by
    by_contra h
    exact hno ⟨l, hl, hy.em ▸ hem, h⟩
  obtain ⟨-, hb⟩ := accessRow_cases hi
  generalize r.bytes = b at *
  refine pieces_one (by omega) ?_ _
  rcases hb with rfl | rfl | rfl | rfl | rfl | rfl <;> omega

theorem gone_iff (y : Iss) (n : BitVec 5) (l : Nat) : (y.walk n l).faults = true ↔ y.goneAt n l := faults_iff _

theorem lacks_iff (hi : accessRow i = some r) (y : Iss) (l : Nat) : (y.walk r.n l).leafIs (lacksPerm r.need) = true ↔ y.lacksAt r l := by
  rw [leafIs_iff]
  exact exists_congr fun e => and_congr Iff.rfl (lacksPerm_iff (accessRow_cases hi).1 e)

theorem veiled_iff (y : Iss) (r : AccessRow) (l : Nat) :
    (y.walk r.n l).leafIs (veiledBy (y.s.ctxOf y.k) r.need) = true ↔ y.veiledAt r l := by
  rw [leafIs_iff]
  exact exists_congr fun e => and_congr Iff.rfl (veiledBy_iff _ _ e)

theorem both_iff (hi : accessRow i = some r) (y : Iss) (l : Nat) :
    (y.walk r.n l).leafIs (fun e => lacksPerm r.need e || veiledBy (y.s.ctxOf y.k) r.need e) = true ↔ y.lacksAt r l ∨ y.veiledAt r l := by
  rw [← lacks_iff hi, ← veiled_iff]
  cases y.walk r.n l <;> simp [Walk.leafIs]

/-- The pages without a permission, and then those that the read mask forbids (R197). -/
theorem traps_permission (hi : accessRow i = some r) (hs : Starts i s k p) (ho : (Iss.start s k p).operands (r.ops p.em) = .ok x)
    (hpol : x.policy r.pol r.store = .ok (q, y)) (hno : ¬p.someLane (y.skewAt r)) (hsp : r.sp = .g) (hg : ¬p.someLane (y.goneAt r.n)) :
    (p.someLane (fun l => p.someLane (y.lacksAt r) ∧ (y.lacksAt r l ∨ y.veiledAt r l)) →
      TrapsAt i s k p (y.ea r.n) 0x8401 fun l => p.someLane (y.lacksAt r) ∧ (y.lacksAt r l ∨ y.veiledAt r l)) ∧
      (¬p.someLane (y.lacksAt r) → p.someLane (y.veiledAt r) → TrapsAt i s k p (y.ea r.n) 0x8402 (y.veiledAt r)) := by
  have hy := prepared ho hpol
  have hal := aligned_of_not_skew hy hno
  obtain ⟨-, hperm⟩ := mapG_named y r.kind r.need r.n r.bytes (pieces_of_aligned hi hy hno)
  obtain ⟨hlack, hveil⟩ := hperm ((named_isEmpty_iff hy fun l _ _ => gone_iff y r.n l).mpr hg)
  have hle := named_isEmpty_iff hy (n := r.n) (b := fun l => (y.walk r.n l).leafIs (lacksPerm r.need)) fun l _ _ => lacks_iff hi y l
  have hve := named_isEmpty_iff hy (n := r.n) (b := fun l => (y.walk r.n l).leafIs (veiledBy (y.s.ctxOf y.k) r.need))
    fun l _ _ => veiled_iff y r l
  have hmap : y.map r.sp r.kind r.need (y.lanesAt r.n r.bytes) = y.mapG r.kind r.need (y.lanesAt r.n r.bytes) := by
    rw [hsp]
    rfl
  refine ⟨fun h => ?_, fun hnl h => ?_⟩
  · obtain ⟨rest, hr⟩ := access_reaches hi ho hpol (by rw [hy.em]; exact em_ne_zero_of_someLane h)
    obtain ⟨-, -, -, hl, -⟩ := h
    exact trapsAt_of_named hs hy hr ((res_bind_ok hal).trans (res_bind_error (hmap.trans (hlack fun e => hle.mp e hl))))
      fun l _ _ => (both_iff hi y l).trans (and_iff_right hl).symm
  · obtain ⟨rest, hr⟩ := access_reaches hi ho hpol (by rw [hy.em]; exact em_ne_zero_of_someLane h)
    exact trapsAt_of_named hs hy hr ((res_bind_ok hal).trans (res_bind_error (hmap.trans (hveil (hle.mpr hnl) fun e => hve.mp e h))))
      fun l hl hem => (both_iff hi y l).trans (or_iff_right fun hlk => hnl ⟨l, hl, hem, hlk⟩)

/-- An access of which some lane has no page meets a translation fault of those lanes (R200). -/
theorem meets_fault (hi : accessRow i = some r) (hs : Starts i s k p) (ho : (Iss.start s k p).operands (r.ops p.em) = .ok x)
    (hpol : x.policy r.pol r.store = .ok (q, y)) (hno : ¬p.someLane (y.skewAt r)) (hsp : r.sp = .g) (hg : p.someLane (y.goneAt r.n)) :
    ∃ vas bad kept, exec i s = .next (s.meetFault k p (p.hints.gpc.getD p.pc) p.pc r.kind vas bad
        (some ⟨i, p.pc, { p.hints with gpc := some (p.hints.gpc.getD p.pc) }, kept, p.counted⟩)) ∧
      (∀ v, v ∈ vas ↔ v.1 < 32 ∧ p.em.getLsbD v.1 = true ∧ y.goneAt r.n v.1 ∧ v.2 = y.ea r.n v.1) ∧
      (bad = true ↔ p.someLane fun l => y.walk r.n l = .malformed) := by
  have hy := prepared ho hpol
  have hal := aligned_of_not_skew hy hno
  obtain ⟨hgone, -⟩ := mapG_named y r.kind r.need r.n r.bytes (pieces_of_aligned hi hy hno)
  have hge := named_isEmpty_iff hy (n := r.n) (b := fun l => (y.walk r.n l).faults) fun l _ _ => gone_iff y r.n l
  have hmap : y.map r.sp r.kind r.need (y.lanesAt r.n r.bytes) = y.mapG r.kind r.need (y.lanesAt r.n r.bytes) := by
    rw [hsp]
    rfl
  obtain ⟨rest, body, he, hb⟩ := access_reaches hi ho hpol (by rw [hy.em]; exact em_ne_zero_of_someLane hg)
  have hloc := hb.trans ((res_bind_ok hal).trans (res_bind_error (hmap.trans (hgone fun e => hge.mp e hg))))
  refine ⟨_, _, _, he.trans (issue_park hs.1 hs.2 hloc), fun v => ?_, ?_⟩
  · rw [mem_named, hy.em, gone_iff]
  · simp only [List.any_eq_true, List.mem_filter, mem_active, hy.em, beq_iff_eq, Split.someLane]
    constructor
    · rintro ⟨l, ⟨⟨hl, hem⟩, -⟩, hw⟩
      exact ⟨l, hl, hem, hw⟩
    · rintro ⟨l, hl, hem, hw⟩
      exact ⟨l, ⟨⟨hl, hem⟩, (gone_iff y r.n l).mpr fun e h => by rw [hw] at h; cases h⟩, hw⟩

end

/-- Settles O24: the load by its checks, its sets, its waiting write and its bytes; the stops in the order of the checks. -/
theorem loadsComplete : Obligations.LoadsComplete := by
  refine ⟨fun i r s k p x y q as v hi hs ho hpol hal hmap hld => ?_, fun i r s k p x y q hi hs ho hpol => ?_⟩
  · have hy := prepared ho hpol
    have hrd : y.rd = x.rd := by rw [policy_keeps hpol]
    refine ⟨load_completes hi hs ho hpol hal hmap hld, load_sets hy hrd hld (by have := memBytes_pos r.w; unfold memSlices; omega),
      fun hem hd => load_pend hy hmap hld hem hd, fun hstores a ha l hl h => load_bytes hi hy hpol hmap hld hstores ha hl h⟩
  · refine ⟨fun h => traps_misaligned hi hs ho hpol h, fun hno hsp => ?_, fun hno hsp => ⟨fun hg hfull => ?_, fun hg hroom hcl hstep => ?_, fun hg => ?_⟩⟩
    · obtain ⟨hout, hhit⟩ := traps_space hi hs ho hpol hno hsp
      exact ⟨hout, fun hno' h => hhit hno' h⟩
    · obtain ⟨vas, bad, kept, he, -, -⟩ := meets_fault hi hs ho hpol hno hsp hg
      rw [he, meetFault_of_full hfull]
    · obtain ⟨vas, bad, kept, he, hvas, hbad⟩ := meets_fault hi hs ho hpol hno hsp hg
      rw [meetFault_of_room hroom hstep] at he
      obtain ⟨hk, hp, hstop, -⟩ := current_cases hs.1
      obtain ⟨es, e, hj, hsplit, hpc, hst⟩ := parkOn_skein hk hp
      exact ⟨_, vas, bad, he, parkOn_fbuf hcl, hvas, hbad, _, e, _, hj, hstop, rfl, hsplit, hpc, hst, rfl, rfl⟩
    · exact traps_permission hi hs ho hpol hno hsp hg

end Sys2Proof.Machine
end

section
/-! SUPPORT. What the events of a skein do: landings, deadlocks, waits that end, resumptions and errors in the data of loads (R32, R34,
R136, R157, R225, R247, R316, R348, R349, R356). -/

namespace Sys2Proof.Machine

section
variable {s : State} {k : Skein} {p : Split}

/-! ## Landing and deadlock (R32, R136) -/

theorem land_first {q : Pend} {rest : List Pend} (h : k.pend = q :: rest) :
    k.land 0 = { k with lanes := mergeLanes k.lanes q.img q.masks, badRegs := mendRegs q.masks k.badRegs, pend := rest } := by
  unfold Skein.land
  rw [h]
  rfl

theorem landsFirst_exec (hk : s.skein? k.id = some k) : exec (.longLatencyWriteLands k.id) s = .next (s.setSkein (k.land 0)) := by
  show execLongLatencyWriteLands k.id s = _
  unfold execLongLatencyWriteLands
  rw [hk]

/-- The split of a list that comes below every other. -/
theorem foldl_lower {ps : List Split} {p : Split} {b : Option Split} (hb : ∀ q, b = some q → q = p ∨ lowest p.members < lowest q.members)
    (hps : ∀ q ∈ ps, q = p ∨ lowest p.members < lowest q.members) (hp : b = some p ∨ p ∈ ps) : ps.foldl Split.lower b = some p := by
  induction ps generalizing b with
  | nil => exact hp.resolve_right (List.not_mem_nil)
  | cons q ps ih =>
    have hq := hps q List.mem_cons_self
    have hrest := fun x hx => hps x (List.mem_cons_of_mem q hx)
    rw [List.foldl_cons]
    cases b with
    | none =>
      refine ih (b := some q) (fun x hx => Option.some.inj hx ▸ hq) hrest ?_
      rcases List.mem_cons.mp (hp.resolve_left fun h => by cases h) with rfl | h
      · exact .inl rfl
      · exact .inr h
    | some c =>
      have hc := hb c rfl
      show ps.foldl Split.lower (if lowest q.members < lowest c.members then some q else some c) = _
      split
      · next hlt =>
        refine ih (b := some q) (fun x hx => Option.some.inj hx ▸ hq) hrest ?_
        rcases hp with h | h
        · obtain rfl := Option.some.inj h
          rcases hq with rfl | hq
          · exact .inl rfl
          · omega
        · rcases List.mem_cons.mp h with rfl | h
          · exact .inl rfl
          · exact .inr h
      · next hge =>
        refine ih (b := some c) (fun x hx => Option.some.inj hx ▸ hc) hrest ?_
        rcases hp with h | h
        · exact .inl h
        · rcases List.mem_cons.mp h with rfl | h
          · rcases hc with rfl | hc
            · exact .inl rfl
            · exact absurd hc hge
          · exact .inr h

/-- The splits that wait at a JOIN without having arrived. -/
def Skein.lost (k : Skein) : List Split := k.splits.filter (·.st == .joinWait false)

theorem mem_lost {q : Split} : q ∈ k.lost ↔ q ∈ k.splits ∧ q.st = .joinWait false := by
  simp [Skein.lost]

theorem deadlocked_of_waits (hp : k.split? p.uid = some p) (hs : k.stop = none) (hw : p.st = .joinWait false)
    (hall : ∀ q ∈ k.splits, ∃ b, q.st = .joinWait b) : k.deadlocked = true := by
  unfold Skein.deadlocked
  rw [hs, Bool.and_eq_true, Bool.and_eq_true, List.any_eq_true, List.all_eq_true]
  refine ⟨⟨rfl, p, List.mem_of_find?_eq_some hp, beq_iff_eq.mpr hw⟩, fun q hq => ?_⟩
  obtain ⟨b, hb⟩ := hall q hq
  rw [hb]

theorem joinDeadlock_traps (hk : s.skein? k.id = some k) (hp : k.split? p.uid = some p) (hs : k.stop = none) (hw : p.st = .joinWait false)
    (hall : ∀ q ∈ k.splits, ∃ b, q.st = .joinWait b)
    (hlow : ∀ q ∈ k.splits, q.st = .joinWait false → q ≠ p → lowest p.members < lowest q.members) :
    exec (.joinDeadlock k.id) s = .next (s.trapStop (k.modSplit p.uid fun q => { q with pc := q.pc - 4, st := .ready })
      { p with pc := p.pc - 4 } (p.pc - 4) (p.pc - 4) 0x8600 (k.lost.foldl (fun m q => m ||| q.members) 0) [] p.co) := by
  have hfirst : k.lost.foldl Split.lower none = some p := by
    refine foldl_lower (fun q h => by cases h) (fun q hq => ?_) (.inr (mem_lost.mpr ⟨List.mem_of_find?_eq_some hp, hw⟩))
    obtain ⟨hq, hst⟩ := mem_lost.mp hq
    by_cases e : q = p
    · exact .inl e
    · exact .inr (hlow q hq hst e)
  show execJoinDeadlock k.id s = _
  unfold execJoinDeadlock
  rw [hk]
  dsimp only
  rw [deadlocked_of_waits hp hs hw hall, show (k.splits.filter (·.st == .joinWait false)).foldl Split.lower none = some p from hfirst]
  rfl

/-! ## Waits that end (R157, R225, R316) -/

/-- The bytes of the object that a split waits at. -/
def State.waitLocs (s : State) (k : Skein) (off : Nat) : List Loc := ((s.blockOf k).sloc off).span 16

section
variable {again : Redo} {off : Nat} {toks : List Nat}

/-- What a look at a wait comes to when no engine owns its object. -/
theorem sbCheck_waiting (hk : s.skein? k.id = some k) (hp : k.split? p.uid = some p) (hw : p.st = .held (.sbwait again off toks))
    (hs : k.stop = none) (hown : ∀ l ∈ s.waitLocs k off, s.owned l = false) :
    s.sbCheck k.id p.uid =
      if (k.flaw.elim false fun f => levelFits .s f.2.1 && inMask f.1 (lowest p.em)) || (s.waitLocs k off).any s.failedAt then
        s.setSkein (k.modSplit p.uid (·.reissue again))
      else if toks.contains ((s.blockOf k).sbRead off).phase then s
      else (s.setSkein ((k.joinCo (again.read ||| s.rangeSet ((s.blockOf k).sloc off) 16)).modSplit p.uid
        fun p => { p with st := .ready })).acquire k.id 1 := by
  have hfree : (k.stop.isSome || (s.waitLocs k off).any s.owned) = false := by
    rw [hs, Option.isSome_none, Bool.false_or, List.any_eq_false]
    exact fun l hl => by simp [hown l hl]
  unfold State.sbCheck
  rw [hk]
  dsimp only
  rw [hp]
  dsimp only
  rw [hw]
  exact if_neg (Bool.eq_false_iff.mp hfree)

theorem sbwait_reissued (hk : s.skein? k.id = some k) (hp : k.split? p.uid = some p) (hw : p.st = .held (.sbwait again off toks))
    (hs : k.stop = none) (hown : ∀ l ∈ s.waitLocs k off, s.owned l = false) (hbad : ∃ l ∈ s.waitLocs k off, s.failedAt l = true) :
    s.sbCheck k.id p.uid = s.setSkein (k.modSplit p.uid (·.reissue again)) := by
  rw [sbCheck_waiting hk hp hw hs hown, if_pos]
  rw [List.any_eq_true.mpr hbad, Bool.or_true]

theorem sbwait_looks (hk : s.skein? k.id = some k) (hp : k.split? p.uid = some p) (hw : p.st = .held (.sbwait again off toks))
    (hs : k.stop = none) (hown : ∀ l ∈ s.waitLocs k off, s.owned l = false) (hgood : ∀ l ∈ s.waitLocs k off, s.failedAt l = false)
    (hflaw : k.flaw = none) :
    (((s.blockOf k).sbRead off).phase ∉ toks → s.sbCheck k.id p.uid =
      (s.setSkein ((k.joinCo (again.read ||| s.rangeSet ((s.blockOf k).sloc off) 16)).modSplit p.uid
        fun p => { p with st := .ready })).acquire k.id 1) ∧
      (((s.blockOf k).sbRead off).phase ∈ toks → s.sbCheck k.id p.uid = s) := by
  have hsound : ¬((k.flaw.elim false fun f => levelFits .s f.2.1 && inMask f.1 (lowest p.em)) || (s.waitLocs k off).any s.failedAt) = true := by
    rw [hflaw, Option.elim_none, Bool.false_or, Bool.not_eq_true, List.any_eq_false]
    exact fun l hl => by simp [hgood l hl]
  rw [sbCheck_waiting hk hp hw hs hown, if_neg hsound]
  exact ⟨fun h => if_neg (by simpa using h), fun h => if_pos (by simpa using h)⟩

end

theorem yield_released {others : List (Nat × Nat)} {till : Nat} (hk : s.skein? k.id = some k)
    (hone : ∀ q ∈ k.splits, q.uid = p.uid → q = p) (hy : p.yielded = some (others, till))
    (h : till ≤ s.issueTicks ∨ ∀ x ∈ others, s.leftOrIssued (till - 64) x = true) :
    exec (.yieldRelease k.id p.uid) s = .next (s.setSkein (k.modSplit p.uid fun q => { q with yielded := none })) := by
  have hover : s.yieldOver p = true := by
    unfold State.yieldOver
    rw [hy]
    simpa using h
  have hmod : (k.modSplit p.uid fun q => if s.yieldOver q then { q with yielded := none } else q) =
      k.modSplit p.uid fun q => { q with yielded := none } := by
    unfold Skein.modSplit
    congr 1
    refine List.map_congr_left fun q hq => ?_
    by_cases hu : q.uid = p.uid
    · rw [hone q hq hu]
      dsimp only
      rw [hover]
      rfl
    · rw [if_neg (by simpa using hu), if_neg (by simpa using hu)]
  show execYieldRelease k.id p.uid s = _
  unfold execYieldRelease
  rw [hk]
  dsimp only
  rw [hmod]

theorem waitb_returned {cls n : Nat} {cs : List Nat} (hk : s.skein? k.id = some k) (hp : k.split? p.uid = some p)
    (hw : p.st = .held (.waitb cls n cs)) (hs : k.stop = none) (h : ∀ c ∈ k.outstanding cls, c.1 ∉ cs) :
    exec (.waitbReturn k.id p.uid) s =
      .next ((s.setSkein (k.modSplit p.uid fun q => { q with st := .ready })).acquire k.id 4) := by
  have hover : k.waitOver cls cs = true := by
    unfold Skein.waitOver
    rw [Bool.not_eq_true', List.any_eq_false]
    exact fun c hc => by simpa using h c hc
  show execWaitbReturn k.id p.uid s = _
  unfold execWaitbReturn
  rw [hk]
  dsimp only
  rw [hp, Option.map_some, hw]
  dsimp only
  rw [hs, hover]
  rfl

/-! ## Resumptions (R247, R356) -/

theorem skein_resumed {st : Stop} (hk : s.skein? k.id = some k) (hs : k.stop = some st) (hgo : st.go = true) (hmay : s.mayResume k = true) :
    exec (.skeinResume k.id) s = .next ((s.resumeSkein k.id).recheckPops k.id) := by
  show execSkeinResume k.id s = _
  unfold execSkeinResume
  rw [hk]
  dsimp only
  rw [hs, Option.elim_some, hgo, hmay]
  rfl

theorem mask_resumed {mask : Mask} {calls : List Call} {argset : OSet} {resume word : Addr} (hk : s.skein? k.id = some k)
    (hp : k.split? p.uid = some p) (hw : p.st = .parked (.syscall calls argset resume word)) (hm : mask ≠ 0) (hin : mask &&& ~~~p.em = 0)
    (hover : (s.ctxOf k).over = false)
    (hall : ∀ l, l < 32 → mask.getLsbD l = true → ∃ c ∈ calls, c.lane = l ∧ c.result ≠ none) :
    exec (.resumeMask k.id p.uid mask) s = .next ((s.setSkein
      ((k.results mask calls argset).resumePart p mask calls argset resume word s.issueTicks)).acquire k.id 4) := by
  have hdone : ((lanesOf mask).all fun l => calls.any fun c => c.lane == l && c.result.isSome) = true := by
    rw [List.all_eq_true]
    intro l hl
    obtain ⟨hlt, hbit⟩ := List.mem_filter.mp hl
    obtain ⟨c, hc, hlane, hres⟩ := hall l (List.mem_range.mp hlt) hbit
    exact List.any_eq_true.mpr ⟨c, hc, by simp [hlane, Option.isSome_iff_ne_none, hres]⟩
  show execResumeMask k.id p.uid mask s = _
  unfold execResumeMask
  rw [hk]
  dsimp only
  rw [hp]
  dsimp only
  rw [hw]
  dsimp only
  rw [hdone, hover, bne_iff_ne.mpr hm, hin]
  rfl

/-! ## Errors in the data of loads (R34, R347 to R349) -/

/-- An error of the register file makes one register of the lanes fail (log 7). -/
theorem registerError (hk : s.skein? k.id = some k) (hs : k.stop = none) {lanes : Mask} (hl : lanes ≠ 0) (clean : Bool) :
    exec (.loadDataError k.id lanes 6 clean) s = .next (State.setSkein { s with free := s.free + 1 }
      { k with badRegs := (lanesOf lanes).map (fun l => (l, (Config.freeWord s.free).toNat % 32)) ++ k.badRegs }) := by
  show execLoadDataError k.id lanes 6 clean s = _
  unfold execLoadDataError
  rw [hk]
  dsimp only
  rw [if_neg (by decide), if_neg (by simpa using hl), hs]
  rfl

/-- What an error of a level of memory comes to in a skein that runs. -/
def State.meetError (s : State) (k : Skein) (lanes : Mask) (level : Nat) (clean : Bool) : State :=
  match k.pend.findIdx? (·.loads lanes level) with
  | none => if k.flaw.isSome then s else s.setSkein { k with flaw := some (lanes, level, clean) }
  | some n => match k.pend[n]? with
    | none => s
    | some q => s.loadError k n q lanes level clean

theorem memoryError (hk : s.skein? k.id = some k) (hs : k.stop = none) {lanes : Mask} (hl : lanes ≠ 0) (clean : Bool) {level : BitVec 8}
    (h1 : 1 ≤ level.toNat) (h5 : level.toNat ≤ 5) :
    exec (.loadDataError k.id lanes level clean) s = .next (s.meetError k lanes level.toNat clean) := by
  have h0 : level ≠ 0 := fun e => by
    rw [e] at h1
    exact absurd h1 (by decide)
  have h6 : level ≠ 6 := fun e => by
    rw [e] at h5
    exact absurd h5 (by decide)
  show execLoadDataError k.id lanes level clean s = _
  unfold execLoadDataError
  rw [hk]
  dsimp only
  have hrange : ¬(level == 0 || decide (6 < level.toNat)) = true := by
    rw [Bool.or_eq_true_iff, beq_iff_eq, decide_eq_true_eq]
    exact fun h => h.elim h0 fun h => by omega
  rw [if_neg hrange, if_neg (by simpa using hl), if_neg (by rw [hs]; simp), if_neg (by simpa using h6)]
  rfl

theorem findIdx_of_split {α : Type} {f : α → Bool} {pre post : List α} {q : α} (hpre : ∀ e ∈ pre, f e = false) (hq : f q = true) :
    (pre ++ q :: post).findIdx? f = some pre.length := by
  rw [List.findIdx?_append, List.findIdx?_eq_none_iff.mpr fun e he => by simp [hpre e he], List.findIdx?_cons, hq]
  simp

/-! ### The state in which such an error stops the skein -/

theorem skeins_countError (s : State) (core pa level : Nat) : (s.countError core pa level).skeins = s.skeins := by
  unfold State.countError
  split <;> rfl

theorem failedUnits_countError (s : State) (core pa level : Nat) : (s.countError core pa level).failedUnits = s.failedUnits := by
  unfold State.countError
  split <;> rfl

theorem skeins_dropAt (s : State) (core level : Nat) (l : Loc) : (s.dropAt core level l).skeins = s.skeins := by
  unfold State.dropAt
  split
  · rfl
  · exact (pclean_keeps s (core / 64) (l.addr / 64)).1
  · rfl

theorem failedUnits_writeBacks (ln : PLine) (line : Nat) (is : List Nat) (s : State) :
    (is.foldl (State.writeBack ln line) s).failedUnits = s.failedUnits := by
  induction is generalizing s with
  | nil => rfl
  | cons i is ih =>
    rw [List.foldl_cons, ih]
    unfold State.writeBack
    split
    · split <;> rfl
    · rfl

theorem failedUnits_dropAt (s : State) (core level : Nat) (l : Loc) : (s.dropAt core level l).failedUnits = s.failedUnits := by
  unfold State.dropAt
  split
  · rfl
  · show (s.pclean _ _).failedUnits = _
    unfold State.pclean
    split
    · rfl
    · next ln _ =>
      generalize List.range 64 = is
      exact failedUnits_writeBacks ln _ is s
  · rfl

theorem dropAts_keep (s : State) (core level : Nat) (ls : List Loc) :
    (ls.foldl (fun t l => t.dropAt core level l) s).skeins = s.skeins ∧
      (ls.foldl (fun t l => t.dropAt core level l) s).failedUnits = s.failedUnits := by
  induction ls generalizing s with
  | nil => exact ⟨rfl, rfl⟩
  | cons l ls ih =>
    obtain ⟨h1, h2⟩ := ih (s.dropAt core level l)
    exact ⟨h1.trans (skeins_dropAt ..), h2.trans (failedUnits_dropAt ..)⟩

theorem skeins_fail (s : State) (level : Nat) (ls : List Loc) : (s.fail level ls).skeins = s.skeins := by
  induction ls generalizing s with
  | nil => rfl
  | cons l ls ih =>
    unfold State.fail
    split
    · exact ih s
    · exact ih _

/-- A unit that has failed stays so as others fail. -/
theorem failedAt_fail_of_failedAt {s : State} {l : Loc} (h : s.failedAt l = true) (level : Nat) (ls : List Loc) :
    (s.fail level ls).failedAt l = true := by
  induction ls generalizing s with
  | nil => exact h
  | cons m ls ih =>
    unfold State.fail
    split
    · exact ih h
    · refine ih ?_
      unfold State.failedAt at h ⊢
      rw [List.any_cons, h, Bool.or_true]

theorem failedAt_fail {l : Loc} {ls : List Loc} (hl : l ∈ ls) (s : State) (level : Nat) : (s.fail level ls).failedAt l = true := by
  induction ls generalizing s with
  | nil => cases hl
  | cons m ls ih =>
    unfold State.fail
    rcases List.mem_cons.mp hl with rfl | hl
    · split
      · next h => exact failedAt_fail_of_failedAt h level ls
      · refine failedAt_fail_of_failedAt ?_ level ls
        unfold State.failedAt
        simp
    · split
      · exact ih hl s
      · exact ih hl _

/-- The state in which an error in the data of a load stops the skein: the error counted, the lines dropped from the level that held it,
and without a clean copy the units failed. -/
def State.erred (s : State) (k : Skein) (q : Pend) (lanes : Mask) (level : Nat) (clean : Bool) : State :=
  let ls := (q.src.filter fun x => inMask lanes x.1).map (·.2.2)
  let t := ls.foldl (fun t l => t.dropAt k.coreId level l) (s.countError k.coreId ((ls.headD (locG 0)).addr) level)
  if clean then t else t.fail level ls

theorem erred_keeps (s : State) (k : Skein) (q : Pend) (lanes : Mask) (level : Nat) (clean : Bool) :
    (s.erred k q lanes level clean).skeins = s.skeins ∧
      (∀ x ∈ q.src, inMask lanes x.1 = true → clean = false → (s.erred k q lanes level clean).failedAt x.2.2 = true) ∧
      (clean = true → (s.erred k q lanes level clean).failedUnits = s.failedUnits) := by
  unfold State.erred
  extract_lets ls t
  obtain ⟨h1, h2⟩ := dropAts_keep (s.countError k.coreId ((ls.headD (locG 0)).addr) level) k.coreId level ls
  cases clean with
  | false =>
    refine ⟨(skeins_fail t level ls).trans (h1.trans (skeins_countError ..)), fun x hx hin _ => ?_, fun h => by cases h⟩
    exact failedAt_fail (List.mem_map.mpr ⟨x, List.mem_filter.mpr ⟨hx, hin⟩, rfl⟩) t level
  | true => exact ⟨h1.trans (skeins_countError ..), fun _ _ _ h => absurd h.symm Bool.false_ne_true, fun _ => h2.trans (failedUnits_countError ..)⟩

theorem loadError_eq {q : Pend} {n : Nat} {lanes : Mask} {level : Nat} {clean : Bool} (hp : k.splits.find? q.counts = some p) :
    s.loadError k n q lanes level clean = (s.erred k q lanes level clean).takeStop { k with pend := k.pend.eraseIdx n } p.uid
      { k.record q.pc q.word p.em with
          code := BitVec.ofNat 16 ((if clean then 0x0C00 else 0xCC00) + level), lfm := lanes &&& q.lanes, flags := 1,
          followers := q.followers p.uid, addrs := (q.src.filter fun x => inMask lanes x.1).map fun x => (x.1, x.2.1) } p.co
      (some (trimPend (pendMasks (k.pend.drop (n + 1))) q)) := by
  have hl : k.loader q = some p := by
    unfold Skein.loader
    rw [hp]
    rfl
  unfold State.loadError
  dsimp only
  rw [hl]
  rfl

/-- What an error of a level of memory does to a skein that runs. -/
theorem memoryError_outcomes (hk : s.skein? k.id = some k) (hs : k.stop = none) {lanes : Mask} (hl : lanes ≠ 0) (clean : Bool)
    {level : BitVec 8} (h1 : 1 ≤ level.toNat) (h5 : level.toNat ≤ 5) :
    ((∀ q ∈ k.pend, q.loads lanes level.toNat = false) → k.flaw = none →
      exec (.loadDataError k.id lanes level clean) s = .next (s.setSkein { k with flaw := some (lanes, level.toNat, clean) })) ∧
    ∀ (pre post : List Pend) (q : Pend), k.pend = pre ++ q :: post →
      (∀ e ∈ pre, e.loads lanes level.toNat = false) → q.loads lanes level.toNat = true → k.splits.find? q.counts = some p →
      ∃ (t : State) (r : Record) (redo : Pend), exec (.loadDataError k.id lanes level clean) s =
          .next (t.takeStop { k with pend := pre ++ post } p.uid r p.co (some redo)) ∧
        t.skeins = s.skeins ∧
        (∀ x ∈ q.src, inMask lanes x.1 = true → clean = false → t.failedAt x.2.2 = true) ∧
        (clean = true → t.failedUnits = s.failedUnits) ∧
        r.code = BitVec.ofNat 16 ((if clean then 0x0C00 else 0xCC00) + level.toNat) ∧ r.cause = 0 ∧
        r.lfm = lanes &&& q.lanes ∧ r.pc = q.pc ∧ r.word = q.word ∧ r.em = p.em ∧
        (∀ w, q.wins.find? (·.1 == p.uid) = some w → r.followers = q.look - w.2) ∧
        r.addrs = (q.src.filter (fun x => inMask lanes x.1)).map (fun x => (x.1, x.2.1)) ∧ redo.img = q.img := by
  have hexec := memoryError hk hs hl clean h1 h5
  unfold State.meetError at hexec
  refine ⟨fun hnone hflaw => ?_, fun pre post q hpend hpre hq hp => ?_⟩
  · rw [hexec, List.findIdx?_eq_none_iff.mpr fun q hq => by rw [hnone q hq]]
    dsimp only
    rw [if_neg (by rw [hflaw]; simp)]
  · have hidx : k.pend.findIdx? (·.loads lanes level.toNat) = some pre.length := by
      rw [hpend]
      exact findIdx_of_split hpre hq
    have hget : k.pend[pre.length]? = some q := by
      rw [hpend]
      simp
    have herase : k.pend.eraseIdx pre.length = pre ++ post := by
      rw [hpend, List.eraseIdx_append_of_length_le (Nat.le_refl _), Nat.sub_self]
      rfl
    rw [hidx] at hexec
    dsimp only at hexec
    rw [hget] at hexec
    dsimp only at hexec
    rw [loadError_eq hp, herase] at hexec
    obtain ⟨hsk, hfail, hkeep⟩ := erred_keeps s k q lanes level.toNat clean
    refine ⟨_, _, _, hexec, hsk, hfail, hkeep, rfl, rfl, rfl, rfl, rfl, rfl, fun w hw => ?_, rfl, rfl⟩
    show q.followers p.uid = _
    unfold Pend.followers
    rw [hw]
    rfl

/-- The members of the lost splits, together. -/
theorem getLsbD_lost (k : Skein) (l : Nat) : (k.lost.foldl (fun m q => m ||| q.members) (0 : Mask)).getLsbD l = true ↔
    ∃ q ∈ k.splits, q.st = .joinWait false ∧ q.members.getLsbD l = true := by
  rw [getLsbD_foldl_or, Bool.or_eq_true_iff, List.any_eq_true]
  simp [mem_lost, and_assoc]

end

/-- Settles O50: each event by the lemma for it. -/
theorem skeinEventsComplete : Obligations.SkeinEventsComplete := by
  intro s k p hk hp hone freed
  refine ⟨fun q rest h => ?_, fun hs hw hall hlow => ?_, ?_,
    fun others till hy h => yield_released hk hone hy h, fun cls n cs hw hs h => waitb_returned hk hp hw hs h,
    fun st hs hgo hmay => skein_resumed hk hs hgo hmay,
    fun mask calls argset resume word hw hm hin hover hall => mask_resumed hk hp hw hm hin hover hall,
    fun lanes level clean hl hs => ⟨fun h6 => ?_, fun h1 h5 => memoryError_outcomes hk hs hl clean h1 h5⟩⟩
  · rw [landsFirst_exec hk, land_first h]
  · exact ⟨_, joinDeadlock_traps hk hp hs hw hall hlow, fun l _ => getLsbD_lost k l⟩
  · intro again off toks hw hs b hown
    refine ⟨fun hbad => congrArg Host.Outcome.next (sbwait_reissued hk hp hw hs hown hbad), fun hgood hflaw => ?_⟩
    obtain ⟨hleave, hstay⟩ := sbwait_looks hk hp hw hs hown hgood hflaw
    exact ⟨fun h => congrArg Host.Outcome.next (hleave h), fun h => congrArg Host.Outcome.next (hstay h)⟩
  · subst h6
    exact ⟨_, Nat.mod_lt _ (by decide), registerError hk hs hl clean⟩

end Sys2Proof.Machine
end

section
/-! SUPPORT. How a block retires when no store of its skeins waits (R146, R149, R296, R441), and a state in which one of another block
does, since two skeins stand in one slot. -/

namespace Sys2Proof.Machine

section
variable {s : State} {b : Block} {g : Grid}

/-! ## The completion bit (R149) -/

theorem mem_pokes (s : State) (pa : Nat) (bs : List Byte) : (s.pokes (locG pa) bs).mem = cellsWrite s.mem pa bs := by
  induction bs generalizing s pa with
  | nil => rfl
  | cons x bs ih => exact ih (s.poke (locG pa) x) (pa + 1)

theorem grids_pokes (s : State) (pa : Nat) (bs : List Byte) : (s.pokes (locG pa) bs).grids = s.grids := by
  induction bs generalizing s pa with
  | nil => rfl
  | cons x bs ih => exact ih (s.poke (locG pa) x) (pa + 1)

theorem ofBytesLE_lt (bs : List Byte) : ofBytesLE bs < 2 ^ (8 * bs.length) := by
  induction bs with
  | nil => exact Nat.one_pos
  | cons x bs ih =>
    have hx := x.isLt
    rw [ofBytesLE, List.length_cons, Nat.mul_succ, Nat.pow_add]
    omega

/-- A word reads back with the bits set, and no byte outside it changes. -/
theorem orWord_mem (hwf : Memory.wf s.mem = true) (pa : Nat) {bits : Nat} (hbits : bits < 2 ^ 32) :
    cellsNat (s.orWord pa bits).mem pa 4 = cellsNat s.mem pa 4 ||| bits ∧
      ∀ a, a < pa ∨ pa + 4 ≤ a → cellGet (s.orWord pa bits).mem a = cellGet s.mem a := by
  obtain ⟨-, hother, -, hword⟩ := memoryReadsBack s.mem pa (bytesLE 4 (cellsNat s.mem pa 4 ||| bits)) hwf
  rw [length_bytesLE] at hother
  have hold : cellsNat s.mem pa 4 < 2 ^ 32 := by
    have := ofBytesLE_lt (cellsRead s.mem pa 4)
    rwa [cellsRead, List.length_map, List.length_range] at this
  unfold State.orWord
  rw [mem_pokes, hword, Nat.mod_eq_of_lt (Nat.or_lt_two_pow hold hbits)]
  exact ⟨rfl, hother⟩

theorem dispatchOr_performs {c : Context} {ctx va bits tenant pa : Nat} (hc : s.ctx? ctx = some c) (hpa : s.aorPage c va tenant = .ok pa)
    (hfree : s.wordHeld pa = false) (hsound : ∀ l ∈ (locG pa).span 4, s.failedAt l = false) :
    s.dispatchOr ctx va bits tenant = (s.orWord pa bits, true) := by
  have hnone : ((locG pa).span 4).find? s.failedAt = none := List.find?_eq_none.mpr fun l hl => by simp [hsound l hl]
  unfold State.dispatchOr
  simp only [hc, hpa, hfree, hnone, Bool.false_eq_true, if_false]

/-! ## Freeing the block's resources (R146, R296) -/

/-- Memory and grids are the same, and no skein and no block of another name has come. -/
structure KeepsNames (s t : State) : Prop where
  mem : t.mem = s.mem
  grids : t.grids = s.grids
  skeins : ∀ x ∈ t.skeins, ∃ y ∈ s.skeins, y.grid = x.grid ∧ y.block = x.block
  blocks : ∀ x ∈ t.blocks, ∃ y ∈ s.blocks, y.grid = x.grid ∧ y.num = x.num

theorem KeepsNames.of_eq {t : State} (hm : t.mem = s.mem) (hg : t.grids = s.grids) (hs : t.skeins = s.skeins) (hb : t.blocks = s.blocks) :
    KeepsNames s t :=
  ⟨hm, hg, fun x hx => ⟨x, hs ▸ hx, rfl, rfl⟩, fun x hx => ⟨x, hb ▸ hx, rfl, rfl⟩⟩

theorem KeepsNames.refl (s : State) : KeepsNames s s := .of_eq rfl rfl rfl rfl

theorem KeepsNames.trans {t u : State} (h : KeepsNames s t) (h' : KeepsNames t u) : KeepsNames s u := by
  refine ⟨h'.mem.trans h.mem, h'.grids.trans h.grids, fun x hx => ?_, fun x hx => ?_⟩
  · obtain ⟨y, hy, hyg, hyb⟩ := h'.skeins x hx
    obtain ⟨z, hz, hzg, hzb⟩ := h.skeins y hy
    exact ⟨z, hz, hzg.trans hyg, hzb.trans hyb⟩
  · obtain ⟨y, hy, hyg, hyb⟩ := h'.blocks x hx
    obtain ⟨z, hz, hzg, hzb⟩ := h.blocks y hy
    exact ⟨z, hz, hzg.trans hyg, hzb.trans hyb⟩

theorem KeepsNames.foldl {α : Type} {f : State → α → State} (hf : ∀ t a, KeepsNames t (f t a)) (s : State) (l : List α) :
    KeepsNames s (l.foldl f s) := by
  induction l generalizing s with
  | nil => exact .refl s
  | cons a l ih => exact (hf s a).trans (ih (f s a))

theorem KeepsNames.setSkein {k j : Skein} (hk : k ∈ s.skeins) (hg : j.grid = k.grid) (hb : j.block = k.block) : KeepsNames s (s.setSkein j) := by
  refine ⟨rfl, rfl, fun x hx => ?_, (KeepsNames.refl s).blocks⟩
  obtain ⟨y, hy, rfl⟩ := List.mem_map.mp hx
  split
  · exact ⟨k, hk, hg.symm, hb.symm⟩
  · exact ⟨y, hy, rfl, rfl⟩

theorem KeepsNames.setBlock {x y : Block} (hx : x ∈ s.blocks) (hg : y.grid = x.grid) (hn : y.num = x.num) : KeepsNames s (s.setBlock y) := by
  refine ⟨rfl, rfl, (KeepsNames.refl s).skeins, fun z hz => ?_⟩
  obtain ⟨w, hw, rfl⟩ := List.mem_map.mp hz
  split
  · exact ⟨x, hx, hg.symm, hn.symm⟩
  · exact ⟨w, hw, rfl, rfl⟩

/-- A HELD QPOP that ends without an entry. -/
theorem popEnds_keepsNames (s : State) (sid uid code : Nat) : KeepsNames s (s.popEnds sid uid code none) := by
  unfold State.popEnds
  split
  · exact .refl s
  · next k hk =>
    split
    · exact .refl s
    · split
      · exact .setSkein (List.mem_of_find?_eq_some hk) rfl rfl
      · exact .refl s

theorem settleBasket_keepsNames (s : State) (cl slot : Nat) : KeepsNames s (s.settleBasket cl slot) := by
  unfold State.settleBasket
  extract_lets x t
  have ht : KeepsNames s t := .of_eq rfl rfl rfl rfl
  split
  · exact .refl s
  · split
    · exact ht
    · next y hy =>
      split at hy
      · exact ht.trans (.setBlock (List.mem_of_find?_eq_some hy) rfl rfl)
      · cases hy

theorem retireBasket_keepsNames (s : State) (cl slot : Nat) : KeepsNames s (s.retireBasket cl slot) := by
  unfold State.retireBasket
  split
  · exact .refl s
  · extract_lets h t drop u
    have hu : KeepsNames s u := .of_eq rfl rfl rfl rfl
    refine hu.trans (KeepsNames.trans ?_ (settleBasket_keepsNames _ cl slot))
    exact KeepsNames.foldl (fun v (w : Nat × Nat × Nat) => popEnds_keepsNames v w.1 w.2.1 stGone) u _

theorem retireBaskets_keepsNames (s : State) (f : Basket → Bool) : KeepsNames s (s.retireBaskets f) := by
  unfold State.retireBaskets
  refine KeepsNames.foldl (fun t cl => ?_) s _
  refine KeepsNames.foldl (fun u n => ?_) t _
  split
  · exact retireBasket_keepsNames ..
  · exact .refl u

theorem freeBlock_frees (s : State) (b : Block) :
    (s.freeBlock b).mem = s.mem ∧ (s.freeBlock b).grids = s.grids ∧ (s.freeBlock b).block? b.grid b.num = none ∧
      ∀ x ∈ (s.freeBlock b).skeins, ¬(x.grid = b.grid ∧ x.block = b.num) := by
  unfold State.freeBlock
  extract_lets t
  have h := retireBaskets_keepsNames t fun x => x.scope == 0 && x.owner == (b.grid, b.num) && x.ctx == b.ctx
  refine ⟨h.mem, h.grids, List.find?_eq_none.mpr fun x hx => ?_, fun x hx => ?_⟩
  · obtain ⟨y, hy, hg, hn⟩ := h.blocks x hx
    have := (List.mem_filter.mp hy).2
    rw [hg, hn] at this
    simpa [imp_iff_not_or] using this
  · obtain ⟨y, hy, hg, hn⟩ := h.skeins x hx
    have := (List.mem_filter.mp hy).2
    rw [hg, hn] at this
    simpa [imp_iff_not_or] using this

/-! ## The retirement of a block that is not the last of its grid (R146) -/

/-- The state once every skein of a block has released its stores. -/
def State.releaseBlock (s : State) (b : Block) : State := (s.skeinsOf b).foldl (fun t k => t.release k.id (fun _ => true) true) s

theorem grid_setGrid_same (h : (s.grid? g.id).isSome) : (s.setGrid g).grid? g.id = some g := by
  unfold State.grid? State.setGrid at *
  rw [find_putBy_same fun x : Grid => x.id]
  obtain ⟨x, hx⟩ := Option.isSome_iff_exists.mp h
  rw [hx]
  rfl

theorem retireGrid_of_blocks_left (hg : s.grid? g.id = some g) (ho : ∀ p, g.origin ≠ .spawnOf p) (hleft : g.retired ≠ g.g) :
    s.retireGrid g.id = s := by
  have hall : s.allRetired g = false := by
    unfold State.allRetired
    split
    · next p hp => exact absurd hp (ho p)
    all_goals simp [hleft]
  unfold State.retireGrid
  rw [hg]
  simp [hall]

/-- Once the stores are performed and the bit is set, the block is freed and counted. -/
theorem retireBlock_of_or {t : State} (ho : ∀ p, g.origin ≠ .spawnOf p) (hleft : g.retired + 1 < g.g) (hg : (t.grid? g.id).isSome)
    (hdone : ((s.releaseBlock b).skeinsOf b).any (fun k => !k.stores.isEmpty) = false)
    (hor : (s.releaseBlock b).dispatchOr g.ctx (g.bitmap + 4 * (b.num / 32)) (2 ^ (b.num % 32)) g.tenant = (t, true)) :
    s.retireBlock b g = (t.freeBlock b).setGrid { g with retired := g.retired + 1 } := by
  have hlook : ((t.freeBlock b).setGrid { g with retired := g.retired + 1 }).grid? g.id = some { g with retired := g.retired + 1 } := by
    refine grid_setGrid_same (g := { g with retired := g.retired + 1 }) ?_
    show ((t.freeBlock b).grids.find? _).isSome
    rw [(freeBlock_frees t b).2.1]
    exact hg
  have hrest := retireGrid_of_blocks_left (g := { g with retired := g.retired + 1 }) hlook ho (Nat.ne_of_lt hleft)
  have hcount : (g.retired + 1 == g.g) = false := by simp; omega
  unfold State.releaseBlock at hdone hor
  unfold State.retireBlock
  cases horig : g.origin with
  | spawnOf p => exact absurd horig (ho p)
  | finwesin | queue _ _ | child _ _ _ _ =>
    simp only [hdone, hor, hcount, Bool.false_eq_true, if_false, Bool.not_true, Bool.not_false, Bool.true_and]
    rw [horig] at hrest
    exact hrest

/-! ## Releases of skeins with no store waiting (R146, R212) -/

/-- But for the blocks, and the stores that some skeins no longer have, the state is the same. -/
def DropsStores (s t : State) : Prop :=
  ∃ (bs : List Block) (f : Skein → Skein), (∀ x, f x = x ∨ f x = { x with stores := [] }) ∧ t = { s with blocks := bs, skeins := s.skeins.map f }

theorem DropsStores.refl (s : State) : DropsStores s s := ⟨s.blocks, id, fun _ => .inl rfl, by rw [List.map_id]⟩

theorem DropsStores.trans {t u : State} (h : DropsStores s t) (h' : DropsStores t u) : DropsStores s u := by
  obtain ⟨bs, f, hf, rfl⟩ := h
  obtain ⟨bs', f', hf', rfl⟩ := h'
  refine ⟨bs', f' ∘ f, fun x => ?_, by rw [List.map_map]⟩
  show f' (f x) = x ∨ f' (f x) = _
  rcases hf' (f x) with h' | h'
  · rw [h']
    exact hf x
  · rcases hf x with h | h
    · exact .inr (by rw [h', h])
    · exact .inr (by rw [h', h])

theorem eq_of_dropped {f : Skein → Skein} (hf : ∀ x, f x = x ∨ f x = { x with stores := [] }) {k : Skein} (hk : k.stores = []) : f k = k := by
  rcases hf k with h | h
  · exact h
  · rw [h, ← hk]

theorem DropsStores.skein {t : State} (h : DropsStores s t) {n : Nat} {k : Skein} (hk : s.skein? n = some k) (hs : k.stores = []) :
    t.skein? n = some k := by
  obtain ⟨bs, f, hf, rfl⟩ := h
  have hid (x : Skein) : (f x).id = x.id := by rcases hf x with h | h <;> rw [h]
  have hlook := find_map_key Skein.id f hid n s.skeins
  unfold State.skein? at *
  rw [hlook, hk, Option.map_some, eq_of_dropped hf hs]

theorem release_dropsStores {sid : Nat} {k : Skein} (f : PStore → Bool) (bk : Bool) (hk : s.skein? sid = some k) (hs : k.stores = []) :
    DropsStores s (s.release sid f bk) := by
  have hd : s.drain sid f = { s with skeins := s.skeins.map fun x => if x.id == sid then { x with stores := [] } else x } := by
    unfold State.drain
    rw [hk]
    dsimp only
    rw [hs]
    rfl
  have hf (x : Skein) : (if x.id == sid then { x with stores := [] } else x) = x ∨
      (if x.id == sid then { x with stores := [] } else x) = { x with stores := [] } := by
    split
    · exact .inr rfl
    · exact .inl rfl
  unfold State.release
  rw [hd]
  dsimp only
  split
  · exact ⟨s.blocks, _, hf, rfl⟩
  · split
    · exact ⟨_, _, hf, rfl⟩
    · exact ⟨s.blocks, _, hf, rfl⟩

/-- Where each of the block's skeins is the one of its slot and has no store waiting, their releases perform none. -/
theorem releaseBlock_dropsStores (hone : ∀ k ∈ s.skeinsOf b, s.skein? k.id = some k) (hs : ∀ k ∈ s.skeinsOf b, k.stores = []) :
    DropsStores s (s.releaseBlock b) := by
  unfold State.releaseBlock
  suffices h : ∀ (l : List Skein) (t : State), (∀ k ∈ l, k ∈ s.skeinsOf b) → DropsStores s t →
      DropsStores s (l.foldl (fun t k => t.release k.id (fun _ => true) true) t) from h _ s (fun _ hk => hk) (.refl s)
  intro l
  induction l with
  | nil => exact fun t _ ht => ht
  | cons k l ih =>
    intro t hl ht
    have hk := hl k List.mem_cons_self
    exact ih _ (fun x hx => hl x (List.mem_cons_of_mem k hx))
      (ht.trans (release_dropsStores _ _ (ht.skein (hone k hk) (hs k hk)) (hs k hk)))

theorem DropsStores.wordHeld {t : State} (h : DropsStores s t) (pa : Nat) : t.wordHeld pa = s.wordHeld pa := by
  obtain ⟨bs, f, hf, rfl⟩ := h
  have hcmds (x : Skein) : (f x).cmds = x.cmds := by rcases hf x with h | h <;> rw [h]
  have hmq (x : Skein) : (f x).mq = x.mq := by rcases hf x with h | h <;> rw [h]
  have howns (x : Skein) (c : MCmd) (l : Loc) : c.owns (f x) l = c.owns x l := by
    rcases hf x with h | h
    · rw [h]
    · rw [h]
      rfl
  unfold State.wordHeld State.owned State.pinned State.ownedBefore State.pinnedBefore
  simp only [List.any_map, Function.comp_def, hcmds, hmq, howns]

theorem DropsStores.done {t : State} (h : DropsStores s t) (hs : ∀ k ∈ s.skeinsOf b, k.stores = []) :
    (t.skeinsOf b).any (fun k => !k.stores.isEmpty) = false := by
  obtain ⟨bs, f, hf, rfl⟩ := h
  refine List.any_eq_false.mpr fun k hk => ?_
  obtain ⟨hmem, hname⟩ := List.mem_filter.mp hk
  obtain ⟨x, hx, rfl⟩ := List.mem_map.mp hmem
  have hstores : (f x).stores = [] := by
    rcases hf x with h | h
    · rw [h] at hname ⊢
      exact hs x (List.mem_filter.mpr ⟨hx, hname⟩)
    · rw [h]
  simp [hstores]

/-! ## What BLOCK_RETIRE does where a slot holds one skein (R146, R149) -/

theorem blockRetire_exec (hb : s.block? b.grid b.num = some b) (hg : s.grid? b.grid = some g) (hmay : s.mayRetire b = true) :
    exec (.blockRetire b.grid b.num) s = .next (s.retireBlock b g) := by
  show execBlockRetire b.grid b.num s = _
  unfold execBlockRetire
  rw [hb, hg]
  dsimp only
  rw [if_pos hmay]

/-- The bit is set and no other byte changes, the block and its skeins are gone, and the grid counts one block more. -/
theorem blockRetire_retires {c : Context} {pa : Nat} (hone : ∀ k ∈ s.skeinsOf b, s.skein? k.id = some k)
    (hb : s.block? b.grid b.num = some b) (hg : s.grid? b.grid = some g) (hmay : s.mayRetire b = true) (hc : s.ctx? g.ctx = some c)
    (ho : ∀ p, g.origin ≠ .spawnOf p) (hs : ∀ k ∈ s.skeinsOf b, k.stores = []) (hleft : g.retired + 1 < g.g)
    (hpa : s.aorPage c (g.bitmap + 4 * (b.num / 32)) g.tenant = .ok pa) (hfree : s.wordHeld pa = false)
    (hwf : Memory.wf s.mem = true) (hsound : ∀ l ∈ (locG pa).span 4, s.failedAt l = false) :
    ∃ t : State, exec (.blockRetire b.grid b.num) s = .next t ∧
      cellsNat t.mem pa 4 = cellsNat s.mem pa 4 ||| 2 ^ (b.num % 32) ∧
      (∀ a, a < pa ∨ pa + 4 ≤ a → cellGet t.mem a = cellGet s.mem a) ∧
      t.block? b.grid b.num = none ∧ (∀ x ∈ t.skeins, ¬(x.grid = b.grid ∧ x.block = b.num)) ∧
      t.grid? g.id = some { g with retired := g.retired + 1 } := by
  have hdrop := releaseBlock_dropsStores hone hs
  have hdone := hdrop.done hs
  have hfree' := (hdrop.wordHeld pa).trans hfree
  generalize hu : s.releaseBlock b = u at hdrop hdone hfree'
  have hmem : u.mem = s.mem := by obtain ⟨_, _, _, rfl⟩ := hdrop; rfl
  have hgrids : u.grids = s.grids := by obtain ⟨_, _, _, rfl⟩ := hdrop; rfl
  have hor : u.dispatchOr g.ctx (g.bitmap + 4 * (b.num / 32)) (2 ^ (b.num % 32)) g.tenant = (u.orWord pa (2 ^ (b.num % 32)), true) := by
    obtain ⟨_, _, _, rfl⟩ := hdrop
    exact dispatchOr_performs hc hpa hfree' hsound
  have hid : g.id = b.grid := by simpa using List.find?_some hg
  have hlook : ((u.orWord pa (2 ^ (b.num % 32))).grid? g.id).isSome = true := by
    unfold State.grid? State.orWord
    rw [grids_pokes, hgrids, hid]
    exact Option.isSome_of_eq_some hg
  have hret := retireBlock_of_or (s := s) (b := b) ho hleft hlook (hu ▸ hdone) (hu ▸ hor)
  have hbit := orWord_mem (hmem ▸ hwf) pa (Nat.pow_lt_pow_right (by decide) (Nat.mod_lt b.num (by decide)) : 2 ^ (b.num % 32) < 2 ^ 32)
  obtain ⟨hm, hgs, hblock, hskeins⟩ := freeBlock_frees (u.orWord pa (2 ^ (b.num % 32))) b
  refine ⟨_, (blockRetire_exec hb hg hmay).trans (congrArg _ hret), ?_, fun a ha => ?_, hblock, hskeins, ?_⟩
  · rw [setGrid_mem, hm, hbit.1, hmem]
  · rw [setGrid_mem, hm, hbit.2 a ha, hmem]
  · refine grid_setGrid_same (g := { g with retired := g.retired + 1 }) ?_
    unfold State.grid? at *
    rw [hgs]
    exact hlook

end

/-! ## Two skeins in one slot -/

/-- A grid of two blocks, whose completion word is on the mapped page at 0x1000. -/
def retiringGrid : Grid := { fetchGrid with g := 2, bitmap := 0x1000 }

/-- Its block 0. -/
def retiringBlock : Block := Block.fresh retiringGrid 0 0 [0]

/-- Two skeins in slot 0 of core 0. The first is of block 1 and has a store waiting; the second is the only skein of block 0, has exited
and has none. -/
def sharedSlot : State :=
  let s := State.reset.withFetchWord 32 0
  let k (blk : Nat) : Skein := Skein.fresh 0 0 0 blk 0 256 0 0 0xFFFFFFFF 1 0
  { s with
    grids := [retiringGrid], blocks := [retiringBlock, Block.fresh retiringGrid 1 0 [0]],
    parts := s.parts.modify 0 fun p => { p with otable := 1 :: p.otable.tail }
    skeins := [{ k 1 with stores := [⟨[0], locG 0x52000, [1], []⟩] }, { k 0 with splits := [] }] }

theorem retiringGrid_origin (p : Nat) : retiringGrid.origin ≠ .spawnOf p := by
  intro h
  cases h

/-- Block 0 may retire, none of its stores waits, and its bit can be set. -/
theorem sharedSlot_mayRetire :
    sharedSlot.block? retiringBlock.grid retiringBlock.num = some retiringBlock ∧
    sharedSlot.grid? retiringBlock.grid = some retiringGrid ∧ sharedSlot.mayRetire retiringBlock = true ∧
    sharedSlot.ctx? retiringGrid.ctx = some fetchCtx ∧
    (∀ k ∈ sharedSlot.skeinsOf retiringBlock, k.stores = []) ∧ retiringGrid.retired + 1 < retiringGrid.g ∧
    sharedSlot.aorPage fetchCtx (retiringGrid.bitmap + 4 * (retiringBlock.num / 32)) retiringGrid.tenant = .ok 0x51000 ∧
    sharedSlot.wordHeld 0x51000 = false ∧ Memory.wf sharedSlot.mem = true ∧
    (∀ l ∈ (locG 0x51000).span 4, sharedSlot.failedAt l = false) ∧ cellGet sharedSlot.mem 0x52000 = 0 := by decide +kernel

/-- The state after its bit is set: the release of slot 0 has performed the store of the skein of block 1. -/
def sharedSlotSet : State × Bool :=
  (sharedSlot.releaseBlock retiringBlock).dispatchOr retiringGrid.ctx (retiringGrid.bitmap + 4 * (retiringBlock.num / 32))
    (2 ^ (retiringBlock.num % 32)) retiringGrid.tenant

theorem sharedSlot_released :
    ((sharedSlot.releaseBlock retiringBlock).skeinsOf retiringBlock).any (fun k => !k.stores.isEmpty) = false ∧
      sharedSlotSet.2 = true ∧ (sharedSlotSet.1.grid? retiringGrid.id).isSome = true ∧ cellGet sharedSlotSet.1.mem 0x52000 = 1 := by
  decide +kernel

/-- Refutes O53: nothing in its clause about the retirement says that a slot holds one skein. Where two stand in one, the release of the
block's skein performs a store of the other's, so that a byte changes outside the completion word. With that premise the clause holds
(`blockRetire_retires`). -/
theorem not_dispatcherEventsComplete : ¬ Obligations.DispatcherEventsComplete := by
  intro h
  obtain ⟨-, hretire, -⟩ := h sharedSlot 0
  obtain ⟨hb, hg, hmay, hc, hstores, hleft, hpa, hfree, hwf, hsound, hbefore⟩ := sharedSlot_mayRetire
  obtain ⟨hdone, hor, hgrid, hafter⟩ := sharedSlot_released
  obtain ⟨t, ht, -, hframe, -⟩ := hretire retiringBlock retiringGrid fetchCtx 0x51000 hb hg hmay hc retiringGrid_origin hstores hleft hpa
    hfree hwf hsound
  have hsame : cellGet t.mem 0x52000 = 0 := (hframe 0x52000 (.inr (by decide))).trans hbefore
  have he := blockRetire_exec hb hg hmay
  rw [retireBlock_of_or retiringGrid_origin hleft hgrid hdone (Prod.ext rfl hor)] at he
  obtain rfl := Host.Outcome.next.inj (he.symm.trans ht)
  rw [setGrid_mem, (freeBlock_frees _ _).1, show cellGet _ _ = 1 from hafter] at hsame
  exact absurd hsame (by decide)

end Sys2Proof.Machine
end

section
/-! SUPPORT. The fields of a word and the formats that hold them (R58 to R69). -/

namespace Sys2Proof

/-! ## Words by their fields -/

theorem eq_iff_extractLsb'_eq {n : Nat} {x w : BitVec n} : x = w ↔ w.extractLsb' 0 n = x := by
  rw [BitVec.extractLsb'_eq_self, eq_comm]

/-- A field is two fields end to end when its upper bits are the one and its lower bits the other. -/
theorem extractLsb'_eq_append_iff {m n v s : Nat} {x : BitVec m} {y : BitVec n} {w : BitVec v} :
    w.extractLsb' s (m + n) = x ++ y ↔ w.extractLsb' (s + n) m = x ∧ w.extractLsb' s n = y := by
  rw [← BitVec.extractLsb'_append_extractLsb'_eq_extractLsb' (rfl : s + n = s + n)]
  constructor
  · intro h
    exact ⟨by simpa only [BitVec.extractLsb'_append_eq_left] using congrArg (·.extractLsb' n m) h,
      by simpa only [BitVec.extractLsb'_append_eq_right] using congrArg (·.extractLsb' 0 n) h⟩
  · rintro ⟨rfl, rfl⟩
    rfl

/-! A word is that of a format exactly when each of its fields is the one that the format puts there. -/

theorem packT_eq_iff {maj : BitVec 6} {c : BitVec 3} {d a : BitVec 8} {b : BitVec 7} {w : Word} :
    packT maj c d a b = w ↔ fMajor w = maj.toNat ∧ fCode w = c ∧ fD w = d ∧ fA w = a ∧ fB w = b := by
  refine (eq_iff_extractLsb'_eq (n := 6 + 3 + 8 + 8 + 7)).trans ?_
  simp only [packT, extractLsb'_eq_append_iff, and_assoc, fMajor, fCode, fD, fA, fB, BitVec.toNat_inj, Nat.zero_add]

theorem packM_eq_iff {maj : BitVec 6} {c : BitVec 3} {d : BitVec 8} {n : BitVec 5} {o : BitVec 2} {p la : BitVec 4} {w : Word} :
    packM maj c d n o p la = w ↔
      fMajor w = maj.toNat ∧ fCode w = c ∧ fD w = d ∧ fN w = n ∧ fO w = o ∧ fPol w = p ∧ fLa w = la := by
  refine (eq_iff_extractLsb'_eq (n := 6 + 3 + 8 + 5 + 2 + 4 + 4)).trans ?_
  simp only [packM, extractLsb'_eq_append_iff, and_assoc, fMajor, fCode, fD, fN, fO, fPol, fLa, BitVec.toNat_inj, Nat.zero_add]

theorem packAtom_eq_iff {ss : BitVec 3} {g : BitVec 5} {wc : BitVec 2} {f : BitVec 1} {n : BitVec 5} {o : BitVec 2} {op la : BitVec 4}
    {w : Word} :
    packAtom ss g wc f n o op la = w ↔
      fMajor w = 54 ∧ fCode w = ss ∧ fG w = g ∧ fAtomW w = wc ∧ fUse w = f ∧ fN w = n ∧ fO w = o ∧ fPol w = op ∧ fLa w = la := by
  rw [show (54 : Nat) = (0x36#6).toNat from rfl]
  refine (eq_iff_extractLsb'_eq (n := 6 + 3 + 5 + 2 + 1 + 5 + 2 + 4 + 4)).trans ?_
  simp only [packAtom, extractLsb'_eq_append_iff, and_assoc, fMajor, fCode, fG, fAtomW, fUse, fN, fO, fPol, fLa, BitVec.toNat_inj,
    Nat.zero_add]

theorem packA_eq_iff {maj : BitVec 6} {m : BitVec 3} {x y : BitVec 8} {sel : BitVec 3} {la : BitVec 4} {w : Word} :
    packA maj m x y sel la = w ↔ fMajor w = maj.toNat ∧ fCode w = m ∧ fD w = x ∧ fA w = y ∧ fSel w = sel ∧ fLa w = la := by
  refine (eq_iff_extractLsb'_eq (n := 6 + 3 + 8 + 8 + 3 + 4)).trans ?_
  simp only [packA, extractLsb'_eq_append_iff, and_assoc, fMajor, fCode, fD, fA, fSel, fLa, BitVec.toNat_inj, Nat.zero_add]

theorem packH_eq_iff {k : BitVec 3} {p : BitVec 23} {w : Word} : packH k p = w ↔ fMajor w = 63 ∧ fCode w = k ∧ fPay w = p := by
  rw [show (63 : Nat) = (0x3F#6).toNat from rfl]
  refine (eq_iff_extractLsb'_eq (n := 6 + 3 + 23)).trans ?_
  simp only [packH, extractLsb'_eq_append_iff, and_assoc, fMajor, fCode, fPay, BitVec.toNat_inj, Nat.zero_add]

theorem packTack_eq_iff {idx : BitVec 12} {w : Word} :
    packTack idx = w ↔ fMajor w = 59 ∧ fCode w = 3#3 ∧ w.extractLsb' 19 4 = 0#4 ∧ fTack w = idx ∧ fB w = 0#7 := by
  rw [show (59 : Nat) = (0x3B#6).toNat from rfl]
  refine (eq_iff_extractLsb'_eq (n := 6 + 3 + 4 + 12 + 7)).trans ?_
  simp only [packTack, extractLsb'_eq_append_iff, and_assoc, fMajor, fCode, fTack, fB, BitVec.toNat_inj, Nat.zero_add]

theorem fDisp_eq_iff {disp : BitVec 18} {w : Word} :
    fDisp w = disp ↔ fCode w = disp.extractLsb' 15 3 ∧ w.extractLsb' 0 15 = disp.extractLsb' 0 15 := by
  rw [eq_comm (a := fCode w), eq_comm (a := w.extractLsb' 0 15), eq_comm]
  refine Iff.trans ?_ (extractLsb'_eq_append_iff (m := 3) (n := 15) (s := 0))
  rw [BitVec.extractLsb'_eq_self]
  rfl

theorem packB_eq_iff {maj : BitVec 6} {disp : BitVec 18} {sl : BitVec 8} {w : Word} :
    packB maj disp sl = w ↔ fMajor w = maj.toNat ∧ fD w = sl ∧ fDisp w = disp := by
  refine (eq_iff_extractLsb'_eq (n := 6 + 3 + 8 + 15)).trans ?_
  simp only [packB, extractLsb'_eq_append_iff, fDisp_eq_iff, and_assoc, fMajor, fCode, fD, BitVec.toNat_inj, Nat.zero_add]
  rw [and_left_comm (a := w.extractLsb' 23 3 = _)]

/-! ## Fields that a row divides further (R61, R67, R81, R82, R85) -/

theorem fD_eq_append_iff {x y : BitVec 4} {w : Word} : fD w = x ++ y ↔ w.extractLsb' 19 4 = x ∧ w.extractLsb' 15 4 = y :=
  extractLsb'_eq_append_iff (m := 4) (n := 4)

theorem fA_eq_append_iff {x : BitVec 6} {y : BitVec 2} {w : Word} : fA w = x ++ y ↔ w.extractLsb' 9 6 = x ∧ w.extractLsb' 7 2 = y :=
  extractLsb'_eq_append_iff (m := 6) (n := 2)

theorem fB_eq_append_iff {x : BitVec 5} {y : BitVec 2} {w : Word} : fB w = x ++ y ↔ fFnHi w = x ∧ fFnLo w = y :=
  extractLsb'_eq_append_iff (m := 5) (n := 2)

/-- The function code of a CVT (R82). -/
theorem fB_eq_cvt_iff {x u : BitVec 1} {y : BitVec 3} {r : BitVec 2} {w : Word} :
    fB w = x ++ y ++ u ++ r ↔ w.extractLsb' 6 1 = x ∧ w.extractLsb' 3 3 = y ∧ w.extractLsb' 2 1 = u ∧ fFnLo w = r := by
  change w.extractLsb' 0 (1 + 3 + 1 + 2) = _ ↔ _
  simp only [extractLsb'_eq_append_iff, and_assoc, fFnLo, Nat.zero_add]

theorem fB_eq_sel_iff {x : BitVec 3} {y : BitVec 4} {w : Word} : fB w = x ++ y ↔ fSel w = x ∧ fLa w = y :=
  extractLsb'_eq_append_iff (m := 3) (n := 4)

theorem fPay_eq_append_iff {x y : BitVec 8} {z : BitVec 7} {w : Word} : fPay w = x ++ y ++ z ↔ fD w = x ∧ fA w = y ∧ fB w = z := by
  change w.extractLsb' 0 (8 + 8 + 7) = _ ↔ _
  simp only [extractLsb'_eq_append_iff, and_assoc, fD, fA, fB, Nat.zero_add]

/-! The payloads of PERM, MIXW and LKA stand under zeros (R76, R78, R79). -/

theorem fPay_eq_perm_iff {p : BitVec 16} {w : Word} : fPay w = 0#7 ++ p ↔ w.extractLsb' 16 7 = 0#7 ∧ w.extractLsb' 0 16 = p :=
  extractLsb'_eq_append_iff (m := 7) (n := 16)
theorem fPay_eq_mixw_iff {p : BitVec 9} {w : Word} : fPay w = 0#14 ++ p ↔ w.extractLsb' 9 14 = 0#14 ∧ w.extractLsb' 0 9 = p :=
  extractLsb'_eq_append_iff (m := 14) (n := 9)
theorem fPay_eq_lka_iff {p : BitVec 6} {w : Word} : fPay w = 0#17 ++ p ↔ w.extractLsb' 6 17 = 0#17 ∧ w.extractLsb' 0 6 = p :=
  extractLsb'_eq_append_iff (m := 17) (n := 6)

/-! ## The width that a word names (R16) -/

theorem Width.code_eq_iff {c : BitVec 3} {x : Width} : c = x.code ↔ Width.ofCode c = x := by
  constructor
  · rintro rfl
    cases x <;> rfl
  · rintro rfl
    revert c
    decide

theorem packT_width_eq_iff {maj : BitVec 6} {x : Width} {d a : BitVec 8} {b : BitVec 7} {w : Word} :
    packT maj x.code d a b = w ↔ fMajor w = maj.toNat ∧ fW w = x ∧ fD w = d ∧ fA w = a ∧ fB w = b := by
  rw [packT_eq_iff, Width.code_eq_iff, fW]

theorem packM_width_eq_iff {maj : BitVec 6} {x : Width} {d : BitVec 8} {n : BitVec 5} {o : BitVec 2} {p la : BitVec 4} {w : Word} :
    packM maj x.code d n o p la = w ↔
      fMajor w = maj.toNat ∧ fW w = x ∧ fD w = d ∧ fN w = n ∧ fO w = o ∧ fPol w = p ∧ fLa w = la := by
  rw [packM_eq_iff, Width.code_eq_iff, fW]

end Sys2Proof
end

section
/-! SUPPORT. The decoder reads back what the encoder writes (R58 to R86). -/

namespace Sys2Proof

/-! ## The majors that have a map of their own (R81 to R85) -/

theorem decode_unary {w : Word} (h : fMajor w = 43) : decode w = decodeUnary w := by rw [decode, h]; rfl
theorem decode_xfer {w : Word} (h : fMajor w = 50) : decode w = decodeXfer w := by rw [decode, h]; rfl
theorem decode_lsc {w : Word} (h : fMajor w = 53) : decode w = decodeLsc w := by rw [decode, h]; rfl
theorem decode_atom {w : Word} (h : fMajor w = 54) : decode w = decodeAtom w := by rw [decode, h]; rfl
theorem decode_skein {w : Word} (h : fMajor w = 56) : decode w = decodeSkein w := by rw [decode, h]; rfl
theorem decode_sync {w : Word} (h : fMajor w = 57) : decode w = decodeSync w := by rw [decode, h]; rfl
theorem decode_memctl {w : Word} (h : fMajor w = 58) : decode w = decodeMemctl w := by rw [decode, h]; rfl
theorem decode_svc {w : Word} (h : fMajor w = 59) : decode w = decodeSvc w := by rw [decode, h]; rfl
theorem decode_wrg {w : Word} (h : fMajor w = 60) : decode w = decodeWrg w := by rw [decode, h]; rfl
theorem decode_mng {w : Word} (h : fMajor w = 61) : decode w = decodeMng w := by rw [decode, h]; rfl
theorem decode_que {w : Word} (h : fMajor w = 62) : decode w = decodeQue w := by rw [decode, h]; rfl
theorem decode_hint {w : Word} (h : fMajor w = 63) : decode w = decodeHint w := by rw [decode, h]; rfl

@[simp] theorem needZero_eq_ok_iff {ok : Bool} {i j : Instr} : needZero ok i = .ok j ↔ ok = true ∧ i = j := by
  cases ok <;> simp [needZero]

/-- The function codes that R81 and R82 do not give one by one are those of SXT, ZXT and CVT. -/
theorem decodeUnary_of_range {w : Word} (h : 16 ≤ (fB w).toNat ∧ (fB w).toNat < 32 ∨ 64 ≤ (fB w).toNat) :
    decodeUnary w =
      if fFnHi w = 4#5 then .ok (.sxt (fW w) (fD w) (fA w) (fFnLo w))
      else if fFnHi w = 5#5 then .ok (.zxt (fW w) (fD w) (fA w) (fFnLo w))
      else if 64 ≤ (fB w).toNat then
        .ok (.cvt (fW w) (fD w) (fA w) (Width.ofCode (w.extractLsb' 3 3)) (w.extractLsb' 2 1) (fFnLo w))
      else .error .unassignedCode := by
  unfold decodeUnary
  split
  case h_28 => rfl
  all_goals omega

/-- The function codes of SXT and ZXT (R81). -/
theorem extCode_range : ∀ hi : BitVec 5, hi = 4#5 ∨ hi = 5#5 → ∀ src : BitVec 2, 16 ≤ (hi ++ src).toNat ∧ (hi ++ src).toNat < 32 := by
  decide

theorem fB_range {w : Word} (h : fFnHi w = 4#5 ∨ fFnHi w = 5#5) : 16 ≤ (fB w).toNat ∧ (fB w).toNat < 32 := by
  rw [fB_eq_append_iff.mpr ⟨rfl, rfl⟩]
  exact extCode_range _ h _

/-- Bit 6 of the function code sets CVT apart (R82). -/
theorem le_fB_iff {w : Word} : 64 ≤ (fB w).toNat ↔ w.extractLsb' 6 1 = 1#1 := by
  have h : ∀ b : BitVec 7, 64 ≤ b.toNat ↔ b.extractLsb' 6 1 = 1#1 := by decide
  rw [h, fB, BitVec.extractLsb'_extractLsb'_of_le (by decide)]

theorem decodeUnary_sxt {w : Word} (h : fFnHi w = 4#5) : decodeUnary w = .ok (.sxt (fW w) (fD w) (fA w) (fFnLo w)) := by
  rw [decodeUnary_of_range (.inl (fB_range (.inl h))), if_pos h]

theorem decodeUnary_zxt {w : Word} (h : fFnHi w = 5#5) : decodeUnary w = .ok (.zxt (fW w) (fD w) (fA w) (fFnLo w)) := by
  rw [decodeUnary_of_range (.inl (fB_range (.inr h))), if_neg (by rw [h]; decide), if_pos h]

theorem decodeUnary_cvt {w : Word} (h : w.extractLsb' 6 1 = 1#1) :
    decodeUnary w = .ok (.cvt (fW w) (fD w) (fA w) (Width.ofCode (w.extractLsb' 3 3)) (w.extractLsb' 2 1) (fFnLo w)) := by
  have hn := le_fB_iff.mpr h
  have hhi : ¬(fFnHi w = 4#5 ∨ fFnHi w = 5#5) := fun h => absurd (fB_range h).2 (by omega)
  rw [decodeUnary_of_range (.inr hn), if_neg (hhi <| .inl ·), if_neg (hhi <| .inr ·), if_pos hn]

/-- The fields of the word of each row, as its format gives them, are those by which the decoder finds the row. -/
theorem decode_of_encode {i : Instr} {w : Word} (h : encode i = some w) : decode w = .ok i := by
  cases i with
  | add | sub | mul | mulh | mulhu | mad | min | max | minu | maxu | adds | subs | addus | subus | and | or | xor | andn
  | shl | shr | sar | rot | bfx | bfi | cmpeq | cmpne | cmplt | cmple | cmpltu | cmpleu | sel
  | addi | andi | ori | xori | shli | shri | sari | cmpeqi | cmplti | shfl =>
    obtain ⟨hm, rfl, rfl, rfl, rfl⟩ := packT_width_eq_iff.mp (Option.some.inj h)
    rw [decode, hm]
    rfl
  | dot8I4 | dot4I8 | dot2B16 =>
    obtain ⟨hm, hc, rfl, rfl, rfl⟩ := packT_eq_iff.mp (Option.some.inj h)
    rw [decode, hm, fMinor, hc]
    rfl
  | movi =>
    obtain ⟨hm, rfl, rfl, ha, rfl⟩ := packT_width_eq_iff.mp (Option.some.inj h)
    rw [decode, hm, ha]
    rfl
  | mov | not | neg | abs | clz | ctz | popc | brev | bswap | fclass | sqrt | rcp | rsq | exp2 | log2 | sin | cos | floor | ceil
  | trunc | rint | cvtFromE4M3 | cvtFromE5M2 | cvtToE4M3 | cvtToE4M3Sat | cvtToE5M2 | cvtToE5M2Sat =>
    obtain ⟨hm, rfl, rfl, rfl, hb⟩ := packT_width_eq_iff.mp (Option.some.inj h)
    rw [decode_unary hm, decodeUnary, hb]
    rfl
  | sxt =>
    obtain ⟨hm, rfl, rfl, rfl, hb⟩ := packT_width_eq_iff.mp (Option.some.inj h)
    obtain ⟨hhi, rfl⟩ := fB_eq_append_iff.mp hb
    rw [decode_unary hm, decodeUnary_sxt hhi]
  | zxt =>
    obtain ⟨hm, rfl, rfl, rfl, hb⟩ := packT_width_eq_iff.mp (Option.some.inj h)
    obtain ⟨hhi, rfl⟩ := fB_eq_append_iff.mp hb
    rw [decode_unary hm, decodeUnary_zxt hhi]
  | cvt =>
    obtain ⟨hm, rfl, rfl, rfl, hb⟩ := packT_width_eq_iff.mp (Option.some.inj h)
    obtain ⟨htop, hsrc, rfl, rfl⟩ := fB_eq_cvt_iff.mp hb
    rw [decode_unary hm, decodeUnary_cvt htop, Width.code_eq_iff.mp hsrc]
  | bra =>
    obtain ⟨hm, hd, rfl⟩ := packB_eq_iff.mp (Option.some.inj h)
    rw [decode, hm, hd]
    rfl
  | bz | bnz | call | split | launch =>
    obtain ⟨hm, rfl, rfl⟩ := packB_eq_iff.mp (Option.some.inj h)
    rw [decode, hm]
    rfl
  | ret | jmpi | calli =>
    obtain ⟨hm, hc, hd, ha, hb⟩ := packT_eq_iff.mp (Option.some.inj h)
    simp [decode_xfer hm, decodeXfer, fMinor, hc, hd, ha, hb]
  | nop | exit | join | yieldI =>
    obtain ⟨hm, hc, hzero⟩ := packT_eq_iff.mp (Option.some.inj h)
    have hp := fPay_eq_append_iff.mpr hzero
    simp [decode_xfer hm, decodeXfer, fMinor, hc, hp]
  | ldg =>
    obtain ⟨hm, rfl, rfl, rfl, ho, rfl, rfl⟩ := packM_width_eq_iff.mp (Option.some.inj h)
    rw [decode, hm, ho]
    rfl
  | stg =>
    obtain ⟨hm, rfl, rfl, rfl, ho, rfl, hl⟩ := packM_width_eq_iff.mp (Option.some.inj h)
    rw [decode, hm, ho, hl]
    rfl
  | lds | ldc | sts | stc =>
    obtain ⟨hm, hw, hd, hn, ho, hp, hl⟩ := packM_width_eq_iff.mp (Option.some.inj h)
    simp [decode_lsc hm, decodeLsc, hw, hd, hn, ho, hp, hl]
  | aadd | amin | amax | aminu | amaxu | aand | aor | axor | axchg | acas =>
    obtain ⟨hm, rfl, rfl, rfl, rfl, rfl, rfl, hp, rfl⟩ := packAtom_eq_iff.mp (Option.some.inj h)
    rw [decode_atom hm, decodeAtom, hp]
    rfl
  | eqmask | any | all | rds =>
    obtain ⟨hm, rfl, rfl, rfl, hb⟩ := packT_width_eq_iff.mp (Option.some.inj h)
    rw [decode_skein hm, decodeSkein, hb]
    rfl
  | ballot | wrsEm | wrsSw | krd | kwr | rdcyc | lblr | lblq =>
    obtain ⟨hm, hc, hd, ha, hb⟩ := packT_eq_iff.mp (Option.some.inj h)
    simp [decode_skein hm, decodeSkein, fMinor, hc, hd, ha, hb]
  | bar | bararr | barwait | bardrop =>
    obtain ⟨hm, hc, hd, ha, hs, hl⟩ := packA_eq_iff.mp (Option.some.inj h)
    obtain ⟨hz, hbar⟩ := fD_eq_append_iff.mp hd
    simp [decode_sync hm, decodeSync, fMinor, hc, ha, hs, hl, hz, hbar]
  | sbinit | sbarr | sbexp | sbwait | sbdrop | bitwait | spawn =>
    obtain ⟨hm, hc, hd, ha, hs, hl⟩ := packA_eq_iff.mp (Option.some.inj h)
    simp [decode_sync hm, decodeSync, fMinor, hc, hd, ha, hs, hl]
  | fence =>
    obtain ⟨hm, hc, hd, ha, hs, hl⟩ := packA_eq_iff.mp (Option.some.inj h)
    obtain ⟨hz, hord⟩ := fA_eq_append_iff.mp ha
    simp [decode_memctl hm, decodeMemctl, fMinor, hc, hd, hs, hl, hz, hord]
  | clean | inval | pref | ipref | icinv | stream | streamx | spill | fill | ibar =>
    obtain ⟨hm, hc, hd, ha, hs, hl⟩ := packA_eq_iff.mp (Option.some.inj h)
    simp [decode_memctl hm, decodeMemctl, fMinor, hc, hd, ha, hs, hl]
  | syscall | trap | brk | uint =>
    obtain ⟨hm, hc, hd, ha, hb⟩ := packT_eq_iff.mp (Option.some.inj h)
    simp [decode_svc hm, decodeSvc, fMinor, hc, hd, ha, hb]
  | tack =>
    obtain ⟨hm, hc, hz, ht, hb⟩ := packTack_eq_iff.mp (Option.some.inj h)
    simp [decode_svc hm, decodeSvc, fMinor, hc, hz, ht, hb]
  | wcopy | wgath | wscat | wfill | wsend | wcollSumF32 | wcollSumB16 | wcollSumI32 | wcollGather | wcollBcast =>
    obtain ⟨hm, hc, hd, ha, hs, hl⟩ := packA_eq_iff.mp (Option.some.inj h)
    simp [decode_wrg hm, decodeWrg, fMinor, hc, hd, ha, hs, hl]
  | mbayBay | mbayAcc | mwload | mma | mdrain | mzero | mfreeBay | mfreeAcc =>
    obtain ⟨hm, hc, hd, ha, hs, hl⟩ := packA_eq_iff.mp (Option.some.inj h)
    simp [decode_mng hm, decodeMng, fMinor, hc, hd, ha, hs, hl]
  | close | waitb | testb | qpush | qpop | qtry | getfr =>
    obtain ⟨hm, hc, hd, ha, hs, hl⟩ := packA_eq_iff.mp (Option.some.inj h)
    simp [decode_que hm, decodeQue, fMinor, hc, hd, ha, hs, hl]
  | setfr =>
    obtain ⟨hm, hc, hd, ha, hsl⟩ := packA_eq_iff.mp (Option.some.inj h)
    have hb := fB_eq_sel_iff.mpr hsl
    simp [decode_que hm, decodeQue, fMinor, hc, hd, ha, hb]
  | ximm | offs =>
    obtain ⟨hm, hc, hp⟩ := packH_eq_iff.mp (Option.some.inj h)
    simp [decode_hint hm, decodeHint, fMinor, hc, hp]
  | perm =>
    obtain ⟨hm, hc, hp⟩ := packH_eq_iff.mp (Option.some.inj h)
    obtain ⟨hz, hv⟩ := fPay_eq_perm_iff.mp hp

    simp [decode_hint hm, decodeHint, fMinor, hc, hz, hv]
  | mixw =>
    obtain ⟨hm, hc, hp⟩ := packH_eq_iff.mp (Option.some.inj h)
    obtain ⟨hz, hv⟩ := fPay_eq_mixw_iff.mp hp
    simp [decode_hint hm, decodeHint, fMinor, hc, hz, hv]
  | lka =>
    obtain ⟨hm, hc, hp⟩ := packH_eq_iff.mp (Option.some.inj h)
    obtain ⟨hz, hv⟩ := fPay_eq_lka_iff.mp hp
    simp [decode_hint hm, decodeHint, fMinor, hc, hz, hv]
  | _ => cases h

/-! ## Words as bytes (R58) -/

theorem append_bytes_eq (w : Word) : w.extractLsb' 24 8 ++ w.extractLsb' 16 8 ++ w.extractLsb' 8 8 ++ w.extractLsb' 0 8 = w := by
  refine (eq_iff_extractLsb'_eq (n := 8 + 8 + 8 + 8)).mpr ?_
  simp only [extractLsb'_eq_append_iff, Nat.zero_add, and_self]

theorem decodeBytes_wordBytes (w : Word) (rest : List Byte) :
    decodeBytes (wordBytes w ++ rest) = (decode w).map fun i => (i, rest) := by
  show (decode (w.extractLsb' 24 8 ++ w.extractLsb' 16 8 ++ w.extractLsb' 8 8 ++ w.extractLsb' 0 8)).map (fun i => (i, rest)) = _
  rw [append_bytes_eq]

/-- Settles O1: the bytes of a word join to it, and the decoder reads its fields format by format. -/
theorem decodeOfEncode : Obligations.DecodeOfEncode := fun i w rest h => by
  rw [decodeBytes_wordBytes, decode_of_encode h]
  rfl

/-- Settles O3: each word is the one that the encoder writes for its instruction. -/
theorem wordsOfTheFormats : Obligations.WordsOfTheFormats := by
  unfold Obligations.WordsOfTheFormats
  and_intros <;> exact decode_of_encode rfl

end Sys2Proof
end

section
/-! SUPPORT. A word that decodes is made of the fields that its row reads (R58 to R86). -/

namespace Sys2Proof

theorem fMajor_lt (w : Word) : fMajor w < 64 := (w.extractLsb' 26 6).isLt
theorem fMinor_lt (w : Word) : fMinor w < 8 := (fCode w).isLt

/-- A row whose other fields must be zero has been read only if they are. -/
theorem encode_of_needZero {ok : Bool} {i j : Instr} {w : Word} (h : needZero ok j = .ok i) (hj : ok = true → encode j = some w) :
    encode i = some w := by
  obtain ⟨hz, rfl⟩ := needZero_eq_ok_iff.mp h
  exact hj hz

/-! The word of a format from the codes that the decoder compares as numbers. -/

theorem packT_of_codes {maj : BitVec 6} {c : BitVec 3} {d a : BitVec 8} {b : BitVec 7} {w : Word} (hm : fMajor w = maj.toNat)
    (hc : fMinor w = c.toNat) (hf : fD w = d ∧ fA w = a ∧ fB w = b) : packT maj c d a b = w :=
  packT_eq_iff.mpr ⟨hm, BitVec.eq_of_toNat_eq hc, hf⟩

theorem packA_of_codes {maj : BitVec 6} {m : BitVec 3} {x y : BitVec 8} {sel : BitVec 3} {la : BitVec 4} {w : Word}
    (hm : fMajor w = maj.toNat) (hc : fMinor w = m.toNat) (hs : (fSel w).toNat = sel.toNat)
    (hf : fD w = x ∧ fA w = y ∧ fLa w = la) : packA maj m x y sel la = w :=
  have ⟨hx, hy, hl⟩ := hf
  packA_eq_iff.mpr ⟨hm, BitVec.eq_of_toNat_eq hc, hx, hy, BitVec.eq_of_toNat_eq hs, hl⟩

/-! ## The majors that have a map of their own (R81 to R85) -/

theorem encode_of_decodeUnary {i : Instr} {w : Word} (hm : fMajor w = 43) (h : decodeUnary w = .ok i) : encode i = some w := by
  unfold decodeUnary at h
  split at h
  case h_28 => -- SXT, ZXT, CVT
    split at h
    · next hhi =>
      cases h
      exact congrArg some (packT_width_eq_iff.mpr ⟨hm, rfl, rfl, rfl, fB_eq_append_iff.mpr ⟨hhi, rfl⟩⟩)
    · split at h
      · next hhi =>
        cases h
        exact congrArg some (packT_width_eq_iff.mpr ⟨hm, rfl, rfl, rfl, fB_eq_append_iff.mpr ⟨hhi, rfl⟩⟩)
      · split at h
        · next hn =>
          cases h
          exact congrArg some (packT_width_eq_iff.mpr ⟨hm, rfl, rfl, rfl,
            fB_eq_cvt_iff.mpr ⟨le_fB_iff.mp hn, Width.code_eq_iff.mpr rfl, rfl, rfl⟩⟩)
        · cases h
  all_goals
    next hb =>
    cases h
    exact congrArg some (packT_width_eq_iff.mpr ⟨hm, rfl, rfl, rfl, BitVec.eq_of_toNat_eq hb⟩)

theorem encode_of_decodeXfer {i : Instr} {w : Word} (hm : fMajor w = 50) (h : decodeXfer w = .ok i) : encode i = some w := by
  unfold decodeXfer at h
  split at h
  case h_1 | h_2 | h_3 => -- RET, JMPI, CALLI
    next hc =>
    exact encode_of_needZero h fun hz => congrArg some (packT_of_codes hm hc (by simpa [and_assoc] using hz))
  case h_4 | h_5 | h_6 | h_7 => -- NOP, EXIT, JOIN, YIELD
    next hc =>
    exact encode_of_needZero h fun hz => congrArg some (packT_of_codes hm hc (fPay_eq_append_iff.mp (eq_of_beq hz)))
  case h_8 => cases h

theorem encode_of_decodeLsc {i : Instr} {w : Word} (hm : fMajor w = 53) (h : decodeLsc w = .ok i) : encode i = some w := by
  unfold decodeLsc at h
  split at h
  · cases h
  · next ho =>
    split at h
    case h_1 | h_2 => -- LDS, LDC
      next hp =>
      cases h
      exact congrArg some (packM_width_eq_iff.mpr ⟨hm, rfl, rfl, rfl, not_not.mp ho, BitVec.eq_of_toNat_eq hp, rfl⟩)
    case h_3 | h_4 => -- STS, STC
      next hp =>
      exact encode_of_needZero h fun hz => congrArg some (packM_width_eq_iff.mpr
        ⟨hm, rfl, rfl, rfl, not_not.mp ho, BitVec.eq_of_toNat_eq hp, eq_of_beq hz⟩)
    case h_5 => cases h

theorem encode_of_decodeAtom {i : Instr} {w : Word} (hm : fMajor w = 54) (h : decodeAtom w = .ok i) : encode i = some w := by
  unfold decodeAtom at h
  split at h
  case h_11 => cases h
  all_goals
    next hp =>
    cases h
    exact congrArg some (packAtom_eq_iff.mpr ⟨hm, rfl, rfl, rfl, rfl, rfl, rfl, BitVec.eq_of_toNat_eq hp, rfl⟩)

theorem encode_of_decodeSkein {i : Instr} {w : Word} (hm : fMajor w = 56) (h : decodeSkein w = .ok i) : encode i = some w := by
  unfold decodeSkein at h
  split at h
  case h_2 | h_3 | h_4 | h_5 => -- EQMASK, ANY, ALL, RDS
    next hb =>
    cases h
    exact congrArg some (packT_width_eq_iff.mpr ⟨hm, rfl, rfl, rfl, BitVec.eq_of_toNat_eq hb⟩)
  case h_6 => -- WRS
    next hb =>
    split at h
    · next hc =>
      split at h
      · next hd =>
        cases h
        exact congrArg some (packT_of_codes hm hc ⟨hd, rfl, BitVec.eq_of_toNat_eq hb⟩)
      · split at h
        · next hd =>
          cases h
          exact congrArg some (packT_of_codes hm hc ⟨hd, rfl, BitVec.eq_of_toNat_eq hb⟩)
        · cases h
    · cases h
  case h_9 => -- RDCYC
    next hb =>
    split at h
    · next hc =>
      exact encode_of_needZero h fun hz => congrArg some (packT_of_codes hm hc ⟨rfl, eq_of_beq hz, BitVec.eq_of_toNat_eq hb⟩)
    · cases h
  case h_12 => cases h
  all_goals
    next hb =>
    split at h
    · next hc =>
      cases h
      exact congrArg some (packT_of_codes hm hc ⟨rfl, rfl, BitVec.eq_of_toNat_eq hb⟩)
    · cases h

theorem encode_of_decodeSync {i : Instr} {w : Word} (hm : fMajor w = 57) (h : decodeSync w = .ok i) : encode i = some w := by
  unfold decodeSync at h
  split at h
  case h_6 | h_11 => -- SBARR, SPAWN
    next hc hs =>
    cases h
    exact congrArg some (packA_of_codes hm hc hs ⟨rfl, rfl, rfl⟩)
  case h_12 => cases h
  all_goals
    next hc hs =>
    exact encode_of_needZero h fun hz => congrArg some (packA_of_codes hm hc hs (by simpa [fD_eq_append_iff, and_assoc] using hz))

theorem encode_of_decodeMemctl {i : Instr} {w : Word} (hm : fMajor w = 58) (h : decodeMemctl w = .ok i) : encode i = some w := by
  unfold decodeMemctl at h
  split at h
  case h_1 => -- FENCE
    next hc =>
    exact encode_of_needZero h fun hz => congrArg some (packA_of_codes hm hc rfl (by simpa [fA_eq_append_iff, and_assoc] using hz))
  case h_7 | h_10 => -- STREAM, FILL
    next hc hs =>
    cases h
    exact congrArg some (packA_of_codes hm hc hs ⟨rfl, rfl, rfl⟩)
  case h_12 => cases h
  all_goals
    next hc hs =>
    exact encode_of_needZero h fun hz => congrArg some (packA_of_codes hm hc hs (by simpa [and_assoc] using hz))

theorem encode_of_decodeSvc {i : Instr} {w : Word} (hm : fMajor w = 59) (h : decodeSvc w = .ok i) : encode i = some w := by
  unfold decodeSvc at h
  split at h
  case h_4 => -- TACK
    next hc =>
    obtain ⟨hz, rfl⟩ := needZero_eq_ok_iff.mp h
    simp only [Bool.and_eq_true, beq_iff_eq] at hz
    obtain ⟨htop, hb⟩ := hz
    exact congrArg some (packTack_eq_iff.mpr ⟨hm, BitVec.eq_of_toNat_eq hc, htop, rfl, hb⟩)
  case h_6 => cases h
  all_goals
    next hc =>
    exact encode_of_needZero h fun hz => congrArg some (packT_of_codes hm hc (by simpa [and_assoc] using hz))

theorem encode_of_decodeWrg {i : Instr} {w : Word} (hm : fMajor w = 60) (h : decodeWrg w = .ok i) : encode i = some w := by
  unfold decodeWrg at h
  split at h
  case h_1 | h_2 | h_3 | h_4 => -- WCOPY, WGATH, WSCAT, WFILL
    next hc =>
    exact encode_of_needZero h fun hz => congrArg some (packA_of_codes hm hc rfl ⟨rfl, rfl, eq_of_beq hz⟩)
  case h_11 => cases h
  all_goals
    next hc hs =>
    exact encode_of_needZero h fun hz => congrArg some (packA_of_codes hm hc hs (by simpa using hz))

theorem encode_of_decodeMng {i : Instr} {w : Word} (hm : fMajor w = 61) (h : decodeMng w = .ok i) : encode i = some w := by
  unfold decodeMng at h
  split at h
  case h_1 | h_2 => -- MBAY
    next hc hs =>
    cases h
    exact congrArg some (packA_of_codes hm hc hs ⟨rfl, rfl, rfl⟩)
  case h_9 => cases h
  all_goals
    next hc hs =>
    exact encode_of_needZero h fun hz => congrArg some (packA_of_codes hm hc hs (by simpa [and_assoc] using hz))

theorem encode_of_decodeQue {i : Instr} {w : Word} (hm : fMajor w = 62) (h : decodeQue w = .ok i) : encode i = some w := by
  unfold decodeQue at h
  split at h
  case h_1 | h_2 => -- CLOSE, WAITB
    next hc =>
    exact encode_of_needZero h fun hz => congrArg some (packA_of_codes hm hc rfl (by simpa [and_assoc] using hz))
  case h_3 => -- TESTB
    next hc =>
    cases h
    exact congrArg some (packA_of_codes hm hc rfl ⟨rfl, rfl, rfl⟩)
  case h_4 | h_5 | h_6 => -- QPUSH, QPOP, QTRY
    next hc =>
    exact encode_of_needZero h fun hz => congrArg some (packA_of_codes hm hc (congrArg BitVec.toNat (eq_of_beq hz)) ⟨rfl, rfl, rfl⟩)
  case h_7 => -- SETFR
    next hc =>
    obtain ⟨hz, rfl⟩ := needZero_eq_ok_iff.mp h
    simp only [Bool.and_eq_true, beq_iff_eq] at hz
    obtain ⟨hd, hb⟩ := hz
    obtain ⟨hs, hl⟩ := (fB_eq_sel_iff (x := 0) (y := 0)).mp hb
    exact congrArg some (packA_of_codes hm hc (congrArg BitVec.toNat hs) ⟨hd, rfl, hl⟩)
  case h_8 => -- GETFR
    obtain ⟨hz, rfl⟩ := needZero_eq_ok_iff.mp h
    simp only [Bool.and_eq_true, beq_iff_eq] at hz
    obtain ⟨ha, hs⟩ := hz
    have hc : fMinor w = 7 := by
      have := fMinor_lt w
      simp only [imp_false] at *
      omega
    exact congrArg some (packA_of_codes hm hc (congrArg BitVec.toNat hs) ⟨rfl, ha, rfl⟩)

theorem encode_of_decodeHint {i : Instr} {w : Word} (hm : fMajor w = 63) (h : decodeHint w = .ok i) : encode i = some w := by
  unfold decodeHint at h
  split at h
  case h_1 | h_2 => -- XIMM, OFFS
    next hc =>
    cases h
    exact congrArg some (packH_eq_iff.mpr ⟨hm, BitVec.eq_of_toNat_eq hc, rfl⟩)
  case h_3 => -- PERM
    next hc =>
    split at h
    · next hz =>
      cases h
      exact congrArg some (packH_eq_iff.mpr ⟨hm, BitVec.eq_of_toNat_eq hc, fPay_eq_perm_iff.mpr ⟨hz, rfl⟩⟩)
    · cases h
  case h_4 => -- MIXW
    next hc =>
    split at h
    · next hz =>
      cases h
      exact congrArg some (packH_eq_iff.mpr ⟨hm, BitVec.eq_of_toNat_eq hc, fPay_eq_mixw_iff.mpr ⟨hz, rfl⟩⟩)
    · cases h
  case h_5 => -- LKA
    next hc =>
    split at h
    · next hz =>
      cases h
      exact congrArg some (packH_eq_iff.mpr ⟨hm, BitVec.eq_of_toNat_eq hc, fPay_eq_lka_iff.mpr ⟨hz, rfl⟩⟩)
    · cases h
  case h_6 => cases h

/-! ## All majors (R80 to R86) -/

/-- Each major is a row, or one of the maps above with its own lemma. -/
theorem encode_of_decode {w : Word} {i : Instr} (h : decode w = .ok i) : encode i = some w := by
  unfold decode at h
  split at h
  case h_1 => cases h
  case h_33 => -- the dot products
    next hm =>
    split at h
    case h_4 => cases h
    all_goals
      next hc =>
      cases h
      exact congrArg some (packT_of_codes hm hc ⟨rfl, rfl, rfl⟩)
  case h_43 => -- MOVI
    next hm =>
    exact encode_of_needZero h fun hz => congrArg some (packT_width_eq_iff.mpr ⟨hm, rfl, rfl, eq_of_beq hz, rfl⟩)
  case h_44 => next hm => exact encode_of_decodeUnary hm h
  case h_45 => -- BRA
    next hm =>
    exact encode_of_needZero h fun hz => congrArg some (packB_eq_iff.mpr ⟨hm, eq_of_beq hz, rfl⟩)
  case h_46 | h_47 | h_48 | h_49 | h_50 => -- BZ, BNZ, CALL, SPLIT, LAUNCH
    next hm =>
    cases h
    exact congrArg some (packB_eq_iff.mpr ⟨hm, rfl, rfl⟩)
  case h_51 => next hm => exact encode_of_decodeXfer hm h
  case h_52 => -- LDG
    next hm =>
    exact encode_of_needZero h fun hz => congrArg some (packM_width_eq_iff.mpr ⟨hm, rfl, rfl, rfl, eq_of_beq hz, rfl, rfl⟩)
  case h_53 => -- STG
    next hm =>
    obtain ⟨hz, rfl⟩ := needZero_eq_ok_iff.mp h
    simp only [Bool.and_eq_true, beq_iff_eq] at hz
    obtain ⟨ho, hl⟩ := hz
    exact congrArg some (packM_width_eq_iff.mpr ⟨hm, rfl, rfl, rfl, ho, rfl, hl⟩)
  case h_54 => next hm => exact encode_of_decodeLsc hm h
  case h_55 => next hm => exact encode_of_decodeAtom hm h
  case h_57 => next hm => exact encode_of_decodeSkein hm h
  case h_58 => next hm => exact encode_of_decodeSync hm h
  case h_59 => next hm => exact encode_of_decodeMemctl hm h
  case h_60 => next hm => exact encode_of_decodeSvc hm h
  case h_61 => next hm => exact encode_of_decodeWrg hm h
  case h_62 => next hm => exact encode_of_decodeMng hm h
  case h_63 => next hm => exact encode_of_decodeQue hm h
  case h_64 =>
    refine encode_of_decodeHint ?_ h
    have := fMajor_lt w
    simp only [imp_false] at *
    omega
  all_goals -- the other rows of formats T and I
    next hm =>
    cases h
    exact congrArg some (packT_width_eq_iff.mpr ⟨hm, rfl, rfl, rfl, rfl⟩)

/-- Settles O2: a word that a row accepts has the row's fixed bits, format by format. -/
theorem encodeOfDecode : Obligations.EncodeOfDecode := fun _ _ h => encode_of_decode h

end Sys2Proof
end

section
/-! SUPPORT. What is illegal in a group, and what its hint words do (R69 to R86). -/

namespace Sys2Proof.Machine

theorem wordOf_of_encode {i : Instr} {w : Word} (h : encode i = some w) : wordOf i = w := by
  unfold wordOf
  split
  · cases h
  · rw [h, Option.getD_some]

theorem isWord_of_encode {i : Instr} {w : Word} (h : encode i = some w) : isWord i = true := by
  unfold isWord
  split
  · rfl
  · rw [h, Option.isSome_some]

theorem instrOf_of_error {w : Word} {e : Reject} (h : decode w = .error e) : instrOf w = .illegalInstruction w := by
  unfold instrOf
  rw [h]

theorem fMajor_packH (k : BitVec 3) (p : BitVec 23) : fMajor (packH k p) = 0x3F := (packH_eq_iff.mp rfl).1

section
variable {i : Instr} {s : State} {k : Skein} {p : Split}

/-! ## Every word that is no hint issues (R87) -/

/-- An outcome is that of issuing the instruction with some body. -/
def Issues (i : Instr) (s : State) (o : Host.Outcome State Fault Refusal) : Prop := ∃ body, o = issue i s body

theorem issue_issues {body : Iss → Res State} : Issues i s (issue i s body) := ⟨body, rfl⟩

theorem laneOp_issues {ws : Hints → Widths} {d a b : Nat} {useD useB : Bool} {c : Hints → Widths → Nat → Nat → Nat → Nat} :
    Issues i s (laneOp i ws d a b useD useB s c) := issue_issues

theorem branch_issues {q : BitVec 8} {disp : BitVec 18} {sense : Bool} : Issues i s (branch i q disp sense s) := issue_issues

theorem transfer_issues {d : Option Nat} {a : BitVec 8} : Issues i s (transfer i d a s) := issue_issues

theorem loadOp_issues {sp : Space} {w : Width} {d : BitVec 8} {n : BitVec 5} {pol : Nat} {la : BitVec 4} :
    Issues i s (loadOp i sp w d n pol la s) := issue_issues

theorem storeOp_issues {sp : Space} {w : Width} {d : BitVec 8} {n : BitVec 5} {pol : Nat} : Issues i s (storeOp i sp w d n pol s) :=
  issue_issues

theorem atomic_issues {op : AtomOp} {a : AtomF} : Issues i s (atomic i op a s) := issue_issues

theorem reduce_issues {w : Width} {d a : BitVec 8} {test : Mask → Mask → Bool} : Issues i s (reduce i w d a s test) := issue_issues

theorem sbOp_issues {y : BitVec 8} {ops : Mask → List Opd} {store arrival init : Bool} {ok : Iss → SbObj → Bool}
    {body : Iss → Block → Nat → SbObj → Res State} : Issues i s (sbOp i y ops store arrival s init ok body) := issue_issues

theorem maintainOp_issues {x y : BitVec 8} {inval : Bool} : Issues i s (maintainOp i x y inval s) := issue_issues

theorem prefetch_issues {x y : BitVec 8} {need : Need} : Issues i s (prefetch i x y need s) := issue_issues

theorem wringerOp_issues {x : Nat} {regs other : List (Nat × Nat)} {body : Iss → Res State} :
    Issues i s (wringerOp i x regs other s body) := issue_issues

theorem wcollOp_issues {x : BitVec 8} {kind : Nat} : Issues i s (wcollOp i x kind s) := wringerOp_issues

theorem mbay_issues {x y : BitVec 8} {la : BitVec 4} {acc : Bool} : Issues i s (mbay i x y la acc s) := issue_issues

theorem mfree_issues {x y : BitVec 8} {acc : Bool} : Issues i s (mfree i x y acc s) := issue_issues

theorem mangleOp_issues {x : Nat} {regs : List (Nat × Nat)} {body : Iss → Res State} : Issues i s (mangleOp i x regs s body) :=
  issue_issues

/-- What a word that is no hint answers is what its issue answers, so the checks of its group come first. -/
theorem exec_issues (hw : isWord i = true) (hm : fMajor (wordOf i) ≠ 0x3F) : Issues i s (exec i s) := by
  cases hr : laneRow i with
  | some r =>
    rw [exec_of_laneRow hr]
    exact laneOp_issues
  | none =>
    cases i <;> dsimp only [exec]
    case add | sub | mul | mulh | mulhu | mad | min | max | minu | maxu | adds | subs | addus | subus | and | or | xor | andn
      | shl | shr | sar | rot | bfx | bfi | cmpeq | cmpne | cmplt | cmple | cmpltu | cmpleu | sel | dot8I4 | dot4I8 | dot2B16
      | addi | andi | ori | xori | shli | shri | sari | cmpeqi | cmplti | mov | not | neg | abs | clz | ctz | popc | brev
      | bswap | fclass | sxt | zxt | sqrt | rcp | rsq | exp2 | log2 | sin | cos | floor | ceil | trunc | rint | cvtFromE4M3
      | cvtFromE5M2 | cvtToE4M3 | cvtToE4M3Sat | cvtToE5M2 | cvtToE5M2Sat | cvt => cases hr
    case bz | bnz => exact branch_issues
    case ret | jmpi | calli => exact transfer_issues
    case ldg | lds | ldc => exact loadOp_issues
    case stg | sts | stc => exact storeOp_issues
    case aadd | amin | amax | aminu | amaxu | aand | aor | axor | axchg | acas => exact atomic_issues
    case any | all => exact reduce_issues
    case sbinit | sbarr | sbexp | sbwait | sbdrop => exact sbOp_issues
    case clean | inval => exact maintainOp_issues
    case pref | ipref => exact prefetch_issues
    case wcopy | wgath | wscat | wfill | wsend => exact wringerOp_issues
    case wcollSumF32 | wcollSumB16 | wcollSumI32 | wcollGather | wcollBcast => exact wcollOp_issues
    case mbayBay | mbayAcc => exact mbay_issues
    case mwload | mma | mdrain | mzero => exact mangleOp_issues
    case mfreeBay | mfreeAcc => exact mfree_issues
    case movi | bra | call | split | launch | nop | exit | join | yieldI | shfl | ballot | eqmask | rds | wrsEm | wrsSw | krd | kwr
      | rdcyc | lblr | lblq | bar | bararr | barwait | bardrop | bitwait | spawn | fence | icinv | stream | streamx | spill | fill
      | ibar | syscall | trap | brk | tack | uint | close | waitb | testb | qpush | qpop | qtry | setfr | getfr => exact issue_issues
    case ximm | offs | perm | mixw | lka => exact absurd (fMajor_packH _ _) hm
    case illegalInstruction => exact ⟨_, if_neg hm⟩
    all_goals cases hw

/-! ## What is illegal in a group (R70 to R86) -/

/-- The illegal-instruction trap of a group's consumer, with the detail that the group's fault has. -/
theorem exec_illegal {word : Addr} {detail : Nat} {code : BitVec 16} (hw : isWord i = true) (hm : fMajor (wordOf i) ≠ 0x3F)
    (hc : s.current = some (k, p)) (hf : groupFault i (p.hints.gpc.getD p.pc) p.pc p.hints = some (word, detail))
    (hcode : dnr 1 detail = code) : exec i s = .next (s.trapStop k p (p.hints.gpc.getD p.pc) word code p.em [] p.co) := by
  obtain ⟨body, he⟩ := exec_issues (s := s) hw hm
  rw [he, issue_illegal hc hf, hcode]

theorem groupFault_of_bad {gpc pc : Addr} {h : Hints} {b : Addr × Nat} (hb : h.bad = some b) : groupFault i gpc pc h = some b := by
  unfold groupFault
  rw [hb]

theorem groupFault_of_misfit {gpc pc : Addr} {h : Hints} {b : Addr × Nat} (hb : h.bad = none)
    (hf : misfit gpc h (wordOf i) 0 h.kinds = some b) : groupFault i gpc pc h = some b := by
  unfold groupFault
  simp only [hb, hf]

/-- A group with no hint words and a consumer that its row does not accept. -/
theorem groupFault_of_not_accepts {gpc pc : Addr} {h : Hints} (hb : h.bad = none) (hk : h.kinds = []) (ha : accepts i = false) :
    groupFault i gpc pc h = some (pc, 0) := by
  unfold groupFault
  rw [hb, hk, ha]
  rfl

theorem exec_of_not_accepts (hw : isWord i = true) (ha : accepts i = false) (hm : fMajor (wordOf i) ≠ 0x3F)
    (hc : s.current = some (k, p)) (hb : p.hints.bad = none) (hk : p.hints.kinds = []) :
    exec i s = .next (s.trapStop k p (p.hints.gpc.getD p.pc) p.pc 0x8100 p.em [] p.co) :=
  exec_illegal hw hm hc (groupFault_of_not_accepts hb hk ha) rfl

/-- The first hint that does not fit the consumer or does not suit it is the misfit of the group (R71, R76, R78, R79). -/
theorem misfit_of_first {gpc : Addr} {h : Hints} {w : Word} {kd : Nat} (kinds : List Nat) (n m : Nat) (hn : kinds[n]? = some kd)
    (hfit : ∀ j e, j < n → kinds[j]? = some e → hintFits e w = true ∧ hintSuits e h w = true) :
    (hintFits kd w = false → misfit gpc h w m kinds = some (gpc + 4 * BitVec.ofNat 64 (m + n), 1)) ∧
    (hintFits kd w = true → hintSuits kd h w = false → misfit gpc h w m kinds = some (gpc + 4 * BitVec.ofNat 64 (m + n), 0)) := by
  induction kinds generalizing n m with
  | nil => cases hn
  | cons e kinds ih =>
    cases n with
    | zero =>
      cases hn
      exact ⟨fun hf => by simp [misfit, hf], fun hf hs => by simp [misfit, hf, hs]⟩
    | succ n =>
      obtain ⟨hf, hs⟩ := hfit 0 e n.succ_pos rfl
      have hrest : misfit gpc h w m (e :: kinds) = misfit gpc h w (m + 1) kinds := by simp [misfit, hf, hs]
      rw [hrest, show m + (n + 1) = m + 1 + n by omega]
      exact ih n (m + 1) hn fun j e hj => hfit (j + 1) e (Nat.succ_lt_succ hj)

theorem exec_of_misfit {w : Word} {addr : Addr} {detail : Nat} {code : BitVec 16} (hc : s.current = some (k, p))
    (hb : p.hints.bad = none) (he : encode i = some w) (hm : fMajor w ≠ 0x3F)
    (hf : misfit (p.hints.gpc.getD p.pc) p.hints w 0 p.hints.kinds = some (addr, detail)) (hcode : dnr 1 detail = code) :
    exec i s = .next (s.trapStop k p (p.hints.gpc.getD p.pc) addr code p.em [] p.co) := by
  obtain rfl := wordOf_of_encode he
  exact exec_illegal (isWord_of_encode he) hm hc (groupFault_of_misfit hb hf) hcode

/-! ## The hint words (R69 to R79) -/

/-- A hint word joins its group; the first fault of the group stays (R70, R76, R86). -/
theorem hintWord_next {kind : Nat} {ok : Bool} {put : Hints → Hints} (hc : s.current = some (k, p)) :
    hintWord s kind ok put = .next (s.setSkein (k.setSplit { p with
      pc := p.pc + 4, since := s.issueTicks, yielded := none,
      hints := { put p.hints with
        gpc := some (p.hints.gpc.getD p.pc), kinds := p.hints.kinds ++ [kind],
        bad := (match p.hints.bad with
          | some b => some b
          | none => if kind ∈ p.hints.kinds then some (p.pc, 1) else if ok then none else some (p.pc, 0)) } })) := by
  unfold hintWord
  rw [hc]
  cases hb : p.hints.bad <;> cases ok <;> simp [hb]

theorem exec_ximm (v : BitVec 23) : exec (.ximm v) s = hintWord s 0 true fun h => { h with ximm := some v } := rfl

theorem exec_offs (v : BitVec 23) : exec (.offs v) s = hintWord s 1 true fun h => { h with offs := some v } := rfl

theorem exec_perm (v : BitVec 16) : exec (.perm v) s = hintWord s 2 (accepts (.perm v)) fun h => { h with perm := some v } := rfl

theorem exec_mixw (v : BitVec 9) : exec (.mixw v) s = hintWord s 3 true fun h => { h with mixw := some v } := rfl

theorem exec_lka (v : BitVec 6) : exec (.lka v) s = hintWord s 4 true fun h => { h with lka := some v } := rfl

theorem exec_illegalHint {w : Word} {e : Reject} (hd : decode w = .error e) (hm : fMajor w = 0x3F) :
    exec (instrOf w) s = hintWord s (w.extractLsb' 23 3).toNat false id := by
  rw [instrOf_of_error hd]
  exact if_pos hm

end

/-- Settles O4: a word that is no row stands as an instruction that none accepts, and what is not accepted is the fault of a group
without hint words. -/
theorem unassignedWordsTrap : Obligations.UnassignedWordsTrap := by
  refine ⟨fun w e s k p hd hm => ?_, fun i s k p => exec_of_not_accepts⟩
  rw [instrOf_of_error hd]
  exact exec_of_not_accepts rfl rfl hm

/-- Settles O27: each hint word by what joining a group does, the consumer by the fault that its group keeps or by the first misfit among
its hints. -/
theorem hintWords : Obligations.HintWords := by
  refine ⟨fun s k p hc => ⟨fun v => (exec_ximm v).trans (hintWord_next hc), fun v => (exec_offs v).trans (hintWord_next hc),
    fun v => (exec_perm v).trans (hintWord_next hc), fun v => (exec_mixw v).trans (hintWord_next hc),
    fun v => (exec_lka v).trans (hintWord_next hc), fun w e hd hm => (exec_illegalHint hd hm).trans (hintWord_next hc)⟩, ?_, ?_⟩
  · intro i s k p word detail hc hw hm hb
    exact exec_illegal hw hm hc (groupFault_of_bad hb) rfl
  · intro i s k p w hc hb he hm gpc n kd hn hfit
    obtain ⟨hmisfit, hunsuited⟩ := misfit_of_first (gpc := gpc) (h := p.hints) p.hints.kinds n 0 hn hfit
    rw [Nat.zero_add] at hmisfit hunsuited
    exact ⟨fun h => exec_of_misfit hc hb he hm (hmisfit h) rfl, fun h h' => exec_of_misfit hc hb he hm (hunsuited h h') rfl⟩

end Sys2Proof.Machine
end

section
/-! SUPPORT. The parts of the machine that a step keeps, and the shared operations that keep them (R123, R397, R434). -/

namespace Sys2Proof.Machine

-- One proof after another: side by side, they hold more memory than the check of the whole text allows.
set_option Elab.async false

/-! ## Shapes of an answer -/

theorem State.shapeOk.ite {s t : State} {c : Prop} [Decidable c] (h : s.shapeOk) (ht : t.shapeOk) : (if c then s else t).shapeOk := by
  split
  · exact h
  · exact ht

/-- A change made for each element of a list keeps the parts when each one does. -/
theorem State.shapeOk.foldl {α : Type} {s : State} (h : s.shapeOk) {f : State → α → State}
    (hf : ∀ t a, t.shapeOk → (f t a).shapeOk) {l : List α} : (l.foldl f s).shapeOk := by
  induction l generalizing s with
  | nil => exact h
  | cons a l ih => exact ih (hf s a h)

/-! ## Keyed parts -/

theorem State.shapeOk.setSkein {s : State} (h : s.shapeOk) {k : Skein} : (s.setSkein k).shapeOk := h
theorem State.shapeOk.setCtx {s : State} (h : s.shapeOk) {c : Context} : (s.setCtx c).shapeOk := h
theorem State.shapeOk.setGrid {s : State} (h : s.shapeOk) {g : Grid} : (s.setGrid g).shapeOk := h
theorem State.shapeOk.setBlock {s : State} (h : s.shapeOk) {b : Block} : (s.setBlock b).shapeOk := h
theorem State.shapeOk.setVf {s : State} (h : s.shapeOk) {v : VF} : (s.setVf v).shapeOk := h

/-- As many clusters as before. -/
theorem State.shapeOk.withClusters {s : State} (h : s.shapeOk) {l : List Cluster} (hl : l.length = s.clusters.length) :
    ({ s with clusters := l } : State).shapeOk := ⟨hl.trans h.1, h.2⟩

/-- As many cores as before. -/
theorem State.shapeOk.withCores {s : State} (h : s.shapeOk) {l : List Core} (hl : l.length = s.cores.length) :
    ({ s with cores := l } : State).shapeOk := ⟨h.1, hl.trans h.2.1, h.2.2⟩

/-- As many dies as before. -/
theorem State.shapeOk.withDies {s : State} (h : s.shapeOk) {l : List Die} (hl : l.length = s.dieSt.length) :
    ({ s with dieSt := l } : State).shapeOk := ⟨h.1, h.2.1, hl.trans h.2.2.1, h.2.2.2⟩

/-- As many partitions as before. -/
theorem State.shapeOk.withParts {s : State} (h : s.shapeOk) {l : List Partition} (hl : l.length = s.parts.length) :
    ({ s with parts := l } : State).shapeOk := ⟨h.1, h.2.1, h.2.2.1, hl.trans h.2.2.2⟩

theorem State.shapeOk.modCluster {s : State} (h : s.shapeOk) {n : Nat} {f : Cluster → Cluster} : (s.modCluster n f).shapeOk :=
  h.withClusters (List.length_modify _ _ _)

theorem State.shapeOk.modCore {s : State} (h : s.shapeOk) {n : Nat} {f : Core → Core} : (s.modCore n f).shapeOk :=
  h.withCores (List.length_modify _ _ _)

theorem State.shapeOk.modDie {s : State} (h : s.shapeOk) {n : Nat} {f : Die → Die} : (s.modDie n f).shapeOk :=
  h.withDies (List.length_modify _ _ _)

theorem State.shapeOk.modPart {s : State} (h : s.shapeOk) {n : Nat} {f : Partition → Partition} : (s.modPart n f).shapeOk :=
  h.withParts (List.length_modify _ _ _)

theorem State.shapeOk.modCtx {s : State} (h : s.shapeOk) {n : Nat} {f : Context → Context} : (s.modCtx n f).shapeOk := by
  fun_cases State.modCtx s n f
  · exact h
  · exact h

theorem State.shapeOk.takeWord {s : State} (h : s.shapeOk) : s.takeWord.2.shapeOk := h
theorem State.shapeOk.takeBit {s : State} (h : s.shapeOk) : s.takeBit.2.shapeOk := h

theorem State.shapeOk.leaveHem {s : State} (h : s.shapeOk) {n : Nat} {m : HemMsg} : (s.leaveHem n m).shapeOk := by
  fun_cases State.leaveHem s n m
  · exact h
  · exact h

/-! ## Bytes written at their coherence points (R183, R230) -/

theorem State.shapeOk.poke {s : State} (h : s.shapeOk) {l : Loc} {b : Byte} : (s.poke l b).shapeOk := by
  fun_cases State.poke s l b
  · exact h
  · exact h
  · exact h.modCluster

theorem State.shapeOk.pokes {s : State} (h : s.shapeOk) {l : Loc} {bs : List Byte} : (s.pokes l bs).shapeOk := by
  induction bs generalizing s l with
  | nil => exact h
  | cons b bs ih => exact ih h.poke

theorem State.shapeOk.fail {s : State} (h : s.shapeOk) {n : Nat} {ls : List Loc} : (s.fail n ls).shapeOk := by
  induction ls generalizing s with
  | nil => exact h
  | cons l ls ih => exact (ih h).ite (ih h)

theorem State.shapeOk.pclean {s : State} (h : s.shapeOk) {die line : Nat} : (s.pclean die line).shapeOk := by
  fun_cases State.pclean s die line
  case case1 => exact h
  case case2 =>
    refine State.shapeOk.modDie (h.foldl fun t i ht => ?_)
    split
    · split
      · exact ht.poke
      · exact ht
    · exact ht

theorem State.shapeOk.pdrop {s : State} (h : s.shapeOk) {die line : Nat} : (s.pdrop die line).shapeOk := h.pclean.modDie

theorem State.shapeOk.roomPcie {s : State} (h : s.shapeOk) {die line : Nat} : (s.roomPcie die line).shapeOk := by
  fun_cases State.roomPcie s die line
  · exact h
  · exact h.pdrop

theorem State.shapeOk.pstore {s : State} (h : s.shapeOk) {die pa : Nat} {b : Byte} : (s.pstore die pa b).shapeOk := by
  fun_cases State.pstore s die pa b
  case case1 => exact State.shapeOk.modDie (by exact h)
  case case2 s1 _ =>
    have h1 : s1.shapeOk := h
    exact h1.roomPcie.modDie

theorem State.shapeOk.storeByte {s : State} (h : s.shapeOk) {core pa : Nat} {b : Byte} : (s.storeByte core pa b).shapeOk :=
  (h.pstore.ite h.poke).modCore

theorem State.shapeOk.storeBytes {s : State} (h : s.shapeOk) {core pa : Nat} {bs : List Byte} : (s.storeBytes core pa bs).shapeOk := by
  induction bs generalizing s pa with
  | nil => exact h
  | cons b bs ih => exact ih h.storeByte

theorem State.shapeOk.perform {s : State} (h : s.shapeOk) {core : Nat} {e : PStore} : (s.perform core e).shapeOk := by
  fun_cases State.perform s core e
  · exact h.storeBytes
  · exact h.pokes
  · exact h.pokes

theorem State.shapeOk.performStore {s : State} (h : s.shapeOk) {sid idx : Nat} : (s.performStore sid idx).shapeOk := by
  fun_cases State.performStore s sid idx
  · exact h
  · exact h
  · exact h
  · exact h.setSkein.perform

theorem State.shapeOk.performAll {s : State} (h : s.shapeOk) {core : Nat} {es : List (PStore × Bool)} {kept : List PStore} :
    (s.performAll core es kept).1.shapeOk := by
  fun_induction State.performAll s core es kept
  case case1 => exact h
  case case2 ih => exact ih h.perform
  case case3 ih => exact ih h

theorem State.shapeOk.drain {s : State} (h : s.shapeOk) {sid : Nat} {f : PStore → Bool} : (s.drain sid f).shapeOk := by
  fun_cases State.drain s sid f
  · exact h
  · exact h.performAll

theorem State.shapeOk.release {s : State} (h : s.shapeOk) {sid : Nat} {f : PStore → Bool} {bk : Bool} : (s.release sid f bk).shapeOk := by
  have t := h.drain (sid := sid) (f := f)
  fun_cases State.release s sid f bk
  · exact t
  · exact t
  · exact t

theorem State.shapeOk.acquire {s : State} (h : s.shapeOk) {sid scope : Nat} : (s.acquire sid scope).shapeOk := by
  fun_cases State.acquire s sid scope
  case case1 => exact h
  case case2 k hk s1 s2 =>
    have h1 : s1.shapeOk := State.shapeOk.ite (by exact h) h
    exact (h1.setSkein.ite h1).modCore

theorem State.shapeOk.receive {s : State} (h : s.shapeOk) {n : Nat} {r : Record} : (s.receive n r).shapeOk := h.modCluster
theorem State.shapeOk.freeParks {s : State} (h : s.shapeOk) {k : Skein} : (s.freeParks k).shapeOk := h.modCluster

theorem State.shapeOk.takeStop {s : State} (h : s.shapeOk) {k : Skein} {uid : Nat} {r : Record} {x : OSet} {q : Option Pend} :
    (s.takeStop k uid r x q).shapeOk := (h.freeParks.ite h).setSkein.release.receive

theorem State.shapeOk.resumeSkein {s : State} (h : s.shapeOk) {sid : Nat} : (s.resumeSkein sid).shapeOk := by
  fun_cases State.resumeSkein s sid
  · exact h
  · exact h
  · exact h.setSkein.acquire

end Sys2Proof.Machine
end

section
/-! SUPPORT. What translation, the checks of words and the issue of a word leave of the parts (R87, R183, R186). -/

namespace Sys2Proof.Machine

-- One proof after another: side by side, they hold more memory than the check of the whole text allows.
set_option Elab.async false

/-! ## The tables of a context (R194, R199) -/

theorem State.shapeOk.setPte {s : State} (h : s.shapeOk) {c : Context} {va lv e : Nat} :
    (s.setPte c va lv e).shapeOk := by
  fun_cases State.setPte s c va lv e
  · exact h
  · exact h
  · exact h

theorem State.shapeOk.mapEntry {s : State} (h : s.shapeOk) {n base : Nat} {r : Region} : (s.mapEntry n r base).shapeOk := by
  fun_cases State.mapEntry s n r base
  case case1 => exact h
  case case2 => exact h
  case case3 => exact h.setPte
  case case4 => exact h.setPte

theorem State.shapeOk.mapPiece {s : State} (h : s.shapeOk) {n va : Nat} : (s.mapPiece n va).shapeOk := by
  fun_cases State.mapPiece s n va
  · exact h
  · exact h.foldl fun _ _ ht => ht.mapEntry

theorem State.shapeOk.mapRange {s : State} (h : s.shapeOk) {ctx va n : Nat} : (s.mapRange ctx va n).shapeOk :=
  h.foldl fun _ _ ht => ht.mapPiece

theorem State.shapeOk.unmapRange {s : State} (h : s.shapeOk) {ctx va n : Nat} : (s.unmapRange ctx va n).shapeOk := by
  induction n generalizing s va with
  | zero => exact h
  | succ n ih =>
    refine ih ?_
    split
    · exact h
    · split
      · exact h.setPte
      · exact h

/-! ## Errors (R347, R348) -/

theorem State.shapeOk.countError {s : State} (h : s.shapeOk) {core pa level : Nat} : (s.countError core pa level).shapeOk := by
  fun_cases State.countError s core pa level
  case case1 => exact h.modCore
  case case2 => exact h.modDie
  case case3 => exact h.modDie
  case case4 => exact h.modCore
  case case5 => exact h.modCluster
  case case6 => exact h.modCore
  case case7 => exact h

theorem State.shapeOk.outsideError {s : State} (h : s.shapeOk) {l : Loc} : (s.outsideError l).shapeOk := h.countError

theorem State.shapeOk.dropAt {s : State} (h : s.shapeOk) {core level : Nat} {l : Loc} : (s.dropAt core level l).shapeOk := by
  fun_cases State.dropAt s core level l
  · exact h.modCore
  · exact h.pdrop
  · exact h

/-! ## The checks of a word (R87) -/

/-- The state that a word issues with has all its parts. -/
def Iss.shapeOk (i : Iss) : Prop := i.s.shapeOk

/-- The state that a cause carries has all its parts. -/
def Check.shapeOk : Check → Prop
  | .trap _ _ _ _ | .park _ _ _ _ | .stall _ => True
  | .send _ t | .dataError _ _ _ _ t => t.shapeOk

/-- What the checks of a word answer has a property, and the state that a cause carries has all its parts. -/
def ResShape {α : Type} (P : α → Prop) : Res α → Prop
  | .ok a => P a
  | .error c => c.shapeOk

/-- What a move answers has all its parts. -/
def KeepsShape (o : Host.Outcome State Fault Refusal) : Prop := ∀ t, o = .next t → t.shapeOk

theorem keepsShape_next {s : State} (h : s.shapeOk) : KeepsShape (.next s) := by
  intro t e
  cases e
  exact h

theorem ResShape.bind {α β : Type} {P : α → Prop} {Q : β → Prop} {x : Res α} {f : α → Res β} (hx : ResShape P x)
    (hf : ∀ a, P a → ResShape Q (f a)) : ResShape Q (x >>= f) := by
  cases x with
  | ok a => exact hf a hx
  | error c => exact hx

theorem ResShape.ite {α : Type} {P : α → Prop} {c : Prop} [Decidable c] {x y : Res α} (hx : ResShape P x) (hy : ResShape P y) :
    ResShape P (if c then x else y) := by
  split
  · exact hx
  · exact hy

/-- A trap carries no state. -/
theorem trap_shape {α : Type} {P : α → Prop} {i : Iss} {code : BitVec 16} {lfm : Mask} : ResShape P (i.trap code lfm) := trivial

theorem need_shape {i : Iss} {c : Bool} {code : BitVec 16} {lfm : Mask} : ResShape (fun _ => True) (i.need c code lfm) :=
  ResShape.ite trivial trivial

theorem aligned_shape {i : Iss} {n : Nat} {ea : Nat → Nat} : ResShape (fun _ => True) (i.aligned n ea) := ResShape.ite trivial trivial

theorem mapG_shape {i : Iss} {kind : Nat} {need : Need} {rs : List (Nat × Nat × Nat)} : ResShape (fun _ => True) (i.mapG kind need rs) :=
  ResShape.ite trivial (ResShape.ite trivial (ResShape.ite trivial trivial))

theorem mapSC_shape {i : Iss} {sp : Space} {rs : List (Nat × Nat × Nat)} : ResShape (fun _ => True) (i.mapSC sp rs) :=
  ResShape.ite trivial (ResShape.ite trivial trivial)

theorem map_shape {i : Iss} {sp : Space} {kind : Nat} {need : Need} {rs : List (Nat × Nat × Nat)} :
    ResShape (fun _ => True) (i.map sp kind need rs) := by
  cases sp with
  | g => exact mapG_shape
  | s => exact mapSC_shape
  | c => exact mapSC_shape

theorem origin_shape {i : Iss} {d : OSet} {as : List LaneAcc} : ResShape (fun _ => True) (i.origin d as) := need_shape

theorem hold_shape {i : Iss} {store : Bool} {as : List LaneAcc} : ResShape (fun _ => True) (i.hold store as) := ResShape.ite trivial trivial

theorem Iss.shapeOk.put {i : Iss} (h : i.shapeOk) {k : Skein} : (i.put k).shapeOk := State.shapeOk.setSkein h

theorem Iss.shapeOk.start {s : State} (h : s.shapeOk) {k : Skein} {p : Split} : (Iss.start s k p).shapeOk := h.setSkein

theorem Iss.shapeOk.intact {i : Iss} (h : i.shapeOk) {ops : List Opd} : ResShape Iss.shapeOk (i.intact ops) :=
  ResShape.ite h (State.shapeOk.countError h)

theorem Iss.shapeOk.readLanded {i : Iss} (h : i.shapeOk) {ops : List Opd} : (i.readLanded ops).shapeOk := h

theorem Iss.shapeOk.again {i : Iss} (h : i.shapeOk) {x : Kept} {ops : List Opd} : (i.again x ops).shapeOk := h

theorem Iss.shapeOk.operandsBut {i : Iss} (h : i.shapeOk) {look : Bool} {ops : List Opd} : ResShape Iss.shapeOk (i.operandsBut look ops) := by
  fun_cases Iss.operandsBut i look ops
  case case1 => exact h.again
  case case2 => exact trap_shape
  case case3 => exact trap_shape
  case case4 t _ _ _ =>
    have ht : t.shapeOk := h
    exact ht.intact
  case case5 => exact trap_shape
  case case6 => exact h.readLanded.intact

theorem Iss.shapeOk.operands {i : Iss} (h : i.shapeOk) {ops : List Opd} : ResShape Iss.shapeOk (i.operands ops) := h.operandsBut

theorem Iss.shapeOk.releaseIf {i : Iss} (h : i.shapeOk) {f : PStore → Bool} {bk : Bool} : ResShape Iss.shapeOk (i.releaseIf f bk) := by
  fun_cases Iss.releaseIf i f bk
  · exact h
  · exact State.shapeOk.release h
  · trivial

theorem Iss.shapeOk.release {i : Iss} (h : i.shapeOk) {bk : Bool} : ResShape Iss.shapeOk (i.release bk) := h.releaseIf

theorem Iss.shapeOk.flushIf {i : Iss} (h : i.shapeOk) {f : PStore → Bool} : ResShape Iss.shapeOk (i.flushIf f) := by
  fun_cases Iss.flushIf i f
  · exact h
  · exact State.shapeOk.drain h
  · trivial

theorem Iss.shapeOk.flush {i : Iss} (h : i.shapeOk) {ls : List Loc} : ResShape Iss.shapeOk (i.flush ls) := h.flushIf

theorem Iss.shapeOk.landReg {i : Iss} (h : i.shapeOk) {r : Nat} : (i.landReg r).shapeOk := h.put

theorem Iss.shapeOk.landOwn {i : Iss} (h : i.shapeOk) : i.landOwn.shapeOk := h.put

theorem Iss.shapeOk.crossWr {i : Iss} (h : i.shapeOk) {start n : Nat} {v : Nat → Nat} {set : OSet} : (i.crossWr start n v set).shapeOk :=
  State.shapeOk.ite h h.put

theorem Iss.shapeOk.consume {i : Iss} (h : i.shapeOk) : i.consume.shapeOk := h.put

theorem Iss.shapeOk.timely {i : Iss} (h : i.shapeOk) {lanes : Mask} : ResShape (fun _ => True) (i.timely lanes) :=
  ResShape.ite h.consume trivial

theorem State.shapeOk.fillPcie {s : State} (h : s.shapeOk) {die line : Nat} {b : Bool} {seen : List (List Byte)} :
    (s.fillPcie die line b seen).shapeOk := by
  unfold State.fillPcie
  extract_lets read host t
  have ht : t.shapeOk := by
    unfold t
    cases s.pline? die line with
    | none => exact h.roomPcie.modDie
    | some x => exact h.modDie
  exact ht

theorem Iss.shapeOk.pcieReady {i : Iss} (h : i.shapeOk) {as : List LaneAcc} : ResShape Iss.shapeOk (i.pcieReady as) := by
  unfold Iss.pcieReady
  refine h.timely.bind fun _ _ => ResShape.ite ?_ ?_
  · show Iss.shapeOk _
    split
    · exact h.consume
    · exact h
  · split
    · trivial
    · exact State.shapeOk.foldl h.consume fun _ _ ht => ht.fillPcie

theorem Iss.shapeOk.shed {i : Iss} {s : State} (h : s.shapeOk) : (i.shed s).shapeOk :=
  h.foldl fun _ _ ht => ht.pdrop.modCore

/-- An error that a demand access meets carries the state with the units failed and the error counted. -/
theorem Iss.shapeOk.sound {i : Iss} (h : i.shapeOk) {as : List LaneAcc} : ResShape (fun _ => True) (i.sound as) := by
  unfold Iss.sound
  simp only
  split
  · next ls level clean _ =>
    have hs : ((ls.map LaneAcc.first).foldl (fun t l => t.dropAt i.k.coreId level l) (i.put { i.k with flaw := none })).shapeOk :=
      State.shapeOk.foldl h.put fun _ _ ht => ht.dropAt
    split
    · exact hs.countError
    · exact hs.fail.countError
  · split
    · trivial
    · exact State.shapeOk.countError h

theorem State.shapeOk.fillL1 {s : State} (h : s.shapeOk) {core line : Nat} {bytes : List Byte} : (s.fillL1 core line bytes).shapeOk := h.modCore

theorem State.shapeOk.viewLine {s : State} (h : s.shapeOk) {core line : Nat} {b : Bool} : (s.viewLine core line b).2.shapeOk := by
  fun_cases State.viewLine s core line b
  case case1 => exact h
  case case2 => exact State.shapeOk.fillL1 (by exact h)
  case case3 => exact h
  case case4 => exact State.shapeOk.fillL1 (by exact h)
  case case5 => exact h.ite h.fillL1

theorem State.shapeOk.homeView {s : State} (h : s.shapeOk) {core line : Nat} {b : Bool} : (s.homeView core line b).2.shapeOk :=
  h.ite h.fillL1

theorem State.shapeOk.viewLines {s : State} (h : s.shapeOk) {core : Nat} {a b : Bool} {ls : List Nat} :
    (s.viewLines core a b ls).2.shapeOk := by
  induction ls generalizing s with
  | nil => exact h
  | cons n ls ih =>
    refine ih ?_
    split
    · exact h.homeView
    · exact h.viewLine

theorem Iss.shapeOk.read {i : Iss} (h : i.shapeOk) {pol : BitVec 32} {as : List LaneAcc} : (i.read pol as).i.shapeOk := by
  unfold Iss.read
  extract_lets locs lines older src r bits stores k n t
  have h1 : ({ i.s with free := i.s.free + 1 } : State).shapeOk := h
  have hr : r.2.shapeOk := h1.viewLines
  clear_value r
  exact hr

theorem Iss.shapeOk.load {i : Iss} (h : i.shapeOk) {pol : BitVec 32} {as : List LaneAcc} :
    ResShape (fun v : ReadView => v.i.shapeOk) (i.load pol as) :=
  hold_shape.bind fun _ _ => h.sound.bind fun _ _ => h.pcieReady.bind fun _ hj => Iss.shapeOk.shed hj.read

theorem Iss.shapeOk.policy {i : Iss} (h : i.shapeOk) {n : Nat} {store : Bool} :
    ResShape (fun x : BitVec 32 × Iss => x.2.shapeOk) (i.policy n store) := by
  fun_cases Iss.policy i n store
  · exact h
  · exact h
  · exact trap_shape
  · exact h

/-! ## Issuing (R72, R120, R137, R200) -/

theorem State.shapeOk.trapStop {s : State} (h : s.shapeOk) {k : Skein} {p : Split} {gpc word : Addr} {code : BitVec 16} {lfm : Mask}
    {addrs : List (Nat × Nat)} {set : OSet} : (s.trapStop k p gpc word code lfm addrs set).shapeOk := h.takeStop

theorem State.shapeOk.parkOn {s : State} (h : s.shapeOk) {k : Skein} {p : Split} {gpc word : Addr} {kind : Nat} {vas : List (Nat × Nat)}
    {bad : Bool} {redo : Option Redo} : (s.parkOn k p gpc word kind vas bad redo).shapeOk := by
  have h1 : ({ s with nextId := s.nextId + 1 } : State).shapeOk := h
  exact h1.setSkein.release.modCluster.receive

theorem State.shapeOk.stepStop {s : State} (h : s.shapeOk) {sid uid : Nat} {b : Bool} : (s.stepStop sid uid b).shapeOk := by
  fun_cases State.stepStop s sid uid b
  case case5 => exact h.takeStop
  all_goals exact h

theorem State.shapeOk.afterWord {s : State} (h : s.shapeOk) {sid uid : Nat} {b c : Bool} : (s.afterWord sid uid b c).shapeOk := by
  refine State.shapeOk.stepStop ?_
  split
  · exact h
  · exact h.setSkein

theorem State.shapeOk.stallOn {s : State} (h : s.shapeOk) {k : Skein} {p : Split} {on : StallOn} : (s.stallOn k p on).shapeOk := by
  fun_cases State.stallOn s k p on
  all_goals exact h

theorem State.shapeOk.meetFault {s : State} (h : s.shapeOk) {k : Skein} {p : Split} {gpc word : Addr} {kind : Nat} {vas : List (Nat × Nat)}
    {bad : Bool} {redo : Option Redo} : (s.meetFault k p gpc word kind vas bad redo).shapeOk :=
  h.stallOn.ite h.parkOn.stepStop

/-- A word keeps the parts when its own checks and effect do. -/
theorem issue_keepsShape {i : Instr} {s : State} {body : Iss → Res State} (h : s.shapeOk)
    (hb : ∀ x : Iss, x.shapeOk → ResShape State.shapeOk (body x)) : KeepsShape (issue i s body) := by
  intro t e
  cases hc : s.current with
  | none => rw [issue_none hc] at e; cases e
  | some c =>
    obtain ⟨k, p⟩ := c
    have hx := hb (Iss.start s k p) (Iss.shapeOk.start h)
    cases hf : groupFault i (p.hints.gpc.getD p.pc) p.pc p.hints with
    | some w => rw [issue_illegal hc hf] at e; cases e; exact h.trapStop
    | none =>
      cases hr : body (Iss.start s k p) with
      | ok a => rw [issue_ok hc hf hr] at e; cases e; rw [hr] at hx; exact State.shapeOk.afterWord hx
      | error c =>
        rw [hr] at hx
        cases c with
        | trap code lfm addrs set => rw [issue_trap hc hf hr] at e; cases e; exact h.trapStop
        | park kind vas bad kept => rw [issue_park hc hf hr] at e; cases e; exact h.meetFault
        | stall on => rw [issue_stall hc hf hr] at e; cases e; exact h.stallOn
        | send lanes t => rw [issue_send hc hf hr] at e; cases e; exact State.shapeOk.stallOn hx
        | dataError code lfm addrs set t => rw [issue_dataError hc hf hr] at e; cases e; exact State.shapeOk.trapStop hx

/-! ## The issue of a split, fetches and command faults (R138, R275) -/

theorem State.shapeOk.wake {s : State} (h : s.shapeOk) : s.wake.shapeOk := h

theorem State.shapeOk.startIssue {s : State} (h : s.shapeOk) {c : Cand} : (s.startIssue c).shapeOk := h

theorem State.shapeOk.deliverFault {s t : State} (h : s.shapeOk) {k : Skein} (e : s.deliverFault k = some t) : t.shapeOk := by
  unfold State.deliverFault at e
  split at e
  · split at e
    · cases e
    · cases e; exact h.takeStop
  · cases e

theorem State.shapeOk.faultsDue {s t : State} (h : s.shapeOk) (e : s.faultsDue = some t) : t.shapeOk := by
  have key : ∀ (ks : List Skein) (a : Option State), (∀ u, a = some u → u.shapeOk) →
      ∀ u, ks.foldl (fun a k => match a with | some t => some t | none => s.deliverFault k) a = some u → u.shapeOk := by
    intro ks
    induction ks with
    | nil => exact fun a ha => ha
    | cons k ks ih =>
      intro a ha
      refine ih _ ?_
      cases a with
      | none => exact fun u hu => h.deliverFault hu
      | some t => exact ha
  exact key s.skeins none (fun _ hu => by cases hu) t e

end Sys2Proof.Machine
end

section
/-! SUPPORT. Words of lanes, lane exchange, barriers, memory and the caches keep the parts. -/

namespace Sys2Proof.Machine

-- One proof after another: side by side, they hold more memory than the check of the whole text allows.
set_option Elab.async false

/-! ## Lane instructions and lane exchange (R88, R158 to R167) -/

theorem laneOp_keepsShape {i : Instr} {ws : Hints → Widths} {d a b : Nat} {useD useB : Bool} {s : State}
    {c : Hints → Widths → Nat → Nat → Nat → Nat} (h : s.shapeOk) : KeepsShape (laneOp i ws d a b useD useB s c) :=
  issue_keepsShape h fun _ hx => hx.operands.bind fun _ hy => hy.put

theorem execMovi_keepsShape {w : Width} {d : BitVec 8} {imm : BitVec 7} {s : State} (h : s.shapeOk) : KeepsShape (execMovi w d imm s) :=
  issue_keepsShape h fun _ hx => hx.operands.bind fun _ hy => hy.put

theorem execBallot_keepsShape {d a : BitVec 8} {s : State} (h : s.shapeOk) : KeepsShape (execBallot d a s) :=
  issue_keepsShape h fun _ hx => hx.operands.bind fun _ hy => hy.crossWr

theorem execEqmask_keepsShape {w : Width} {d a : BitVec 8} {s : State} (h : s.shapeOk) : KeepsShape (execEqmask w d a s) :=
  issue_keepsShape h fun _ hx => hx.operands.bind fun _ hy => hy.crossWr

theorem reduce_keepsShape {x : Instr} {w : Width} {d a : BitVec 8} {s : State} {test : Mask → Mask → Bool} (h : s.shapeOk) :
    KeepsShape (reduce x w d a s test) :=
  issue_keepsShape h fun _ hx => hx.operands.bind fun _ hy => hy.crossWr

theorem execAny_keepsShape {w : Width} {d a : BitVec 8} {s : State} (h : s.shapeOk) : KeepsShape (execAny w d a s) := reduce_keepsShape h

theorem execAll_keepsShape {w : Width} {d a : BitVec 8} {s : State} (h : s.shapeOk) : KeepsShape (execAll w d a s) := reduce_keepsShape h

theorem execShfl_keepsShape {w : Width} {d a : BitVec 8} {b : BitVec 7} {s : State} (h : s.shapeOk) : KeepsShape (execShfl w d a b s) :=
  issue_keepsShape h fun _ hx => hx.operands.bind fun _ hy => hy.operands.bind fun _ hz => hz.crossWr

theorem execRds_keepsShape {w : Width} {d n : BitVec 8} {s : State} (h : s.shapeOk) : KeepsShape (execRds w d n s) :=
  issue_keepsShape h fun _ hx => hx.operands.bind fun _ hy => hy.crossWr

theorem execWrsEm_keepsShape {a : BitVec 8} {s : State} (h : s.shapeOk) : KeepsShape (execWrsEm a s) :=
  issue_keepsShape h fun _ hx => hx.operands.bind fun _ hy => State.shapeOk.ite hy hy.put

theorem execWrsSw_keepsShape {a : BitVec 8} {s : State} (h : s.shapeOk) : KeepsShape (execWrsSw a s) :=
  issue_keepsShape h fun _ hx => hx.operands.bind fun _ hy => State.shapeOk.ite hy hy.put

theorem execRdcyc_keepsShape {d : BitVec 8} {s : State} (h : s.shapeOk) : KeepsShape (execRdcyc d s) :=
  issue_keepsShape h fun _ hx => hx.operands.bind fun _ hy => hy.crossWr

theorem execKrd_keepsShape {d k : BitVec 8} {s : State} (h : s.shapeOk) : KeepsShape (execKrd d k s) := by
  refine issue_keepsShape h fun _ hx => hx.operands.bind fun _ hy => ?_
  extract_lets b r x t
  have ht : t.shapeOk := hy.crossWr
  clear_value t
  exact ht.ite ht

theorem execKwr_keepsShape {k a : BitVec 8} {s : State} (h : s.shapeOk) : KeepsShape (execKwr k a s) :=
  issue_keepsShape h fun _ hx => hx.operands.bind fun _ hy => ResShape.ite hy <| need_shape.bind fun _ _ =>
    hy

theorem execLblr_keepsShape {d a : BitVec 8} {s : State} (h : s.shapeOk) : KeepsShape (execLblr d a s) :=
  issue_keepsShape h fun _ hx => hx.landReg.operandsBut.bind fun _ hy => hy.put

theorem execLblq_keepsShape {d a : BitVec 8} {s : State} (h : s.shapeOk) : KeepsShape (execLblq d a s) :=
  issue_keepsShape h fun _ hx => hx.operands.bind fun _ hy => hy.put

/-! ## Block barriers (R168 to R172) -/

theorem State.shapeOk.wakeBar {s : State} (h : s.shapeOk) {n : Nat} {done : Bool} {phase : BitVec 16} {sid : Nat} :
    (s.wakeBar n done phase sid).shapeOk := by
  fun_cases State.wakeBar s n done phase sid
  · exact h
  · exact h.setSkein.acquire
  · exact h

theorem State.shapeOk.putBar {s : State} (h : s.shapeOk) {b : Block} {n : Nat} {x : Bar × Bool} :
    (s.putBar b n x).shapeOk :=
  (h.setBlock.foldl fun _ _ ht => ht.wakeBar).ite h.setBlock

theorem State.shapeOk.arrive {s : State} (h : s.shapeOk) {k : Skein} {n : Nat} {lanes : Mask} {drop : Bool} :
    (s.arrive k n lanes drop).shapeOk := h.putBar

theorem State.shapeOk.exitBar {s : State} (h : s.shapeOk) {k : Skein} {n : Nat} : (s.exitBar k n).shapeOk :=
  h.ite <| (h.putBar |>.ite (h.putBar)).ite <| (h.putBar).ite h

theorem State.shapeOk.exitBars {s : State} (h : s.shapeOk) {k : Skein} : (s.exitBars k).shapeOk := h.foldl fun _ _ ht => ht.exitBar

theorem Iss.shapeOk.arrive {i : Iss} (h : i.shapeOk) {n : Nat} {drop : Bool} : ResShape State.shapeOk (i.arrive n drop) :=
  need_shape.bind fun _ _ => h.release.bind fun _ hj => State.shapeOk.arrive hj

theorem execBar_keepsShape {b : BitVec 4} {s : State} (h : s.shapeOk) : KeepsShape (execBar b s) :=
  issue_keepsShape h fun _ hx => Iss.shapeOk.arrive (by exact hx.put)

theorem execBararr_keepsShape {b la : BitVec 4} {y : BitVec 8} {s : State} (h : s.shapeOk) : KeepsShape (execBararr b y la s) :=
  issue_keepsShape h fun _ hx => hx.operands.bind fun _ hy => Iss.shapeOk.arrive (by exact State.shapeOk.setSkein hy)

theorem execBarwait_keepsShape {b : BitVec 4} {y : BitVec 8} {s : State} (h : s.shapeOk) : KeepsShape (execBarwait b y s) :=
  issue_keepsShape h fun _ hx => hx.operands.bind fun _ hy => ResShape.ite hy.put <| ResShape.ite hy (State.shapeOk.acquire hy)

theorem execBardrop_keepsShape {b : BitVec 4} {s : State} (h : s.shapeOk) : KeepsShape (execBardrop b s) :=
  issue_keepsShape h fun _ hx => hx.arrive

/-! ## Loads and stores (R118 to R120) -/

theorem loadOp_keepsShape {x : Instr} {sp : Space} {w : Width} {d : BitVec 8} {n : BitVec 5} {pol : Nat} {la : BitVec 4} {s : State}
    (h : s.shapeOk) : KeepsShape (loadOp x sp w d n pol la s) :=
  issue_keepsShape h fun _ hx => hx.operands.bind fun _ hy => hy.policy.bind fun _ hz => aligned_shape.bind fun _ _ =>
    map_shape.bind fun _ _ => hz.load.bind fun _ hv => Iss.shapeOk.put hv

theorem storeOp_keepsShape {x : Instr} {sp : Space} {w : Width} {d : BitVec 8} {n : BitVec 5} {pol : Nat} {s : State} (h : s.shapeOk) :
    KeepsShape (storeOp x sp w d n pol s) :=
  issue_keepsShape h fun _ hx => hx.operands.bind fun _ hy => hy.policy.bind fun _ hz => aligned_shape.bind fun _ _ =>
    map_shape.bind fun _ _ => origin_shape.bind fun _ _ => hold_shape.bind fun _ _ => hz.put

/-! ## Fences, maintenance, run-ahead fetches and streams (R193, R204, R212 to R219) -/

theorem execFence_keepsShape {ord : BitVec 2} {sc : BitVec 3} {s : State} (h : s.shapeOk) : KeepsShape (execFence ord sc s) := by
  have last (z : Iss) (hz : z.shapeOk) : ResShape State.shapeOk (.ok (if ord.getLsbD 0 then z.s.acquire z.k.id sc.toNat else z.s)) :=
    State.shapeOk.ite (State.shapeOk.acquire hz) hz
  refine issue_keepsShape h fun x hx => hx.landOwn.release.bind fun y hy => ResShape.ite (hy.timely.bind fun _ _ => ?_) (last y hy)
  split
  · trivial
  · exact last _ (State.shapeOk.setSkein hy.consume)

theorem Iss.shapeOk.rangeOperands {i : Iss} (h : i.shapeOk) {x y : BitVec 8} : ResShape Iss.shapeOk (i.rangeOperands x y) :=
  h.operands.bind fun _ hj => need_shape.bind fun _ _ => hj

theorem State.shapeOk.maintain {s : State} (h : s.shapeOk) {core line type : Nat} {inval : Bool} : (s.maintain core line type inval).shapeOk :=
  State.shapeOk.ite (State.shapeOk.ite (h.pdrop.withCores List.length_mapIdx) h.pclean) (h.modCore.ite h)

theorem maintainOp_keepsShape {z : Instr} {x y : BitVec 8} {inval : Bool} {s : State} (h : s.shapeOk) : KeepsShape (maintainOp z x y inval s) :=
  issue_keepsShape h fun _ hx => hx.rangeOperands.bind fun _ hy => mapG_shape.bind fun _ _ => hy.flushIf.bind fun _ hz =>
    State.shapeOk.foldl hz.put fun _ _ ht => ht.maintain

theorem execIcinv_keepsShape {x y : BitVec 8} {s : State} (h : s.shapeOk) : KeepsShape (execIcinv x y s) :=
  issue_keepsShape h fun _ hx => hx.rangeOperands.bind fun _ hy => mapG_shape.bind fun _ _ => State.shapeOk.modCore hy

theorem execIbar_keepsShape {s : State} (h : s.shapeOk) : KeepsShape (execIbar s) := issue_keepsShape h fun _ hx => State.shapeOk.modCore hx

theorem State.shapeOk.dropAhead {s : State} (h : s.shapeOk) {core : Nat} : (s.dropAhead core).shapeOk := h.modCore
theorem State.shapeOk.fetchInto {s : State} (h : s.shapeOk) {core line : Nat} {code : Bool} : (s.fetchInto core line code).shapeOk := h.modCore
theorem State.shapeOk.countAhead {s : State} (h : s.shapeOk) {core line : Nat} : (s.countAhead core line).shapeOk := h.countError

theorem State.shapeOk.fetchLines {s : State} (h : s.shapeOk) {c : Context} {core : Nat} {need : Need} {done vas : List Nat} :
    (s.fetchLines c core need done vas).1.shapeOk := by
  fun_induction State.fetchLines s c core need done vas
  case case1 => exact h
  case case2 => exact h.dropAhead.ite h
  case case3 ih => exact ih (h.dropAhead.ite h)
  case case4 ih => exact ih (h.ite (h.countAhead.ite h.fetchInto))

theorem State.shapeOk.fetchRanges {s : State} (h : s.shapeOk) {c : Context} {core : Nat} {need : Need} {done : List Nat}
    {rs : List (Nat × Nat)} : (s.fetchRanges c core need done rs).shapeOk := by
  induction rs generalizing s done with
  | nil => exact h
  | cons r rs ih => exact ih h.fetchLines

theorem prefetch_keepsShape {z : Instr} {x y : BitVec 8} {need : Need} {s : State} (h : s.shapeOk) : KeepsShape (prefetch z x y need s) :=
  issue_keepsShape h fun _ hx => hx.rangeOperands.bind fun _ hy => State.shapeOk.fetchRanges hy

theorem execStream_keepsShape {x y : BitVec 8} {la : BitVec 4} {s : State} (h : s.shapeOk) : KeepsShape (execStream x y la s) := by
  refine issue_keepsShape h fun _ hx => hx.operands.bind fun _ hy => ResShape.ite hy <| need_shape.bind fun _ _ => hy.policy.bind fun q hq => ?_
  dsimp only
  split
  · exact Iss.shapeOk.put hq
  · exact Iss.shapeOk.put hq

theorem execStreamx_keepsShape {y : BitVec 8} {s : State} (h : s.shapeOk) : KeepsShape (execStreamx y s) :=
  issue_keepsShape h fun _ hx => hx.operands.bind fun _ hy => ResShape.ite hy <| need_shape.bind fun _ _ => hy.put

end Sys2Proof.Machine
end

section
/-! SUPPORT. Control words, baskets, grids, spawns and launches keep the parts. -/

namespace Sys2Proof.Machine

-- One proof after another: side by side, they hold more memory than the check of the whole text allows.
set_option Elab.async false

/-! ## Control transfers and divergence (R112 to R117, R130 to R136, R154 to R157) -/

theorem execBra_keepsShape {d : BitVec 18} {s : State} (h : s.shapeOk) : KeepsShape (execBra d s) := issue_keepsShape h fun _ hx => hx.put

theorem branch_keepsShape {x : Instr} {p : BitVec 8} {d : BitVec 18} {sense : Bool} {s : State} (h : s.shapeOk) :
    KeepsShape (branch x p d sense s) :=
  issue_keepsShape h fun _ hx => hx.operands.bind fun _ hy => need_shape.bind fun _ _ => hy.put

theorem execCall_keepsShape {d : BitVec 8} {disp : BitVec 18} {s : State} (h : s.shapeOk) : KeepsShape (execCall d disp s) :=
  issue_keepsShape h fun _ hx => hx.operands.bind fun _ hy => hy.put

theorem target_shape {i : Iss} {a : Nat} : ResShape (fun _ => True) (i.target a) := by
  fun_cases Iss.target i a <;> trivial

theorem transfer_keepsShape {x : Instr} {d : Option Nat} {a : BitVec 8} {s : State} (h : s.shapeOk) : KeepsShape (transfer x d a s) := by
  refine issue_keepsShape h fun _ hx => hx.operands.bind fun _ hy => target_shape.bind fun t _ => ?_
  cases t with
  | none => exact hy.put
  | some t => exact hy.put

theorem execNop_keepsShape {s : State} (h : s.shapeOk) : KeepsShape (execNop s) := issue_keepsShape h fun _ hx => hx

theorem execSplit_keepsShape {p : BitVec 8} {d : BitVec 18} {s : State} (h : s.shapeOk) : KeepsShape (execSplit p d s) :=
  issue_keepsShape h fun _ hx => hx.operands.bind fun _ hy => need_shape.bind fun _ _ => hy.put

theorem execJoin_keepsShape {s : State} (h : s.shapeOk) : KeepsShape (execJoin s) := by
  refine issue_keepsShape h fun x hx => ?_
  split
  · exact trap_shape
  · exact ResShape.ite hx.put hx.put

theorem execExit_keepsShape {s : State} (h : s.shapeOk) : KeepsShape (execExit s) := by
  have last (x : Iss) (hx : x.shapeOk) : ResShape State.shapeOk
      (.ok ((x.put (x.k.exit x.p x.s.issueTicks)).exitBars (x.k.exit x.p x.s.issueTicks))) := State.shapeOk.exitBars hx.put
  exact issue_keepsShape h fun x hx => ResShape.ite (hx.releaseIf.bind last) (last x hx)

theorem execYieldI_keepsShape {s : State} (h : s.shapeOk) : KeepsShape (execYieldI s) := issue_keepsShape h fun _ hx => hx.put

/-! ## Baskets (R293 to R297, R318 to R323) -/

theorem State.shapeOk.modBasket {s : State} (h : s.shapeOk) {cl slot : Nat} {f : Basket → Basket} : (s.modBasket cl slot f).shapeOk :=
  h.modCluster

theorem State.shapeOk.popEnds {s : State} (h : s.shapeOk) {sid uid code : Nat} {e : Option (Nat × OSet)} :
    (s.popEnds sid uid code e).shapeOk := by
  unfold State.popEnds
  split
  · exact h
  · split
    · exact h
    · split
      · exact h.setSkein.acquire.ite h.setSkein
      · exact h

theorem State.shapeOk.settleBasket {s : State} (h : s.shapeOk) {cl slot : Nat} : (s.settleBasket cl slot).shapeOk := by
  have ht : (s.modBasket cl slot fun b => { b with st := .free, ring := [] }).shapeOk := h.modBasket
  refine h.ite ?_
  split
  · exact ht
  · next hx =>
    split at hx
    · exact ht.setBlock
    · cases hx

theorem State.shapeOk.retireBasket {s : State} (h : s.shapeOk) {cl slot : Nat} : (s.retireBasket cl slot).shapeOk := by
  have ht : (s.modBasket cl slot fun b => { b with st := .retiring, ring := [] }).shapeOk := h.modBasket
  refine h.ite (State.shapeOk.settleBasket (State.shapeOk.foldl ?_ fun _ _ hu => hu.popEnds))
  exact ht.withClusters (List.length_map _)

theorem State.shapeOk.retireBaskets {s : State} (h : s.shapeOk) {f : Basket → Bool} : (s.retireBaskets f).shapeOk :=
  h.foldl fun _ _ ht => ht.foldl fun _ _ hu => hu.retireBasket.ite hu

theorem State.shapeOk.recheckPop {s : State} (h : s.shapeOk) {sid uid : Nat} : (s.recheckPop sid uid).shapeOk := by
  fun_cases State.recheckPop s sid uid
  case case2 => exact h.popEnds.settleBasket
  case case4 => exact h.modBasket.popEnds
  all_goals exact h

theorem State.shapeOk.recheckPops {s : State} (h : s.shapeOk) {sid : Nat} : (s.recheckPops sid).shapeOk :=
  h.foldl fun _ _ ht => ht.recheckPop

theorem Iss.shapeOk.basketChecked {i : Iss} (h : i.shapeOk) {v x : Nat} {read : Bool} :
    ResShape (fun r : Iss × Basket => r.1.shapeOk) (i.basketChecked v x read) :=
  need_shape.bind fun _ _ => h.operands.bind fun _ hj => hj

theorem State.shapeOk.pushEntry {s : State} (h : s.shapeOk) {cl slot : Nat} {e : Nat × OSet} : (s.pushEntry cl slot e).shapeOk := by
  fun_cases State.pushEntry s cl slot e
  · exact h.popEnds
  · exact h.modBasket

theorem Iss.shapeOk.popNow {i : Iss} (h : i.shapeOk) {la v x y : Nat} {b : Basket} {e : Nat × OSet} : (i.popNow la v x y b e).shapeOk :=
  State.shapeOk.acquire (State.shapeOk.modBasket h.put)

theorem execQpush_keepsShape {x y : BitVec 8} {la : BitVec 4} {s : State} (h : s.shapeOk) : KeepsShape (execQpush x y la s) :=
  issue_keepsShape h fun _ hx => hx.operands.bind fun _ hy => ResShape.ite hy <| hy.basketChecked.bind fun _ hz => need_shape.bind fun _ _ =>
    ResShape.ite (State.shapeOk.settleBasket (Iss.shapeOk.put hz)) <| ResShape.ite trivial <|
      Iss.shapeOk.release hz |>.bind fun _ hw => State.shapeOk.pushEntry hw.put

theorem execQpop_keepsShape {x y : BitVec 8} {la : BitVec 4} {s : State} (h : s.shapeOk) : KeepsShape (execQpop x y la s) := by
  refine issue_keepsShape h fun _ hx => hx.operands.bind fun _ hy => ResShape.ite hy <| hy.basketChecked.bind fun q hz => ?_
  refine ResShape.ite (Iss.shapeOk.put hz) ?_
  split
  · exact Iss.shapeOk.popNow hz
  · exact Iss.shapeOk.put hz

theorem execQtry_keepsShape {x y : BitVec 8} {la : BitVec 4} {s : State} (h : s.shapeOk) : KeepsShape (execQtry x y la s) := by
  refine issue_keepsShape h fun _ hx => hx.operands.bind fun _ hy => ResShape.ite hy <| ResShape.ite hy.put <| ResShape.ite hy.put <|
    hy.basketChecked.bind fun q hz => ?_
  refine ResShape.ite (Iss.shapeOk.put hz) ?_
  split
  · exact Iss.shapeOk.popNow hz
  · exact Iss.shapeOk.put hz

/-! ## Grids and the ending of a context (R146 to R149, R328, R340, R350, R393) -/

theorem State.shapeOk.refreshFlags {s : State} (h : s.shapeOk) : s.refreshFlags.shapeOk := h

theorem State.shapeOk.answerMgmt {s : State} (h : s.shapeOk) {t : Ticket} {st : BitVec 16} {r : List Byte} {n : Nat} :
    (s.answerMgmt t st r n).shapeOk := by
  fun_cases State.answerMgmt s t st r n
  all_goals exact h

theorem State.shapeOk.respond {s : State} (h : s.shapeOk) {vf chain r : Nat} {st : BitVec 16} : (s.respond vf chain st r).shapeOk := by
  fun_cases State.respond s vf chain st r
  all_goals exact h

theorem State.shapeOk.logFault {s : State} (h : s.shapeOk) {g : Grid} {c : BitVec 16} {cl : Nat} : (s.logFault g c cl).shapeOk := h

theorem State.shapeOk.finishDrain {s : State} (h : s.shapeOk) : s.finishDrain.shapeOk := by
  have h1 : ({ s with serving := s.serving.filter fun x => !s.quiesced x.2 } : State).shapeOk := h
  exact h1.foldl fun _ _ ht => ht.answerMgmt

theorem State.shapeOk.settleRun {s : State} (h : s.shapeOk) {part : Nat} : (s.settleRun part).shapeOk :=
  State.shapeOk.refreshFlags (State.shapeOk.finishDrain (by exact h.modPart))

theorem State.shapeOk.completeGrid {s : State} (h : s.shapeOk) {g : Grid} {code : BitVec 16} {cl : Nat} : (s.completeGrid g code cl).shapeOk := by
  have h1 : ({ s with grids := s.grids.filter (·.id != g.id) } : State).shapeOk := h
  unfold State.completeGrid
  split
  · exact (h1.respond.ite h1.respond.logFault).settleRun
  · exact (h1.ite h1.logFault).settleRun
  · exact (h1.ite h1.logFault).settleRun
  · exact (h1.ite h1.logFault).settleRun

theorem State.shapeOk.quarantine {s : State} (h : s.shapeOk) {f : Nvme → Bool} : (s.quarantine f).shapeOk := h
theorem State.shapeOk.soundRegions {s : State} (h : s.shapeOk) {rs : List Region} : (s.soundRegions rs).shapeOk := h

theorem State.shapeOk.finishEnd {s : State} (h : s.shapeOk) {id : Nat} : (s.finishEnd id).shapeOk := by
  fun_cases State.finishEnd s id
  case case1 => exact h
  case case2 c hc code cl gs hold drop s1 s2 late s3 s4 t1 t2 =>
    have h1 : s1.shapeOk := h
    have h2 : s2.shapeOk := h1.foldl fun _ _ ht => ht.drain
    have h3 : s3.shapeOk := h2
    have h4 : s4.shapeOk := h3.ite h3.soundRegions
    have ht1 : t1.shapeOk := by
      refine State.shapeOk.withClusters (s := _) h4 ?_
      exact List.length_map _
    have ht2 : t2.shapeOk := (ht1.setCtx).quarantine
    exact (ht2.retireBaskets.foldl fun _ _ ht => ht.completeGrid).refreshFlags

theorem State.shapeOk.endContext {s : State} (h : s.shapeOk) {id : Nat} {code : BitVec 16} : (s.endContext id code).shapeOk := by
  fun_cases State.endContext s id code
  case case1 => exact h
  case case2 => exact h
  case case3 c hc _ _ _ _ => exact h.setCtx
  case case4 => exact h
  case case5 c hc _ _ _ _ => exact State.shapeOk.finishEnd h.setCtx
  case case6 c hc _ _ _ _ => exact h.setCtx

theorem State.shapeOk.endByRecord {s : State} (h : s.shapeOk) {id : Nat} {code : BitVec 16} : (s.endByRecord id code).shapeOk := by
  fun_cases State.endByRecord s id code
  · exact h
  · exact h.modCluster
  · exact h.endContext

theorem State.shapeOk.orWord {s : State} (h : s.shapeOk) {pa bits : Nat} : (s.orWord pa bits).shapeOk := h.pokes

theorem State.shapeOk.dispatchOr {s : State} (h : s.shapeOk) {ctx va bits tenant : Nat} : (s.dispatchOr ctx va bits tenant).1.shapeOk := by
  fun_cases State.dispatchOr s ctx va bits tenant
  · exact h
  · exact h.endContext
  · exact h
  · exact h.outsideError.endContext
  · exact h.orWord

theorem State.shapeOk.accept {s : State} (h : s.shapeOk) {g : Grid} : (s.accept g).2.shapeOk := h.modPart

theorem State.shapeOk.spawnGrid {s : State} (h : s.shapeOk) {g : Grid} : (s.spawnGrid g).2.shapeOk := by
  fun_cases State.spawnGrid s g
  · exact h
  · exact h.accept

theorem State.shapeOk.launchBin {s : State} (h : s.shapeOk) {cl : Nat} {b : Bin} : (s.launchBin cl b).shapeOk := by
  fun_cases State.launchBin s cl b
  · exact h
  · exact h.spawnGrid.setGrid.modCluster

theorem State.shapeOk.launchBins {s : State} (h : s.shapeOk) {gid : Nat} : (s.launchBins gid).shapeOk :=
  h.foldl fun _ _ ht => ht.foldl fun _ _ hu => hu.launchBin

theorem State.shapeOk.completeSpawn {s : State} (h : s.shapeOk) {o : Option Grid} : (o.elim s fun x => s.completeGrid x 0 0).shapeOk := by
  cases o with
  | none => exact h
  | some x => exact h.completeGrid

theorem State.shapeOk.retireGrid {s : State} (h : s.shapeOk) {id : Nat} : (s.retireGrid id).shapeOk := by
  unfold State.retireGrid
  split
  · exact h
  · refine h.ite ?_
    split
    · exact h
    · exact h.completeSpawn.completeGrid
    · exact h.completeSpawn.completeGrid
    · next g _ _ _ _ w _ _ =>
      have hr : (if w = 0 then (s, true) else s.dispatchOr g.ctx w 1 g.tenant).1.shapeOk := by
        split
        · exact h
        · exact h.dispatchOr
      exact hr.completeSpawn.completeGrid.ite hr

theorem State.shapeOk.freeBlock {s : State} (h : s.shapeOk) {b : Block} : (s.freeBlock b).shapeOk := by
  unfold State.freeBlock
  refine State.shapeOk.retireBaskets ?_
  exact h

theorem State.shapeOk.retireBlock {s : State} (h : s.shapeOk) {b : Block} {g : Grid} : (s.retireBlock b g).shapeOk := by
  have hd : ((s.skeinsOf b).foldl (fun t k => t.release k.id (fun _ => true) true) s).shapeOk := h.foldl fun _ _ ht => ht.release
  unfold State.retireBlock
  refine hd.ite ?_
  extract_lets spawned r t g1 u v w
  have hr : r.1.shapeOk := by
    unfold r
    split
    · exact hd
    · exact hd.dispatchOr
  have hv : v.shapeOk := State.shapeOk.ite hr.freeBlock.setGrid.launchBins hr.freeBlock.setGrid
  have hw : w.shapeOk := by
    unfold w
    split
    all_goals exact hv.retireGrid
  exact hr.ite hw

theorem execBlockRetire_keepsShape {g b : Nat} {s : State} (h : s.shapeOk) : KeepsShape (execBlockRetire g b s) := by
  refine keepsShape_next ?_
  split
  · exact h.retireBlock.ite h
  · exact h.retireGrid
  · exact h

theorem State.shapeOk.cutGrids {s : State} (h : s.shapeOk) {part : Nat} : (s.cutGrids part).shapeOk :=
  State.shapeOk.ite (h.foldl fun _ _ ht => ht.completeGrid) h

/-! ## Spawns, launches and bit waits (R147, R173 to R177) -/

theorem State.shapeOk.placeThread {s : State} (h : s.shapeOk) {cl : Nat} {g : Grid} {giver : Nat × Nat} {entry arg : Nat} {v c : OSet} :
    (s.placeThread cl g giver entry arg v c).1.shapeOk := by
  fun_cases State.placeThread s cl g giver entry arg v c
  case case1 => exact h
  case case2 t =>
    have ht : t.shapeOk := h.modCluster
    exact ht.launchBin.ite ht
  case case3 => exact h
  case case4 => exact h.modCluster

theorem State.shapeOk.placeThreads {s : State} (h : s.shapeOk) {cl : Nat} {g : Grid} {giver : Nat × Nat} {v c : OSet}
    {ts : List (Nat × Nat × Nat)} : (s.placeThreads cl g giver v c ts).1.shapeOk := by
  induction ts generalizing s with
  | nil => exact h
  | cons x ts ih => exact ih h.placeThread

theorem execSpawn_keepsShape {x y : BitVec 8} {la : BitVec 4} {s : State} (h : s.shapeOk) : KeepsShape (execSpawn x y la s) :=
  issue_keepsShape h fun _ hx => hx.operands.bind fun _ hy => ResShape.ite hy <| need_shape.bind fun _ _ => hy.release.bind fun _ hz =>
    (State.shapeOk.placeThreads hz).setSkein

theorem State.shapeOk.launchLane {s : State} (h : s.shapeOk) {k : Skein} {entry w : Nat} {d : List Byte} {set : OSet} :
    (s.launchLane k entry d w set).1.shapeOk := by
  fun_cases State.launchLane s k entry d w set
  case case5 => exact h.accept
  all_goals exact h

theorem State.shapeOk.launchLanes {s : State} (h : s.shapeOk) {k : Skein} {entry : Nat} {set : OSet} {ls : List (Nat × List Byte × Nat)} :
    (s.launchLanes k entry set ls).1.shapeOk := by
  induction ls generalizing s with
  | nil => exact h
  | cons x ls ih => exact ih h.launchLane

theorem execLaunch_keepsShape {x : BitVec 8} {d : BitVec 18} {s : State} (h : s.shapeOk) : KeepsShape (execLaunch x d s) :=
  issue_keepsShape h fun _ hx => hx.operands.bind fun _ hy => need_shape.bind fun _ _ => need_shape.bind fun _ _ => ResShape.ite hy <|
    need_shape.bind fun _ _ => mapG_shape.bind fun _ _ => hy.load.bind fun _ hv => (Iss.shapeOk.release hv).bind fun _ hz =>
      (State.shapeOk.launchLanes hz).setSkein

theorem State.shapeOk.bitEnds {s : State} (h : s.shapeOk) {k : Skein} {uid : Nat} {set : OSet} : (s.bitEnds k uid set).shapeOk :=
  h.setSkein.acquire

theorem State.shapeOk.bitRead {s : State} (h : s.shapeOk) {k : Skein} {uid : Nat} {redo : Redo} {bits : List (Nat × Nat × Nat)}
    {pages : List (Loc × OSet)} : (s.bitRead k uid redo bits pages).shapeOk := h.bitEnds.ite h.setSkein

theorem State.shapeOk.bitPoll {s : State} (h : s.shapeOk) {k : Skein} {uid : Nat} {redo : Redo} {bits : List (Nat × Nat × Nat)} :
    (s.bitPoll k uid redo bits).shapeOk := by
  fun_cases State.bitPoll s k uid redo bits
  · exact h.setSkein
  · exact h.bitRead

theorem execBitwait_keepsShape {x y : BitVec 8} {s : State} (h : s.shapeOk) : KeepsShape (execBitwait x y s) :=
  issue_keepsShape h fun _ hx => hx.operands.bind fun _ hy => ResShape.ite hy <| aligned_shape.bind fun _ _ => mapG_shape.bind fun _ _ =>
    hy.sound.bind fun _ _ => hy.pcieReady.bind fun _ hj => hj.flush.bind fun _ hk => Iss.shapeOk.shed (State.shapeOk.bitRead hk)

theorem execBitwaitPoll_keepsShape {sid uid : Nat} {s : State} (h : s.shapeOk) : KeepsShape (execBitwaitPoll sid uid s) := by
  refine keepsShape_next ?_
  split
  · exact h
  · split
    · exact h.bitPoll.ite h
    · exact h

end Sys2Proof.Machine
end

section
/-! SUPPORT. Scratchpad barriers, services, stops and the events of cores keep the parts. -/

namespace Sys2Proof.Machine

-- One proof after another: side by side, they hold more memory than the check of the whole text allows.
set_option Elab.async false

/-! ## Scratchpad barriers (R222 to R225) -/

theorem State.shapeOk.sbCheck {s : State} (h : s.shapeOk) {sid uid : Nat} : (s.sbCheck sid uid).shapeOk := by
  fun_cases State.sbCheck s sid uid
  case case4 => exact h.setSkein
  case case6 => exact h.setSkein.acquire
  all_goals exact h

theorem State.shapeOk.sbWake {s : State} (h : s.shapeOk) {b : Block} {off : Nat} : (s.sbWake b off).shapeOk :=
  h.foldl fun _ _ ht => ht.sbCheck

theorem State.shapeOk.sbPut {s : State} (h : s.shapeOk) {b : Block} {off : Nat} {o : SbObj} : (s.sbPut b off o).shapeOk := h.pokes.sbWake

theorem sbOffset_shape {i : Iss} {y : Nat} : ResShape (fun _ => True) (i.sbOffset y) := by
  fun_cases Iss.sbOffset i y <;> trivial

theorem sbOp_keepsShape {z : Instr} {y : BitVec 8} {ops : Mask → List Opd} {store arrival : Bool} {s : State} {init : Bool}
    {ok : Iss → SbObj → Bool} {body : Iss → Block → Nat → SbObj → Res State} (h : s.shapeOk)
    (hb : ∀ x b off o, x.shapeOk → ResShape State.shapeOk (body x b off o)) : KeepsShape (sbOp z y ops store arrival s init ok body) := by
  refine issue_keepsShape h fun _ hx => hx.operands.bind fun y hy => sbOffset_shape.bind fun off _ => ?_
  cases off with
  | none => exact hy
  | some off =>
    refine hold_shape.bind fun _ _ => ?_
    extract_lets jp
    have hjp : ∀ u, ResShape State.shapeOk (jp u) := fun _ => hy.flush.bind fun z hz => need_shape.bind fun _ _ => need_shape.bind fun _ _ =>
      need_shape.bind fun _ _ => ResShape.ite (hz.release.bind fun _ hw => hb _ _ _ _ hw) (hb _ _ _ _ hz)
    exact ResShape.ite (hjp ()) (hy.sound.bind fun _ _ => hjp ())

theorem execSbinit_keepsShape {x y : BitVec 8} {s : State} (h : s.shapeOk) : KeepsShape (execSbinit x y s) :=
  sbOp_keepsShape h fun _ _ _ _ hi => State.shapeOk.sbPut hi

theorem execSbarr_keepsShape {x y : BitVec 8} {la : BitVec 4} {s : State} (h : s.shapeOk) : KeepsShape (execSbarr x y la s) :=
  sbOp_keepsShape h fun _ _ _ _ hi => State.shapeOk.sbPut hi.put

theorem execSbexp_keepsShape {x y : BitVec 8} {s : State} (h : s.shapeOk) : KeepsShape (execSbexp x y s) :=
  sbOp_keepsShape h fun _ _ _ _ hi => State.shapeOk.sbPut hi

theorem execSbwait_keepsShape {x y : BitVec 8} {s : State} (h : s.shapeOk) : KeepsShape (execSbwait x y s) :=
  sbOp_keepsShape h fun _ _ _ _ hi => State.shapeOk.sbCheck hi.put

theorem execSbdrop_keepsShape {y : BitVec 8} {s : State} (h : s.shapeOk) : KeepsShape (execSbdrop y s) :=
  sbOp_keepsShape h fun _ _ _ _ hi => State.shapeOk.sbPut hi

theorem execSbwaitPoll_keepsShape {sid uid : Nat} {s : State} (h : s.shapeOk) : KeepsShape (execSbwaitPoll sid uid s) := keepsShape_next h.sbCheck

/-! ## Services (R351 to R356, R360, R361) -/

theorem Iss.shapeOk.stop {i : Iss} (h : i.shapeOk) {code : BitVec 16} {cause : Nat} {lfm : Mask} {imm : BitVec 32} :
    (i.stop code cause lfm imm).shapeOk := State.shapeOk.takeStop h

theorem execTrap_keepsShape {imm : BitVec 7} {s : State} (h : s.shapeOk) : KeepsShape (execTrap imm s) := issue_keepsShape h fun _ hx => hx.stop
theorem execBrk_keepsShape {imm : BitVec 7} {s : State} (h : s.shapeOk) : KeepsShape (execBrk imm s) := issue_keepsShape h fun _ hx => hx.stop

theorem execTack_keepsShape {idx : BitVec 12} {s : State} (h : s.shapeOk) : KeepsShape (execTack idx s) :=
  issue_keepsShape h fun _ hx => need_shape.bind fun _ _ => State.shapeOk.ite hx.stop hx

theorem execSyscall_keepsShape {imm : BitVec 7} {s : State} (h : s.shapeOk) : KeepsShape (execSyscall imm s) :=
  issue_keepsShape h fun _ hx => need_shape.bind fun _ _ => ResShape.ite hx <| hx.operands.bind fun _ hy => hy.releaseIf.bind fun _ hz =>
    State.shapeOk.receive hz.put

theorem State.shapeOk.hostEvent {s : State} (h : s.shapeOk) {t : UTarget} {v : Nat} : (s.hostEvent t v).shapeOk := by
  fun_cases State.hostEvent s t v
  all_goals exact h

theorem State.shapeOk.interrupt {s : State} (h : s.shapeOk) {core handle vec : Nat} {d : OSet} : (s.interrupt core handle vec d).1.shapeOk := by
  fun_cases State.interrupt s core handle vec d
  case case5 own t1 u _ _ _ =>
    have hu : u.shapeOk := (h.ite h.modCore).pokes.hostEvent
    exact hu
  case case6 own t1 u _ => exact (h.ite h.modCore).pokes.hostEvent
  all_goals exact h

theorem State.shapeOk.interrupts {s : State} (h : s.shapeOk) {core : Nat} {d : OSet} {ls : List (Nat × Nat × Nat)} :
    (s.interrupts core d ls).1.shapeOk := by
  induction ls generalizing s with
  | nil => exact h
  | cons x ls ih => exact ih h.interrupt

theorem execUint_keepsShape {d a : BitVec 8} {s : State} (h : s.shapeOk) : KeepsShape (execUint d a s) :=
  issue_keepsShape h fun _ hx => hx.operands.bind fun _ hy => hy.release.bind fun _ hz => ResShape.ite trivial <|
    hz.sound.bind fun _ _ => (State.shapeOk.interrupts hz).setSkein

theorem execResumeMask_keepsShape {sid uid : Nat} {mask : BitVec 32} {s : State} (h : s.shapeOk) : KeepsShape (execResumeMask sid uid mask s) := by
  refine keepsShape_next ?_
  split
  · exact h
  · split
    · exact h
    · split
      · exact h.ite h.setSkein.acquire
      · exact h

/-! ## Stops (R34, R247, R343, R348, R350) -/

theorem State.shapeOk.resume {s : State} (h : s.shapeOk) {sid : Nat} : (s.resume sid).shapeOk := h.resumeSkein.recheckPops

theorem execSkeinResume_keepsShape {sid : Nat} {s : State} (h : s.shapeOk) : KeepsShape (execSkeinResume sid s) := by
  refine keepsShape_next ?_
  split
  · exact h
  · exact h.resume.ite h

theorem State.shapeOk.modStopped {s : State} (h : s.shapeOk) {r : Record} {f : Skein → Stop → Skein} : (s.modStopped r f).shapeOk :=
  h

theorem State.shapeOk.logError {s : State} (h : s.shapeOk) {r : Record} : (s.logError r).shapeOk := h

theorem State.shapeOk.actOn {s : State} (h : s.shapeOk) {r : Record} : (s.actOn r).shapeOk := by
  have hand : ({ s with dbgQueue := s.dbgQueue ++ [r] } : State).shapeOk := h
  unfold State.actOn
  split
  · exact h.modStopped.logError.ite h.endByRecord
  · exact h.modStopped.logError.ite h.endByRecord
  · exact hand.ite h.endByRecord
  · exact hand.ite h.endByRecord
  · exact hand.ite h.modStopped.logError
  · exact h

theorem execFinwesinStopAction_keepsShape {cl : Nat} {s : State} (h : s.shapeOk) : KeepsShape (execFinwesinStopAction cl s) := by
  refine keepsShape_next ?_
  split
  · exact h
  · exact h.modCluster.actOn

theorem execClusterConfirm_keepsShape {ctx cl : Nat} {s : State} (h : s.shapeOk) : KeepsShape (execClusterConfirm ctx cl s) := by
  refine keepsShape_next ?_
  split
  · exact h
  · next c hc =>
    split
    · exact h
    · extract_lets mine busy t t1 rest t2
      have ht : t.shapeOk := h.foldl fun _ _ hu => hu.drain
      have ht1 : t1.shapeOk := ht
      have ht2 : t2.shapeOk := ht1.setCtx
      exact h.ite (ht2.finishEnd.ite ht2)

theorem State.shapeOk.loadError {s : State} (h : s.shapeOk) {k : Skein} {n : Nat} {q : Pend} {lanes : Mask} {level : Nat} {clean : Bool} :
    (s.loadError k n q lanes level clean).shapeOk := by
  unfold State.loadError
  extract_lets src ls t t1 t2
  have ht1 : t1.shapeOk := h.countError.foldl fun _ _ hu => hu.dropAt
  have ht2 : t2.shapeOk := ht1.ite ht1.fail
  split
  · exact ht2
  · exact ht2.takeStop

theorem State.shapeOk.refetch {s : State} (h : s.shapeOk) {k : Skein} {level : Nat} {clean : Bool} : (s.refetch k level clean).shapeOk :=
  h.ite h.takeWord.countError

theorem execLoadDataError_keepsShape {sid : Nat} {lanes : BitVec 32} {level : BitVec 8} {clean : Bool} {s : State} (h : s.shapeOk) :
    KeepsShape (execLoadDataError sid lanes level clean s) := by
  refine keepsShape_next ?_
  split
  · exact h
  · refine h.ite <| h.refetch.ite <| h.ite <| h.takeWord.setSkein.ite ?_
    split
    · exact h.ite h.setSkein
    · split
      · exact h
      · exact h.loadError

/-! ## Landings, waits and stores that become visible (R32, R136, R157, R248) -/

theorem execLongLatencyWriteLands_keepsShape {sid : Nat} {s : State} (h : s.shapeOk) : KeepsShape (execLongLatencyWriteLands sid s) := by
  refine keepsShape_next ?_
  split
  · exact h
  · exact h.setSkein

theorem execJoinDeadlock_keepsShape {sid : Nat} {s : State} (h : s.shapeOk) : KeepsShape (execJoinDeadlock sid s) := by
  refine keepsShape_next ?_
  split
  · exact h
  · dsimp only
    split
    · exact h.trapStop
    · exact h

theorem execYieldRelease_keepsShape {sid uid : Nat} {s : State} (h : s.shapeOk) : KeepsShape (execYieldRelease sid uid s) := by
  refine keepsShape_next ?_
  split
  · exact h
  · exact h.setSkein

theorem execStorePerformed_keepsShape {sid idx : Nat} {s : State} (h : s.shapeOk) : KeepsShape (execStorePerformed sid idx s) :=
  keepsShape_next h.performStore

/-! ## Run-ahead fetches and fills (R193, R204, R376, R377) -/

theorem execStreamFetch_keepsShape {core slot : Nat} {s : State} (h : s.shapeOk) : KeepsShape (execStreamFetch core slot s) := by
  refine keepsShape_next ?_
  split
  · exact h
  · split
    · exact h
    · refine h.ite ?_
      split
      · exact h.dropAhead.setSkein
      · exact h.countAhead.setSkein.ite (h.setSkein.ite h.setSkein.fetchInto)

theorem execFetchAhead_keepsShape {sid uid va : Nat} {s : State} (h : s.shapeOk) : KeepsShape (execFetchAhead sid uid va s) := by
  refine keepsShape_next ?_
  split
  · exact h
  · split
    · exact h
    · refine h.ite ?_
      split
      · exact h
      · exact h
      · exact h.ite h.fetchInto

theorem execInstructionFetchFill_keepsShape {core line : Nat} {s : State} (h : s.shapeOk) : KeepsShape (execInstructionFetchFill core line s) :=
  keepsShape_next h.modCore

/-! ## Translation parks and invalidations (R199 to R203, R442) -/

theorem State.shapeOk.freeEntry {s : State} (h : s.shapeOk) {cl id : Nat} : (s.freeEntry cl id).shapeOk := h.modCluster

theorem State.shapeOk.replay {s : State} (h : s.shapeOk) {e : FaultEntry} : (s.replay e).shapeOk := by
  fun_cases State.replay s e
  · exact h
  · exact h.setSkein.acquire

theorem execTranslationParkResolve_keepsShape {cl entry : Nat} {s : State} (h : s.shapeOk) : KeepsShape (execTranslationParkResolve cl entry s) := by
  refine keepsShape_next ?_
  split
  · exact h
  · split
    · exact h
    · refine h.ite <| h.freeEntry.endContext.ite <| State.shapeOk.ite (State.shapeOk.replay ?_) h.freeEntry.endContext
      refine h.freeEntry.foldl fun t v ht => ?_
      split
      · exact ht
      · exact ht.mapPiece
      · exact ht.mapPiece

theorem execTranslationInvalidate_keepsShape {ctx va : Nat} {s : State} (h : s.shapeOk) : KeepsShape (execTranslationInvalidate ctx va s) := by
  refine keepsShape_next ?_
  split
  · exact h
  · next c hc => exact h.ite h.setCtx

/-! ## PCIe (R211, R245, R390, R394) -/

theorem State.shapeOk.lateCompletion {s : State} (h : s.shapeOk) {sid : Nat} : (s.lateCompletion sid).shapeOk := by
  fun_cases State.lateCompletion s sid
  · exact h
  · exact h.modPart

theorem execPcieCompletion_keepsShape {sid uid status : Nat} {s : State} (h : s.shapeOk) : KeepsShape (execPcieCompletion sid uid status s) := by
  refine keepsShape_next ?_
  split
  · exact h.lateCompletion
  · exact h.setSkein.ite h.lateCompletion

theorem execPcieCompletionTimeout_keepsShape {sid uid : Nat} {s : State} (h : s.shapeOk) : KeepsShape (execPcieCompletionTimeout sid uid s) := by
  refine keepsShape_next ?_
  split
  · exact h
  · split
    · split
      · exact h.setSkein.ite h.trapStop
      · exact h.setSkein
    · exact h

theorem execWritebackUndelivered_keepsShape {pa : Nat} {s : State} (h : s.shapeOk) : KeepsShape (execWritebackUndelivered pa s) := by
  refine keepsShape_next ?_
  split
  · exact h
  · exact h.endContext

theorem State.shapeOk.performPosted {s : State} (h : s.shapeOk) {ws : List (Nat × List Byte)} : (s.performPosted ws).shapeOk := by
  fun_induction State.performPosted s ws
  case case1 => exact h
  case case2 => exact h
  case case3 ih => exact ih h.pokes

theorem execPciePostedWrite_keepsShape {pa : Nat} {data : List (BitVec 8)} {s : State} (h : s.shapeOk) : KeepsShape (execPciePostedWrite pa data s) :=
  keepsShape_next (h.performPosted.ite h)

end Sys2Proof.Machine
end

section
/-! SUPPORT. Engine commands and the Wringer's words and events keep the parts. -/

namespace Sys2Proof.Machine

-- One proof after another: side by side, they hold more memory than the check of the whole text allows.
set_option Elab.async false

/-! ## Regions and what a command does at its issue (R242, R274, R299) -/

theorem narrow_shape {i : Iss} {sp : Space} {a : Nat} : ResShape (fun _ => True) (i.narrow sp a) := need_shape

theorem regionG_shape {i : Iss} {need : Need} {ps : List (Nat × Nat)} : ResShape (fun _ => True) (i.regionG need ps) := by
  induction ps with
  | nil => trivial
  | cons q ps ih => exact mapG_shape.bind fun _ _ => ih.bind fun _ _ => trivial

theorem region_shape {i : Iss} {sp : Space} {need : Need} {a n : Nat} : ResShape (fun _ => True) (i.region sp need a n) := by
  have hm (ps : List (Nat × Nat)) : ResShape (fun _ => True)
      (if sp == .g then i.regionG need ps else i.mapSC sp [(highest i.p.em, a, n)]) := regionG_shape.ite mapSC_shape
  unfold Iss.region
  refine ResShape.ite (narrow_shape.bind fun _ _ => trivial) ?_
  extract_lets ps
  have := hm ps
  split
  · trivial
  · trivial
  · trivial
  · next e => rw [e] at this; exact this

theorem regions_shape {i : Iss} {sp : Space} {need : Need} {n : Nat} {as : List Nat} : ResShape (fun _ => True) (i.regions sp need n as) := by
  induction as with
  | nil => trivial
  | cons a as ih => exact region_shape.bind fun _ _ => ih.bind fun _ _ => trivial

theorem Iss.shapeOk.checkBarrier {i : Iss} (h : i.shapeOk) {bar : Option Nat} : ResShape (fun _ => True) (i.checkBarrier bar) := by
  cases bar with
  | none => trivial
  | some off =>
    exact need_shape.bind fun _ _ => region_shape.bind fun _ _ => hold_shape.bind fun _ _ => h.sound.bind fun _ _ => h.flush.bind fun _ _ => need_shape

theorem State.shapeOk.meetErrors {s : State} (h : s.shapeOk) {core moment : Nat} {ls : List Loc} : (s.meetErrors core moment ls).1.shapeOk :=
  h.foldl fun _ _ ht => ht.countError

theorem Iss.shapeOk.releaseAt {i : Iss} (h : i.shapeOk) {n : Nat} : ResShape Iss.shapeOk (i.releaseAt n) := h.release

theorem Iss.shapeOk.command {i : Iss} (h : i.shapeOk) {c : Plan} : ResShape State.shapeOk (i.command c) :=
  h.releaseAt.bind fun j hj => State.shapeOk.meetErrors (core := j.k.coreId) (moment := j.s.nextId) hj

/-! ## How an engine writes (R214, R242, R303, R349) -/

theorem State.shapeOk.dropCopies {s : State} (h : s.shapeOk) {line : Nat} : (s.dropCopies line).shapeOk :=
  h.withCores (List.length_map _)

theorem State.shapeOk.engineWrite {s : State} (h : s.shapeOk) {die : Nat} {l : Loc} {b : Byte} : (s.engineWrite die l b).shapeOk :=
  h.pstore.ite (h.poke.dropCopies.ite h.poke)

theorem State.shapeOk.mend {s : State} (h : s.shapeOk) {ls : List Loc} : (s.mend ls).shapeOk := h

theorem State.shapeOk.writeBytes {s : State} (h : s.shapeOk) {die : Nat} {bs : List (Loc × SrcByte)} : (s.writeBytes die bs).shapeOk :=
  State.shapeOk.mend (h.foldl fun _ _ ht => ht.engineWrite)

theorem State.shapeOk.commandFault {s : State} (h : s.shapeOk) {sid : Nat} {r : Record} : (s.commandFault sid r).shapeOk := by
  fun_cases State.commandFault s sid r
  · exact h
  · exact h.receive
  · exact h.setSkein

theorem State.shapeOk.sbDecrement {s : State} (h : s.shapeOk) {k : Skein} {off n : Nat} : (s.sbDecrement k off n).shapeOk := h.sbPut

theorem State.shapeOk.modCmd {s : State} (h : s.shapeOk) {sid order : Nat} {f : Cmd → Option Cmd} : (s.modCmd sid order f).shapeOk := h

theorem State.shapeOk.cmdError {s : State} (h : s.shapeOk) {k : Skein} {c : Cmd} {l : Loc} {f : Cmd → Cmd} : (s.cmdError k c l f).shapeOk :=
  h.countError.modCmd

theorem State.shapeOk.payCount {s : State} (h : s.shapeOk) {k : Skein} {c : Cmd} {n : Nat} : (s.payCount k c n).shapeOk := by
  fun_cases State.payCount s k c n
  · exact h.modCmd
  · exact h.cmdError
  · exact h.modCmd.sbDecrement

/-! ## The words of the Wringer (R279 to R284, R298 to R305) -/

theorem wringerOp_keepsShape {z : Instr} {x : Nat} {regs other : List (Nat × Nat)} {s : State} {body : Iss → Res State} (h : s.shapeOk)
    (hb : ∀ i : Iss, i.shapeOk → ResShape State.shapeOk (body i)) : KeepsShape (wringerOp z x regs other s body) :=
  issue_keepsShape h fun _ hx => ResShape.ite hx <| ResShape.ite trivial <| hx.operands.bind hb

theorem control_shape {i : Iss} {y : Nat} : ResShape (fun _ => True) (i.control y) := ResShape.ite trivial trivial

theorem execWcopy_keepsShape {x y : BitVec 8} {sp : BitVec 3} {s : State} (h : s.shapeOk) : KeepsShape (execWcopy x y sp s) :=
  wringerOp_keepsShape h fun _ hi => need_shape.bind fun _ _ => control_shape.bind fun _ _ => region_shape.bind fun _ _ => region_shape.bind fun _ _ =>
    hi.checkBarrier.bind fun _ _ => need_shape.bind fun _ _ => hi.command

theorem execWfill_keepsShape {x y : BitVec 8} {sp : BitVec 3} {s : State} (h : s.shapeOk) : KeepsShape (execWfill x y sp s) :=
  wringerOp_keepsShape h fun _ hi => need_shape.bind fun _ _ => control_shape.bind fun _ _ => region_shape.bind fun _ _ =>
    hi.checkBarrier.bind fun _ _ => need_shape.bind fun _ _ => hi.command

theorem Iss.shapeOk.indexList {i : Iss} (h : i.shapeOk) {off count : Nat} : ResShape (fun _ => True) (i.indexList off count) :=
  region_shape.bind fun _ _ => ResShape.ite (h.flush.bind fun _ _ => trivial) trivial

theorem gatherLimits_shape {i : Iss} {x : Nat} : ResShape (fun _ => True) (i.gatherLimits x) := ResShape.ite trivial trivial

theorem execWgath_keepsShape {x y : BitVec 8} {sp : BitVec 3} {s : State} (h : s.shapeOk) : KeepsShape (execWgath x y sp s) :=
  wringerOp_keepsShape h fun _ hi => gatherLimits_shape.bind fun _ _ => control_shape.bind fun _ _ => hi.indexList.bind fun _ _ =>
    narrow_shape.bind fun _ _ => regions_shape.bind fun _ _ => region_shape.bind fun _ _ => hi.checkBarrier.bind fun _ _ =>
      need_shape.bind fun _ _ => hi.command

theorem execWscat_keepsShape {x y : BitVec 8} {sp : BitVec 3} {s : State} (h : s.shapeOk) : KeepsShape (execWscat x y sp s) :=
  wringerOp_keepsShape h fun _ hi => gatherLimits_shape.bind fun _ _ => control_shape.bind fun _ _ => hi.indexList.bind fun _ _ =>
    region_shape.bind fun _ _ => narrow_shape.bind fun _ _ => regions_shape.bind fun _ _ => hi.checkBarrier.bind fun _ _ =>
      need_shape.bind fun _ _ => hi.command

theorem execWsend_keepsShape {x : BitVec 8} {s : State} (h : s.shapeOk) : KeepsShape (execWsend x s) :=
  wringerOp_keepsShape h fun _ hi => need_shape.bind fun _ _ => region_shape.bind fun _ _ => hi.command

theorem wcollOp_keepsShape {z : Instr} {x : BitVec 8} {kind : Nat} {s : State} (h : s.shapeOk) : KeepsShape (wcollOp z x kind s) := by
  refine wringerOp_keepsShape h fun i hi => ?_
  dsimp only
  split
  · exact trap_shape
  · refine need_shape.bind fun _ _ => ResShape.ite (region_shape.bind fun _ _ => ?_) ?_
    all_goals exact region_shape.bind fun _ _ => need_shape.bind fun _ _ => hi.command

/-! ## How a command advances (R275, R278, R281, R283, R303) -/

theorem State.shapeOk.reportCmd {s : State} (h : s.shapeOk) {k : Skein} {c : Cmd} : (s.reportCmd k c).shapeOk := by
  fun_cases State.reportCmd s k c
  · exact h
  · exact h.modCmd.commandFault

theorem State.shapeOk.writeLine {s : State} (h : s.shapeOk) {k : Skein} {c : Cmd} {ln : DstLine} : (s.writeLine k c ln).shapeOk := by
  fun_cases State.writeLine s k c ln
  · exact h.cmdError
  · exact h.writeBytes.modCmd

theorem State.shapeOk.stepCmd {s : State} (h : s.shapeOk) {k : Skein} {c : Cmd} : (s.stepCmd k c).shapeOk := by
  unfold State.stepCmd
  refine h.reportCmd.ite ?_
  split
  · exact h.payCount
  · split
    · exact h.writeLine
    · exact h.modCmd.ite h

theorem execWringerLineWrite_keepsShape {sid cmd : Nat} {s : State} (h : s.shapeOk) : KeepsShape (execWringerLineWrite sid cmd s) := by
  refine keepsShape_next ?_
  split
  · exact h
  · split
    · exact h
    · split
      · exact h.modCore.stepCmd.ite h
      · exact h
      · exact h

theorem State.shapeOk.failCmd {s : State} (h : s.shapeOk) {k : Skein} {c : Cmd} {code : BitVec 16} : (s.failCmd k c code).shapeOk :=
  h.modCmd.commandFault

theorem State.shapeOk.sendMap {s : State} (h : s.shapeOk) {ctx dst n : Nat} : (s.sendMap ctx dst n).shapeOk := by
  refine h.foldl fun t q ht => ?_
  split
  · exact ht.mapPiece
  all_goals exact ht

theorem State.shapeOk.sendWrite {s : State} (h : s.shapeOk) {die : Nat} {ls : List (Option Loc)} {bs : List (Option SrcByte)} :
    (s.sendWrite die ls bs).shapeOk := h.writeBytes

theorem State.shapeOk.performInbound {s : State} (h : s.shapeOk) {ms : List (Nat × Nat × List (Option Byte) × OSet)} :
    (s.performInbound ms).shapeOk := by
  fun_induction State.performInbound s ms
  case case1 => exact h
  case case2 m ls _ =>
    have hm : m.shapeOk := h.sendMap
    exact hm
  case case3 m ls _ u ih =>
    have hm : m.shapeOk := h.sendMap
    exact ih hm.sendWrite.leaveHem

theorem State.shapeOk.sendNext {s : State} (h : s.shapeOk) {k : Skein} {c : Cmd} {f : Option (BitVec 16)} : (s.sendNext k c f).shapeOk :=
  h.modCmd

theorem State.shapeOk.sendStep {s : State} (h : s.shapeOk) {k : Skein} {c : Cmd} {m dst : Nat} {src : List (Option SrcByte)} {set : OSet}
    {ok : Bool} : (s.sendStep k c m dst src set ok).shapeOk := by
  unfold State.sendStep
  dsimp only
  split
  · exact h.countError.sendNext
  · exact h.sendNext.ite <| (h.sendNext.ite h.leaveHem.sendNext).ite <| h.ite <| h.sendMap.sendNext.ite h.sendMap.sendWrite.sendNext

theorem State.shapeOk.joinGroup {s : State} (h : s.shapeOk) {ctx handle : Nat} : (s.joinGroup ctx handle).shapeOk := h

theorem execWsendRemoteWrite_keepsShape {id num : Nat} {op : SendOp} {s : State} (h : s.shapeOk) : KeepsShape (execWsendRemoteWrite id num op s) := by
  refine keepsShape_next ?_
  split
  · exact h.performInbound.ite h
  · exact h.joinGroup
  · split
    · exact h
    · split
      · exact h
      · split
        · exact h
        · exact h
        · exact (h.modCore.reportCmd.ite h.modCore.sendStep).ite h

theorem State.shapeOk.joinColl {s : State} (h : s.shapeOk) {k : Skein} {c : Cmd} {g : Group} {kind n root : Nat} {src : List (Option SrcByte)}
    {mine : List Byte} {remote : List Contribution} : (s.joinColl k c g kind n root src mine remote).shapeOk := by
  unfold State.joinColl
  dsimp only
  split
  · exact h.modCmd
  · exact h.modCmd.cmdError

theorem State.shapeOk.contribute {s : State} (h : s.shapeOk) {k : Skein} {handle kind n root : Nat} {mine : List Byte} :
    (s.contribute k handle kind n root mine).shapeOk := by
  have h1 : ({ s with free := s.free + mine.length } : State).shapeOk := h
  exact h1.leaveHem

theorem State.shapeOk.routeAbort {s : State} (h : s.shapeOk) {k : Skein} {c : Cmd} {n : Nat} : (s.routeAbort k c n).shapeOk := h.leaveHem.failCmd

theorem execWcollMatch_keepsShape {sid cmd : Nat} {remote : List Contribution} {s : State} (h : s.shapeOk) :
    KeepsShape (execWcollMatch sid cmd remote s) := by
  refine keepsShape_next ?_
  split
  · exact h
  · split
    · exact h
    · split
      · exact h
      · exact h
      · split
        · exact h
        · exact h.reportCmd.ite <| h.ite <| h.failCmd.ite <| h.failCmd.ite <| h.routeAbort.ite <| h.ite <|
            h.contribute.failCmd.ite h.contribute.joinColl

end Sys2Proof.Machine
end

section
/-! SUPPORT. What Finwesin serves keeps the parts: the frame of a service, and the calls for time, memory, baskets, stages, bins,
groups and interrupt targets (R355 to R360). -/

namespace Sys2Proof.Machine

-- One proof after another: side by side, they hold more memory than the check of the whole text allows.
set_option Elab.async false

/-! ## The frame of a service (R355, R357, R359) -/

/-- The state that a call is served in has all its parts. -/
def Req.shapeOk (r : Req) : Prop := r.s.shapeOk

/-- What a service gives has a property, and the state of an answer that it stops with has all its parts. -/
def ServeShape {α : Type} (P : α → Prop) : Serve α → Prop
  | .ok a => P a
  | .error (some a) => a.s.shapeOk
  | .error none => True

/-- The state of an answer has all its parts. -/
def Ans.shapeOk (a : Ans) : Prop := a.s.shapeOk

theorem ServeShape.bind {α β : Type} {P : α → Prop} {Q : β → Prop} {x : Serve α} {f : α → Serve β} (hx : ServeShape P x)
    (hf : ∀ a, P a → ServeShape Q (f a)) : ServeShape Q (x >>= f) := by
  cases x with
  | ok a => exact hf a hx
  | error c => cases c <;> exact hx

theorem ServeShape.ite {α : Type} {P : α → Prop} {c : Prop} [Decidable c] {x y : Serve α} (hx : ServeShape P x) (hy : ServeShape P y) :
    ServeShape P (if c then x else y) := by
  split
  · exact hx
  · exact hy

theorem Req.shapeOk.fail {α : Type} {P : α → Prop} {r : Req} (h : r.shapeOk) {code : BitVec 16} {set : OSet} :
    ServeShape P (r.fail code set) := h

theorem Req.shapeOk.state {r : Req} (h : r.shapeOk) : r.s.shapeOk := h

theorem Req.shapeOk.need {r : Req} (h : r.shapeOk) {c : Bool} {n : Nat} : ServeShape (fun _ => True) (r.need c n) := ServeShape.ite trivial h.fail

theorem Req.shapeOk.found {r : Req} (h : r.shapeOk) {c : Bool} : ServeShape (fun _ => True) (r.found c) := ServeShape.ite trivial h.fail

theorem Req.shapeOk.zeros {r : Req} (h : r.shapeOk) {ns : List Nat} : ServeShape (fun _ => True) (r.zeros ns) := by
  induction ns with
  | nil => trivial
  | cons n ns ih => exact h.need.bind fun _ _ => ih

theorem State.shapeOk.answer {s : State} (h : s.shapeOk) {k : Skein} {c : Call} {a : OSet} {vals : List Nat} {set : OSet} :
    (s.answer k c a vals set).shapeOk := h

theorem State.shapeOk.requestOf {s : State} (h : s.shapeOk) {k : Skein} {p : Split} {lane : Nat} {r : Req}
    (e : s.requestOf k p lane = some r) : r.shapeOk := by
  unfold State.requestOf at e
  split at e
  · split at e
    · cases e
    · dsimp only at e
      split at e
      · cases e
      · cases e
        exact h
  · cases e

theorem State.shapeOk.request {s : State} (h : s.shapeOk) {sid uid lane : Nat} {r : Req} (e : s.request sid uid lane = some r) : r.shapeOk := by
  obtain ⟨k, _, hp⟩ := Option.bind_eq_some_iff.mp e
  obtain ⟨p, _, hr⟩ := Option.bind_eq_some_iff.mp hp
  exact h.requestOf hr

theorem State.shapeOk.waiting {s : State} (h : s.shapeOk) {caller : Nat × Nat × Nat × Nat} {r : Req} (e : s.waiting caller = some r) :
    r.shapeOk := by
  obtain ⟨k, _, hk⟩ := List.exists_of_findSome?_eq_some e
  obtain ⟨p, _, hr⟩ := List.exists_of_findSome?_eq_some hk
  exact h.requestOf hr

/-- A service leaves all the parts, answered or not. -/
theorem finish_shapeOk {r : Req} {x : Serve Ans} {t : State} (hx : ServeShape Ans.shapeOk x) (e : finish r x = some t) : t.shapeOk := by
  have last (a : Ans) (ha : a.shapeOk) : (if a.vals.isEmpty then a.s else a.s.answer r.k r.call r.argset a.vals a.set).shapeOk :=
    State.shapeOk.ite ha (State.shapeOk.answer ha)
  cases x with
  | ok a => cases e; exact last a hx
  | error c =>
    cases c with
    | some a => cases e; exact last a hx
    | none => cases e

theorem finish_getD_shapeOk {s : State} {r : Req} {x : Serve Ans} (h : s.shapeOk) (hx : ServeShape Ans.shapeOk x) :
    ((finish r x).getD s).shapeOk := by
  cases e : finish r x with
  | none => exact h
  | some t => exact finish_shapeOk hx e

theorem serve_keepsShape {num : Nat → Bool} {sid uid lane : Nat} {s : State} {body : Req → Serve Ans} (h : s.shapeOk)
    (hb : ∀ r : Req, r.shapeOk → ServeShape Ans.shapeOk (body r)) : KeepsShape (serve num sid uid lane s body) := by
  refine keepsShape_next ?_
  split
  · exact h
  · next r hr => exact h.ite (finish_getD_shapeOk h (hb r (h.request hr)))

/-! ## Pages that a service reaches (R359) -/

theorem State.shapeOk.svcPiece {s : State} (h : s.shapeOk) {ctx : Nat} {need : Need} {va n : Nat} {x : State × Part}
    (e : s.svcPiece ctx need va n = .ok x) : x.1.shapeOk := by
  unfold State.svcPiece at e
  split at e
  · cases e
  · next c hc =>
    have ht : (match s.walk c va, c.region? va with
      | .unmapped, some _ => s.mapPiece ctx va
      | _, _ => s).shapeOk := by
      split
      · exact h.mapPiece
      · exact h
    dsimp only at e
    split at e
    · cases e
    · cases e
    · split at e
      · cases e
      · split at e
        · cases e
        · cases e
          exact ht

theorem State.shapeOk.svcPieces {s : State} (h : s.shapeOk) {ctx : Nat} {need : Need} {ps : List (Nat × Nat)} {x : State × List Part}
    (e : s.svcPieces ctx need ps = .ok x) : x.1.shapeOk := by
  induction ps generalizing s x with
  | nil => cases e; exact h
  | cons q ps ih =>
    unfold State.svcPieces at e
    split at e
    · cases e
    · next u p hu =>
      split at e
      · cases e
      · next v qs hv =>
        cases e
        have hw : State.shapeOk (v, qs).1 := ih (h.svcPiece hu) hv
        exact hw

theorem Req.shapeOk.reach {r : Req} (h : r.shapeOk) {need : Need} {va n : Nat} {set : OSet} :
    ServeShape (fun x : Req × List Part => x.1.shapeOk) (r.reach need va n set) := by
  unfold Req.reach
  split
  · exact h.fail
  · next t ps e => exact ServeShape.ite trivial (h.state.svcPieces e)

theorem Req.shapeOk.read {r : Req} (h : r.shapeOk) {va n : Nat} {set : OSet} :
    ServeShape (fun x : Req × List Byte × OSet => x.1.shapeOk) (r.read va n set) := by
  refine h.reach.bind fun x hx => ?_
  dsimp only
  split
  · exact hx.state.countError
  · exact hx

theorem State.shapeOk.svcWrite {s : State} (h : s.shapeOk) {die : Nat} {ps : List Part} {bs : List Byte} : (s.svcWrite die ps bs).shapeOk :=
  State.shapeOk.mend (h.foldl fun _ _ ht => ht.engineWrite)

theorem State.shapeOk.freshNum {s : State} (h : s.shapeOk) {used : List Nat} {n : Nat} : (s.freshNum used n).2.shapeOk := h

/-! ## TIME and memory (R357 to R359, R442) -/

theorem execTimeCall_keepsShape {sid uid lane : Nat} {s : State} (h : s.shapeOk) : KeepsShape (execTimeCall sid uid lane s) :=
  serve_keepsShape h fun _ hr => hr.zeros.bind fun _ _ => hr.state.takeWord

theorem State.shapeOk.freeBase {s : State} (h : s.shapeOk) {c : Context} {size n : Nat} : (s.freeBase c size n).2.shapeOk := h

theorem State.shapeOk.freeFrames {s : State} (h : s.shapeOk) {part size n : Nat} {x : Nat × State} (e : s.freeFrames part size n = some x) :
    x.2.shapeOk := by
  unfold State.freeFrames at e
  dsimp only at e
  split at e
  · cases e
  · cases e
    exact h.modPart

theorem Req.shapeOk.allocG {r : Req} (h : r.shapeOk) {n : Nat} : ServeShape Ans.shapeOk (r.allocG n) := by
  refine h.need.bind fun _ _ => h.need.bind fun _ _ => h.zeros.bind fun _ _ => ?_
  extract_lets b base
  have hb : base.2.shapeOk := h.state.takeBit.freeBase
  clear_value base
  split
  · next va f t _ _ e =>
    have ht : t.shapeOk := State.shapeOk.freeFrames hb e
    exact ht.setCtx
  · exact hb

theorem Req.shapeOk.allocC {r : Req} (h : r.shapeOk) {n : Nat} : ServeShape Ans.shapeOk (r.allocC n) :=
  h.need.bind fun _ _ => h.need.bind fun _ _ => h.zeros.bind fun _ _ => ServeShape.ite h.fail h.state.modCluster

theorem execMemAlloc_keepsShape {sid uid lane : Nat} {s : State} (h : s.shapeOk) : KeepsShape (execMemAlloc sid uid lane s) :=
  serve_keepsShape h fun _ hr => ServeShape.ite hr.allocG hr.allocC

theorem State.shapeOk.removeRange {s : State} (h : s.shapeOk) {ctx va n : Nat} : (s.removeRange ctx va n).shapeOk := by
  fun_cases State.removeRange s ctx va n
  case case1 => exact h
  case case2 frames busy t1 t2 _ => exact h.unmapRange
  case case3 frames busy t1 t2 d hd =>
    have ht : t2.shapeOk := h.unmapRange
    exact ht.setCtx

theorem execMemUnmap_keepsShape {sid uid lane : Nat} {s : State} (h : s.shapeOk) : KeepsShape (execMemUnmap sid uid lane s) :=
  serve_keepsShape h fun _ hr => hr.need.bind fun _ _ => hr.need.bind fun _ _ => hr.zeros.bind fun _ _ => hr.state.removeRange

theorem execTagWiden_keepsShape {sid uid lane : Nat} {s : State} (h : s.shapeOk) : KeepsShape (execTagWiden sid uid lane s) :=
  serve_keepsShape h fun _ hr => hr.need.bind fun _ _ => hr.need.bind fun _ _ => hr.need.bind fun _ _ => hr.need.bind fun _ _ =>
    State.shapeOk.ite hr.state.setBlock hr.state.modCluster

/-! ## Baskets, stages and bins (R147, R293, R296, R338) -/

theorem execBasketCreate_keepsShape {sid uid lane : Nat} {s : State} (h : s.shapeOk) : KeepsShape (execBasketCreate sid uid lane s) := by
  refine serve_keepsShape h fun r hr => hr.need.bind fun _ _ => hr.need.bind fun _ _ => hr.need.bind fun _ _ => hr.zeros.bind fun _ _ =>
    ServeShape.ite hr.fail ?_
  have ht {slot : Nat} {f : Basket → Basket} : (r.s.takeWord.2.modBasket r.k.cluster slot f).shapeOk := hr.state.takeWord.modBasket
  exact State.shapeOk.ite (ht.setBlock) ht

theorem execBasketDestroy_keepsShape {sid uid lane : Nat} {s : State} (h : s.shapeOk) : KeepsShape (execBasketDestroy sid uid lane s) :=
  serve_keepsShape h fun _ hr => hr.found.bind fun _ _ => hr.zeros.bind fun _ _ => hr.state.retireBasket

theorem execStageRegister_keepsShape {sid uid lane : Nat} {s : State} (h : s.shapeOk) : KeepsShape (execStageRegister sid uid lane s) :=
  serve_keepsShape h fun _ hr => hr.found.bind fun _ _ => hr.need.bind fun _ _ => hr.need.bind fun _ _ => hr.zeros.bind fun _ _ =>
    ServeShape.ite hr.fail hr.state.takeWord.modCluster

theorem execStageRemove_keepsShape {sid uid lane : Nat} {s : State} (h : s.shapeOk) : KeepsShape (execStageRemove sid uid lane s) :=
  serve_keepsShape h fun _ hr => hr.found.bind fun _ _ => hr.zeros.bind fun _ _ => hr.state.modCluster

theorem execSpawnConfig_keepsShape {sid uid lane : Nat} {s : State} (h : s.shapeOk) : KeepsShape (execSpawnConfig sid uid lane s) :=
  serve_keepsShape h fun _ hr => hr.need.bind fun _ _ => hr.need.bind fun _ _ => hr.zeros.bind fun _ _ => hr.state.modCluster

/-! ## Collective groups and interrupt targets (R283, R358, R360) -/

theorem execCollGroup_keepsShape {sid uid lane : Nat} {s : State} (h : s.shapeOk) : KeepsShape (execCollGroup sid uid lane s) := by
  refine serve_keepsShape h fun _ hr => hr.need.bind fun _ _ => hr.need.bind fun _ _ => hr.read.bind fun _ hx => ?_
  exact ServeShape.ite (Req.shapeOk.fail hx) hx

theorem execUintRegister_keepsShape {sid uid lane : Nat} {s : State} (h : s.shapeOk) : KeepsShape (execUintRegister sid uid lane s) := by
  refine serve_keepsShape h fun _ hr => hr.need.bind fun _ _ => hr.zeros.bind fun _ _ => hr.read.bind fun x hx => ?_
  dsimp only
  split
  · exact Req.shapeOk.fail hx
  · have hn := hx.state.freshNum (used := x.1.s.uints.map (·.handle)) (n := 0xFFFF0000)
    generalize x.1.s.freshNum (x.1.s.uints.map (·.handle)) 0xFFFF0000 = n at hn ⊢
    exact ServeShape.ite (Req.shapeOk.fail hx) hn.takeBit.takeWord

theorem execUintUnregister_keepsShape {sid uid lane : Nat} {s : State} (h : s.shapeOk) : KeepsShape (execUintUnregister sid uid lane s) :=
  serve_keepsShape h fun _ hr => hr.found.bind fun _ _ => hr.zeros.bind fun _ _ => hr.state

theorem execUnlistedCall_keepsShape {sid uid lane : Nat} {s : State} (h : s.shapeOk) : KeepsShape (execUnlistedCall sid uid lane s) :=
  serve_keepsShape h fun _ hr => hr.fail

end Sys2Proof.Machine
end

section
/-! SUPPORT. Files, sockets, egress and storage commands keep the parts (R357 to R359, R401 to R408). -/

namespace Sys2Proof.Machine

-- One proof after another: side by side, they hold more memory than the check of the whole text allows.
set_option Elab.async false

/-! ## Files (R357, R358) -/

theorem Req.shapeOk.string {r : Req} (h : r.shapeOk) {va f : Nat} {set : OSet} :
    ServeShape (fun x : Req × List Byte × OSet => x.1.shapeOk) (r.string va f set) := by
  induction f generalizing r va set with
  | zero => exact h
  | succ f ih => exact h.read.bind fun _ hx => ServeShape.ite hx ((ih hx).bind fun _ hy => hy)

theorem State.shapeOk.putFile {s : State} (h : s.shapeOk) {part ns : Nat} {path data : List Byte} : (s.putFile part ns path data).shapeOk := by
  unfold State.putFile
  split
  · exact h
  · exact h

theorem State.shapeOk.opened {r : Req} {s : State} (hs : s.shapeOk) {d : Desc} {set : OSet} : (r.opened s d set).shapeOk :=
  State.shapeOk.setCtx (State.shapeOk.freshNum hs)

theorem execFileOpen_keepsShape {sid uid lane ext : Nat} {s : State} (h : s.shapeOk) : KeepsShape (execFileOpen sid uid lane ext s) := by
  refine serve_keepsShape h fun _ hr => hr.need.bind fun _ _ => hr.need.bind fun _ _ => hr.string.bind fun x hx => ?_
  dsimp only
  split
  · exact Req.shapeOk.fail hx
  · exact ServeShape.ite (Req.shapeOk.fail hx) (ServeShape.ite (Req.shapeOk.fail hx) (State.shapeOk.opened (hx.state.putFile.ite hx.state)))

theorem Req.shapeOk.desc {r : Req} (h : r.shapeOk) {file : Bool} : ServeShape (fun _ => True) (r.desc file) := by
  unfold Req.desc
  split
  · trivial
  · exact h.fail

theorem Req.shapeOk.submit {r : Req} (h : r.shapeOk) {d : Desc} {read : Bool} {data : List Byte} {ps : List Part} {off : Nat} {set : OSet}
    {ext : Nat} : (r.submit d read data ps off set ext).shapeOk := h.state.takeBit

theorem Req.shapeOk.ioRecord {r : Req} (h : r.shapeOk) : ServeShape (fun x : Req × Nat × List Byte × OSet => x.1.shapeOk) r.ioRecord :=
  h.read.bind fun _ hx => hx

theorem execFileRead_keepsShape {sid uid lane ext : Nat} {s : State} (h : s.shapeOk) : KeepsShape (execFileRead sid uid lane ext s) := by
  refine serve_keepsShape h fun r hr => ?_
  extract_lets jp
  have hjp : ∀ u, ServeShape Ans.shapeOk (jp u) := fun _ =>
    hr.desc.bind fun _ _ => hr.need.bind fun _ _ => hr.need.bind fun _ _ => hr.ioRecord.bind fun _ hx => hx.reach.bind fun _ hy =>
      ServeShape.ite (Req.shapeOk.fail hy) (Req.shapeOk.submit hy)
  exact ServeShape.ite trivial (hjp ())

theorem Req.shapeOk.refuse {α : Type} {P : α → Prop} {r : Req} (h : r.shapeOk) {detail : Nat} {set : OSet} :
    ServeShape P (r.refuse detail set) := State.shapeOk.modPart (s := r.s) h

theorem execFileWrite_keepsShape {sid uid lane ext : Nat} {s : State} (h : s.shapeOk) : KeepsShape (execFileWrite sid uid lane ext s) := by
  refine serve_keepsShape h fun r hr => ?_
  extract_lets jp
  have hjp : ∀ u, ServeShape Ans.shapeOk (jp u) := fun _ =>
    hr.desc.bind fun _ _ => hr.need.bind fun _ _ => hr.need.bind fun _ _ => hr.ioRecord.bind fun _ hx => hx.read.bind fun _ hy =>
      hy.reach.bind fun _ hz => ServeShape.ite (Req.shapeOk.refuse hz) (Req.shapeOk.submit hz)
  exact ServeShape.ite trivial (hjp ())

theorem Req.shapeOk.close {r : Req} (h : r.shapeOk) {d : Desc} : (r.close d).shapeOk := State.shapeOk.setCtx h.state

theorem execFileClose_keepsShape {sid uid lane : Nat} {s : State} (h : s.shapeOk) : KeepsShape (execFileClose sid uid lane s) :=
  serve_keepsShape h fun _ hr => hr.desc.bind fun _ _ => hr.zeros.bind fun _ _ => hr.close

/-! ## Storage commands (R401, R402) -/

theorem State.shapeOk.zeroFrame {s : State} (h : s.shapeOk) {f : Nat} : (s.zeroFrame f).shapeOk := h

theorem State.shapeOk.releaseFrames {s : State} (h : s.shapeOk) {c : Nvme} : (s.releaseFrames c).shapeOk := by
  have ht {l : List Nat} : (l.foldl State.zeroFrame s).shapeOk := h.foldl fun _ _ hu => hu.zeroFrame
  exact h.ite (by exact ht.modPart)

theorem State.shapeOk.pokeAll {s : State} (h : s.shapeOk) {l : List (Loc × Byte)} : (l.foldl (fun t x => t.poke x.1 x.2) s).shapeOk :=
  h.foldl fun _ _ ht => ht.poke

theorem State.shapeOk.transfer {s : State} (h : s.shapeOk) {c : Nvme} : (s.transfer c).shapeOk := by
  have hf {n : Nat} : ({ s with free := s.free + n } : State).shapeOk := h
  exact h.ite (h.pokeAll.mend.ite hf.putFile)

theorem State.shapeOk.answerAt {s : State} (h : s.shapeOk) {caller : Nat × Nat × Nat × Nat} {num : Nat} {vals : List Nat} {set : OSet} :
    (s.answerAt caller num vals set).shapeOk := by
  unfold State.answerAt
  dsimp only
  split
  · exact h.answer
  · exact h

theorem State.shapeOk.answerCaller {s : State} (h : s.shapeOk) {c : Nvme} : (s.answerCaller c).shapeOk := h.answerAt

theorem State.shapeOk.endNvme {s : State} (h : s.shapeOk) {c : Nvme} : (s.endNvme c).shapeOk := by
  have ht : ({ s with nvme := s.nvme.filter (·.id != c.id) } : State).shapeOk := h
  exact h.ite (ht.transfer.releaseFrames.answerCaller.ite ht.transfer.releaseFrames)

theorem execNvmeCompletion_keepsShape {cmd : Nat} {s : State} (h : s.shapeOk) : KeepsShape (execNvmeCompletion cmd s) := by
  refine keepsShape_next ?_
  split
  · exact h
  · exact h.ite h.endNvme

theorem State.shapeOk.lostStatus {s : State} (h : s.shapeOk) : s.lostStatus.2.shapeOk := h

theorem State.shapeOk.abortLate {s : State} (h : s.shapeOk) {cmd : Nat} {b : Bool} : (s.abortLate cmd b).shapeOk := by
  unfold State.abortLate
  split
  · exact h
  · have hm {l : List Nvme} : ({ s with nvme := l } : State).shapeOk := h
    exact h.ite (hm.ite h.lostStatus.endNvme)

theorem execNvmeAbortTimeout_keepsShape {cmd : Nat} {b : Bool} {s : State} (h : s.shapeOk) : KeepsShape (execNvmeAbortTimeout cmd b s) :=
  keepsShape_next h.abortLate

theorem State.shapeOk.endReset {s : State} (h : s.shapeOk) {ctrl : Nat} : (s.endReset ctrl).shapeOk :=
  h.foldl fun _ _ ht => ht.lostStatus.endNvme

theorem execControllerResetComplete_keepsShape {ctrl : Nat} {s : State} (h : s.shapeOk) : KeepsShape (execControllerResetComplete ctrl s) :=
  keepsShape_next h.endReset

/-! ## Sockets and egress (R357, R403 to R408) -/

theorem execSockCreate_keepsShape {sid uid lane ext : Nat} {s : State} (h : s.shapeOk) : KeepsShape (execSockCreate sid uid lane ext s) :=
  serve_keepsShape h fun _ hr => hr.need.bind fun _ _ => hr.need.bind fun _ _ => hr.need.bind fun _ _ => hr.read.bind fun _ hx =>
    ServeShape.ite (Req.shapeOk.fail hx) (ServeShape.ite (Req.shapeOk.fail hx) hx.state.opened)

theorem State.shapeOk.leave {s : State} (h : s.shapeOk) {part dest off : Nat} {data : List Byte} : (s.leave part dest off data).shapeOk := h

theorem execSockSend_keepsShape {sid uid lane ext : Nat} {s : State} (h : s.shapeOk) : KeepsShape (execSockSend sid uid lane ext s) := by
  refine serve_keepsShape h fun _ hr => hr.desc.bind fun _ _ => hr.need.bind fun _ _ => hr.read.bind fun x hx => ?_
  dsimp only
  split
  · exact Req.shapeOk.refuse hx
  · exact ServeShape.ite (Req.shapeOk.fail hx) (State.shapeOk.leave hx.state)

theorem Req.shapeOk.receive {r : Req} (h : r.shapeOk) {data : List Byte} : ServeShape Ans.shapeOk (r.receive data) :=
  h.desc.bind fun _ _ => h.need.bind fun _ _ => h.reach.bind fun _ hx => ServeShape.ite (Req.shapeOk.fail hx) (State.shapeOk.svcWrite hx.state)

theorem execSockRecv_keepsShape {sid uid lane : Nat} {data : List (BitVec 8)} {s : State} (h : s.shapeOk) :
    KeepsShape (execSockRecv sid uid lane data s) := by
  refine keepsShape_next ?_
  split
  · exact h
  · next r hr =>
    have hheld {l : List Outside} : ({ s with heldOutside := l } : State).shapeOk := h
    exact h.ite (finish_getD_shapeOk hheld (h.request hr).receive)

theorem State.shapeOk.receiveHeld {s t : State} (h : s.shapeOk) {caller : Nat × Nat × Nat × Nat} {data : List Byte}
    (e : s.receiveHeld caller data = some t) : t.shapeOk := by
  unfold State.receiveHeld at e
  split at e
  · cases e; exact h
  · next r hr =>
    have ha := (h.waiting hr).receive (data := data)
    split at e
    · next he => cases e; rw [he] at ha; exact State.shapeOk.answerAt ha
    · next he => cases e; rw [he] at ha; exact State.shapeOk.answerAt ha
    · cases e

theorem execSockClose_keepsShape {sid uid lane : Nat} {s : State} (h : s.shapeOk) : KeepsShape (execSockClose sid uid lane s) :=
  serve_keepsShape h fun _ hr => hr.desc.bind fun _ _ => hr.zeros.bind fun _ _ => hr.close

theorem State.shapeOk.spend {s : State} (h : s.shapeOk) {part id n : Nat} : (s.spend part id n).shapeOk := h.modPart

theorem State.shapeOk.deliver {s : State} (h : s.shapeOk) {part dest off : Nat} {data : List Byte} : (s.deliver part dest off data).shapeOk :=
  State.shapeOk.pokeAll h.leave

theorem execEgress_keepsShape {sid uid lane ext : Nat} {s : State} (h : s.shapeOk) : KeepsShape (execEgress sid uid lane ext s) := by
  refine serve_keepsShape h fun r hr => hr.need.bind fun _ _ => hr.ioRecord.bind fun x hx => hx.read.bind fun y hy => ?_
  dsimp only
  split
  · exact Req.shapeOk.refuse hy
  · have ht {c : Prop} [Decidable c] {part id n : Nat} : (if c then y.1.s else y.1.s.spend part id n).shapeOk := hy.state.ite hy.state.spend
    exact ServeShape.ite trivial (ServeShape.ite (State.shapeOk.deliver ht) ht)

end Sys2Proof.Machine
end

section
/-! SUPPORT. Batches, the Mangle, placement and the sorter keep the parts. -/

namespace Sys2Proof.Machine

-- One proof after another: side by side, they hold more memory than the check of the whole text allows.
set_option Elab.async false

/-! ## Batches and the format register (R276, R277, R314 to R317, R324 to R326) -/

theorem execClose_keepsShape {x : BitVec 8} {cls : BitVec 3} {la : BitVec 4} {s : State} (h : s.shapeOk) : KeepsShape (execClose x cls la s) :=
  issue_keepsShape h fun _ hx => hx.operands.bind fun _ hy => ResShape.ite hy <| ResShape.ite trivial hy.put

theorem batch_shape {i : Iss} {y cls : Nat} : ResShape (fun _ => True) (i.batch y cls) := ResShape.ite trivial (ResShape.ite trivial trivial)

theorem execWaitb_keepsShape {y : BitVec 8} {cls : BitVec 3} {s : State} (h : s.shapeOk) : KeepsShape (execWaitb y cls s) := by
  refine issue_keepsShape h fun _ hx => hx.operands.bind fun _ hy => batch_shape.bind fun b _ => ?_
  split
  · exact hy
  · exact State.shapeOk.acquire hy
  · exact hy.put

theorem execTestb_keepsShape {x y : BitVec 8} {cls : BitVec 3} {la : BitVec 4} {s : State} (h : s.shapeOk) : KeepsShape (execTestb x y cls la s) := by
  refine issue_keepsShape h fun _ hx => hx.operands.bind fun _ hy => batch_shape.bind fun b _ => ?_
  split
  · exact hy
  · exact State.shapeOk.ite (State.shapeOk.acquire hy.put) hy.put

theorem execWaitbReturn_keepsShape {sid uid : Nat} {s : State} (h : s.shapeOk) : KeepsShape (execWaitbReturn sid uid s) := by
  refine keepsShape_next ?_
  split
  · exact h
  · split
    · exact h.setSkein.acquire.ite h
    · exact h

theorem execSetfr_keepsShape {y : BitVec 8} {s : State} (h : s.shapeOk) : KeepsShape (execSetfr y s) :=
  issue_keepsShape h fun _ hx => hx.operands.bind fun _ hy => ResShape.ite hy <| need_shape.bind fun _ _ => hy.put

theorem execGetfr_keepsShape {x : BitVec 8} {la : BitVec 4} {s : State} (h : s.shapeOk) : KeepsShape (execGetfr x la s) :=
  issue_keepsShape h fun _ hx => hx.operands.bind fun _ hy => State.shapeOk.ite hy hy.put

/-! ## Claims and commands of the Mangle (R285 to R292, R305 to R313) -/

theorem mbay_keepsShape {z : Instr} {x y : BitVec 8} {la : BitVec 4} {acc : Bool} {s : State} (h : s.shapeOk) : KeepsShape (mbay z x y la acc s) := by
  refine issue_keepsShape h fun _ hx => ResShape.ite hx <| hx.operands.bind fun j hy => need_shape.bind fun _ _ => ?_
  dsimp only
  split
  · exact State.shapeOk.setBlock hy.put
  · exact hy.put

theorem mfree_keepsShape {z : Instr} {x y : BitVec 8} {acc : Bool} {s : State} (h : s.shapeOk) : KeepsShape (mfree z x y acc s) :=
  issue_keepsShape h fun _ hx => ResShape.ite hx <| hx.operands.bind fun _ hy => need_shape.bind fun _ _ => State.shapeOk.setBlock hy

theorem State.shapeOk.returnClaims {s : State} (h : s.shapeOk) {k : Skein} : (s.returnClaims k).shapeOk :=
  h.ite (by exact h)

theorem mangleOp_keepsShape {z : Instr} {x : Nat} {regs : List (Nat × Nat)} {s : State} {body : Iss → Res State} (h : s.shapeOk)
    (hb : ∀ i : Iss, i.shapeOk → ResShape State.shapeOk (body i)) : KeepsShape (mangleOp z x regs s body) :=
  issue_keepsShape h fun _ hx => ResShape.ite hx <| ResShape.ite trivial <| hx.operands.bind hb

theorem State.shapeOk.queueM {s : State} (h : s.shapeOk) {k : Skein} {c : MCmd} : (s.queueM k c).shapeOk :=
  State.shapeOk.meetErrors (core := k.coreId) (moment := s.nextId) h

theorem Iss.shapeOk.enqueue {i : Iss} (h : i.shapeOk) {kind : MKind} {set : OSet} {spaces : List Space} {srcs : List Loc} {pages : List Nat} :
    ResShape Iss.shapeOk (i.enqueue kind set spaces srcs pages) :=
  h.releaseAt.bind fun _ hj => State.shapeOk.queueM hj

theorem Iss.shapeOk.setBay {i : Iss} (h : i.shapeOk) {n : Nat} {set : OSet} : (i.setBay n set).shapeOk :=
  State.shapeOk.setBlock h

theorem Iss.shapeOk.setTile {i : Iss} (h : i.shapeOk) {n : Nat} {set : OSet} : (i.setTile n set).shapeOk :=
  State.shapeOk.setBlock h

theorem execMwload_keepsShape {x : BitVec 8} {s : State} (h : s.shapeOk) : KeepsShape (execMwload x s) :=
  mangleOp_keepsShape h fun _ hi => need_shape.bind fun _ _ => region_shape.bind fun _ _ => region_shape.bind fun _ _ =>
    hi.enqueue.bind fun _ hj => hj.setBay

theorem execMma_keepsShape {x : BitVec 8} {s : State} (h : s.shapeOk) : KeepsShape (execMma x s) :=
  mangleOp_keepsShape h fun _ hi => need_shape.bind fun _ _ => regions_shape.bind fun _ _ => hi.enqueue.bind fun _ hj => hj.setTile

theorem execMdrain_keepsShape {x : BitVec 8} {s : State} (h : s.shapeOk) : KeepsShape (execMdrain x s) :=
  mangleOp_keepsShape h fun _ hi => need_shape.bind fun _ _ => regions_shape.bind fun _ _ => need_shape.bind fun _ _ =>
    hi.enqueue.bind fun _ hj => State.shapeOk.ite hj.put hj

theorem execMzero_keepsShape {x : BitVec 8} {s : State} (h : s.shapeOk) : KeepsShape (execMzero x s) :=
  mangleOp_keepsShape h fun _ hi => need_shape.bind fun _ _ => hi.enqueue.bind fun _ hj => hj.setTile

theorem execMangleCommandStart_keepsShape {cl : Nat} {s : State} (h : s.shapeOk) : KeepsShape (execMangleCommandStart cl s) := by
  refine keepsShape_next ?_
  split
  · exact h
  · split
    · exact h
    · exact h.setSkein.modCluster

theorem State.shapeOk.performM {s : State} (h : s.shapeOk) {k : Skein} {c : MCmd} : (s.performM k c).shapeOk := by
  unfold State.performM
  dsimp only
  split
  · exact h.setBlock.modCluster
  · exact h.setBlock.modCluster
  · exact State.shapeOk.mend (h.foldl fun _ _ ht => ht.pokes)
  · exact h.setBlock

theorem State.shapeOk.faultM {s : State} (h : s.shapeOk) {k : Skein} {c : MCmd} : (s.faultM k c).1.shapeOk := by
  unfold State.faultM
  split
  · exact h.countError
  · exact h

theorem State.shapeOk.completeM {s : State} (h : s.shapeOk) {k : Skein} : (s.completeM k).shapeOk := by
  unfold State.completeM
  split
  · exact h
  · next c rest _ =>
    have hf : (s.faultM k c).1.shapeOk := h.faultM
    split
    · dsimp only
      split
      · exact hf.performM.setSkein
      · exact hf.setSkein.commandFault
    · exact h

theorem execMangleCommandComplete_keepsShape {sid : Nat} {s : State} (h : s.shapeOk) : KeepsShape (execMangleCommandComplete sid s) := by
  refine keepsShape_next ?_
  split
  · exact h
  · exact h.completeM

/-! ## Dependencies, placement, bins and the sorter (R147, R333 to R339) -/

theorem State.shapeOk.depBit {s t : State} (h : s.shapeOk) {g : Grid} {j : Nat} {code : BitVec 16} (e : s.depBit g j = .error (code, t)) :
    t.shapeOk := by
  unfold State.depBit at e
  split at e
  · cases e
  · split at e
    · cases e; exact h
    · split at e
      · cases e
      · split at e
        · cases e; exact h.outsideError
        · cases e

theorem execDependencyPoll_keepsShape {grid blk : Nat} {s : State} (h : s.shapeOk) : KeepsShape (execDependencyPoll grid blk s) := by
  refine keepsShape_next ?_
  split
  · exact h
  · refine h.ite ?_
    split
    · exact h
    · split
      · next e => exact (h.depBit e).endContext
      · exact h
      · exact h.setGrid

theorem State.shapeOk.place {s : State} (h : s.shapeOk) {g : Grid} {blk core : Nat} {threads : Option Spawned} :
    (s.place g blk threads core).shapeOk := h.modCore

theorem State.shapeOk.placeFirst {s : State} (h : s.shapeOk) {cl : Nat} {ps : List Placeable} : (s.placeFirst cl ps).shapeOk := by
  fun_induction State.placeFirst s cl ps
  case case3 => exact h.place
  all_goals assumption

theorem execBlockPlacement_keepsShape {cl : Nat} {s : State} (h : s.shapeOk) : KeepsShape (execBlockPlacement cl s) :=
  keepsShape_next (h.placeFirst.ite h)

theorem State.shapeOk.binTimer {s : State} (h : s.shapeOk) {cl bin : Nat} : (s.binTimer cl bin).shapeOk := by
  unfold State.binTimer
  split
  · exact h
  · exact h.launchBin.ite h

theorem execSpawnBinTimer_keepsShape {cl bin : Nat} {s : State} (h : s.shapeOk) : KeepsShape (execSpawnBinTimer cl bin s) := keepsShape_next h.binTimer

theorem State.shapeOk.reassign {s : State} (h : s.shapeOk) {cl n : Nat} : (s.reassign cl n).shapeOk := by
  refine h.ite ?_
  split
  · exact h
  · exact h.popEnds

theorem execSorterSample_keepsShape {cl : Nat} {s : State} (h : s.shapeOk) : KeepsShape (execSorterSample cl s) :=
  keepsShape_next (State.shapeOk.foldl h.modCluster fun _ _ ht => ht.reassign)

end Sys2Proof.Machine
end

section
/-! SUPPORT. Pre-emption keeps the parts (R362 to R372). -/

namespace Sys2Proof.Machine

-- One proof after another: side by side, they hold more memory than the check of the whole text allows.
set_option Elab.async false

/-! ## Requests and stops (R362, R364) -/

theorem State.shapeOk.stopHere {s : State} (h : s.shapeOk) {k : Skein} : (s.stopHere k).shapeOk := by
  unfold State.stopHere
  split
  · exact h
  · exact h.takeStop

theorem State.shapeOk.stopStuck {s : State} (h : s.shapeOk) {sid : Nat} : (s.stopStuck sid).shapeOk := by
  unfold State.stopStuck
  split
  · exact h
  · exact h.ite h.stopHere

theorem State.shapeOk.stopAllStuck {s : State} (h : s.shapeOk) {ctx cl : Nat} : (s.stopAllStuck ctx cl).shapeOk :=
  h.foldl fun _ _ ht => ht.stopStuck

theorem execTimeSliceEnd_keepsShape {ctx : Nat} {s : State} (h : s.shapeOk) : KeepsShape (execTimeSliceEnd ctx s) := by
  refine keepsShape_next ?_
  split
  · exact h
  · next c hc => exact h.ite (State.shapeOk.foldl h.setCtx fun _ _ ht => ht.modCluster.stopAllStuck)

/-! ## Drain and save (R366 to R368, R372) -/

theorem State.shapeOk.menderError {s : State} (h : s.shapeOk) {ctx : Nat} {l : Loc} : (s.menderError ctx l).shapeOk :=
  State.shapeOk.endContext h.outsideError

theorem State.shapeOk.save {s : State} (h : s.shapeOk) {c : Context} {cl : Nat} : (s.save c cl).shapeOk := by
  unfold State.save
  extract_lets q mine
  split
  · exact h.menderError
  · have ht : ({ s with
        skeins := s.skeins.filter fun k => !k.isOn c.id cl,
        blocks := s.blocks.filter fun b => !(b.ctx == c.id && b.cluster == cl) } : State).shapeOk :=
      h
    exact State.shapeOk.modCluster (State.shapeOk.setCtx (ht.foldl fun _ _ hu => hu.freeParks))

theorem execEngineDrain_keepsShape {ctx cl : Nat} {s : State} (h : s.shapeOk) : KeepsShape (execEngineDrain ctx cl s) := by
  refine keepsShape_next ?_
  split
  · exact h
  · refine h.ite ?_
    split
    · have ht : (s.stopAllStuck ctx cl).shapeOk := h.stopAllStuck
      refine ht.ite (State.shapeOk.modCtx ?_)
      exact ht
    · exact h.ite (h.save)
    all_goals exact h

theorem execGraceDeadline_keepsShape {ctx cl : Nat} {s : State} (h : s.shapeOk) : KeepsShape (execGraceDeadline ctx cl s) := by
  refine keepsShape_next ?_
  split
  · exact h
  · next c hc => exact State.shapeOk.ite h.setCtx h

theorem execWatchdog_keepsShape {ctx cl : Nat} {s : State} (h : s.shapeOk) : KeepsShape (execWatchdog ctx cl s) := by
  refine keepsShape_next ?_
  split
  · exact h
  · exact h.endContext.ite h

/-! ## Resumption (R369, R370) -/

theorem State.shapeOk.reloadPlace {s : State} (h : s.shapeOk) {ctx cl va n : Nat} {inC : Bool} {x : State × List Loc × OSet}
    (e : s.reloadPlace ctx cl inC va n = .ok x) : x.1.shapeOk := by
  unfold State.reloadPlace at e
  split at e
  · cases e; exact h
  · split at e
    · cases e
    · next ht => cases e; exact h.svcPieces ht

/-- What the reload of bays gives: the state, or the state with an error counted. -/
def ReloadShape {α : Type} : Except (BitVec 16 × State) (State × α) → Prop
  | .ok x => x.1.shapeOk
  | .error x => x.2.shapeOk

theorem State.shapeOk.reloadSource {s : State} (h : s.shapeOk) {ctx cl va n : Nat} {inC : Bool} :
    ReloadShape (s.reloadSource ctx cl inC va n) := by
  unfold State.reloadSource
  split
  · exact h
  · next e =>
    have ht := h.reloadPlace e
    split
    · exact State.shapeOk.countError ht
    · exact ht

theorem State.shapeOk.reloadBay {s : State} (h : s.shapeOk) {ctx cl : Nat} {b : Bay} : ReloadShape (s.reloadBay ctx cl b) := by
  unfold State.reloadBay
  split
  · exact h
  · next w sc wc scc fmt grp _ =>
    have h1 := h.reloadSource (ctx := ctx) (cl := cl) (inC := wc) (va := w) (n := weightBytes fmt)
    split
    · next e => rw [e] at h1; exact h1
    · next t ws x e =>
      rw [e] at h1
      have h2 := State.shapeOk.reloadSource h1 (ctx := ctx) (cl := cl) (inC := scc) (va := sc) (n := scaleBytes grp)
      split
      · next e => rw [e] at h2; exact h2
      · next e => rw [e] at h2; exact State.shapeOk.modCluster h2

theorem State.shapeOk.reloadBays {s : State} (h : s.shapeOk) {ctx cl : Nat} {bs : List Bay} : ReloadShape (s.reloadBays ctx cl bs) := by
  induction bs generalizing s with
  | nil => exact h
  | cons b bs ih =>
    have h1 := h.reloadBay (ctx := ctx) (cl := cl) (b := b)
    unfold State.reloadBays
    split
    · next e => rw [e] at h1; exact h1
    · next e =>
      rw [e] at h1
      have h2 := ih h1
      split
      · next e => rw [e] at h2; exact h2
      · next e => rw [e] at h2; exact h2

theorem State.shapeOk.requeue {s : State} (h : s.shapeOk) {sid : Nat} {c : MCmd} : (s.requeue sid c).shapeOk := by
  unfold State.requeue
  split
  · exact h
  · exact h.queueM

theorem State.shapeOk.restart {s : State} (h : s.shapeOk) {sid : Nat} : (s.restart sid).shapeOk := by
  unfold State.restart
  split
  · exact h
  · split
    · exact h
    · refine h.ite ?_
      split
      · exact h.menderError
      · dsimp only
        split
        · exact h.resumeSkein
        · exact h.resumeSkein.setSkein.recheckPops

theorem State.shapeOk.restoreBlock {s : State} (h : s.shapeOk) {c : Context} {b : Block} {core : Nat} :
    (s.restoreBlock c b core).shapeOk := by
  have h1 := h.reloadBays (ctx := c.id) (cl := b.cluster) (bs := b.bays)
  unfold State.restoreBlock
  split
  · next e => rw [e] at h1; exact State.shapeOk.endContext h1
  · next t bays e =>
    rw [e] at h1
    have ht : t.shapeOk := h1
    extract_lets slots b1 mine id move rename u v w x y
    have hv : v.shapeOk := ht
    have hw : w.shapeOk := hv.modCluster
    have hx : x.shapeOk := hw.modCore
    have hy : y.shapeOk := hx.foldl fun _ k hz => hz.foldl fun _ _ ha => ha.requeue
    exact hy.foldl fun _ _ hz => hz.restart

theorem State.shapeOk.restoreBlocks {s : State} (h : s.shapeOk) {id cl : Nat} {bs : List Block} :
    (s.restoreBlocks id cl bs).1.shapeOk := by
  induction bs generalizing s with
  | nil => exact h
  | cons b bs ih =>
    unfold State.restoreBlocks
    split
    · extract_lets shape
      split
      · exact ih h.restoreBlock
      · exact ih h
    · exact ih h

theorem execContextResume_keepsShape {ctx cl : Nat} {s : State} (h : s.shapeOk) : KeepsShape (execContextResume ctx cl s) := by
  refine keepsShape_next ?_
  split
  · exact h
  · refine h.ite ?_
    extract_lets bs r back phase done t
    have hr : r.1.shapeOk := h.restoreBlocks
    have ht : t.shapeOk := hr.modCtx
    exact State.shapeOk.ite ht ht

/-! ## Dropped blocks (R371) -/

theorem State.shapeOk.stopNow {s : State} (h : s.shapeOk) {sid : Nat} : (s.stopNow sid).shapeOk := by
  unfold State.stopNow
  split
  · exact h
  · exact h.ite h.stopHere

theorem execBlockDrop_keepsShape {grid blk : Nat} {s : State} (h : s.shapeOk) : KeepsShape (execBlockDrop grid blk s) := by
  refine keepsShape_next ?_
  split
  · next b g _ _ =>
    refine h.ite ?_
    extract_lets mine t u v
    have ht : t.shapeOk := h.foldl fun _ _ hx => hx.stopNow
    have hu : u.shapeOk := ht
    have hv : v.shapeOk := hu.freeBlock.setGrid
    refine hu.ite (hv.ite ?_)
    split
    · exact hv
    · exact hv.save.ite hv
  · exact h

end Sys2Proof.Machine
end

section
/-! SUPPORT. The boot sequence leaves the parts (R430). -/

namespace Sys2Proof.Machine

-- One proof after another: side by side, they hold more memory than the check of the whole text allows.
set_option Elab.async false

theorem State.shapeOk.mapShared {s : State} (h : s.shapeOk) {ctx : Nat} {r : Region} : (s.mapShared ctx r).shapeOk :=
  h.foldl fun _ _ ht => ht.mapEntry

theorem State.shapeOk.newContext {s : State} (h : s.shapeOk) {part tenant : Nat} {mask : OSet} {clusters : List Nat} {vf domain : Option Nat}
    {shared : List Region} {x : Nat × State} (e : s.newContext part tenant mask clusters vf domain shared = some x) : x.2.shapeOk := by
  obtain ⟨f, _, rfl⟩ := Option.map_eq_some_iff.mp e
  exact State.shapeOk.foldl (by exact h) fun _ _ ht => ht.mapShared

theorem State.shapeOk.bootContext {s : State} (h : s.shapeOk) {ports : List Nat} {c : CtxConfig} : (s.bootContext ports c).shapeOk := by
  unfold State.bootContext
  extract_lets cls host bind
  have hbind : ∀ v f t, bind = some (v, f, t) → t.shapeOk := by
    intro v f t hb
    obtain ⟨w, _, hw⟩ := Option.bind_eq_some_iff.mp hb
    split at hw
    · cases hw
    · obtain ⟨y, hy, e⟩ := Option.map_eq_some_iff.mp hw
      cases e
      exact h.freeFrames hy
  generalize bind = b at hbind
  split
  · cases e : s.newContext c.part c.tenant c.readMask cls none c.domain host with
    | none => exact h
    | some x => exact h.newContext e
  · next v f t =>
    have ht : t.shapeOk := hbind v f t rfl
    extract_lets win
    cases e : t.newContext c.part c.tenant c.readMask cls (some v.id) c.domain (win ++ host) with
    | none => exact h
    | some x => exact State.shapeOk.newContext ht e

theorem State.reset_shapeOk : State.reset.shapeOk :=
  ⟨List.length_replicate, List.length_replicate, List.length_replicate, List.length_replicate⟩

theorem length_bootClusters {cfg : BootConfig} {free : Nat} : (bootClusters cfg free).length = 192 :=
  (List.length_map _).trans List.length_range

/-- Finwesin creates no more partitions than there are (R398). -/
theorem length_le_of_bootPartitionsOk {cfg : BootConfig} (h : bootPartitionsOk cfg = true) : cfg.partitions.length ≤ 16 := by
  simp only [bootPartitionsOk, Bool.and_eq_true, decide_eq_true_eq] at h
  omega

theorem State.shapeOk.boot {s : State} {cfg : BootConfig} : (s.boot cfg).shapeOk := by
  obtain ⟨hcl, hco, hdi, hpa⟩ := State.reset_shapeOk
  unfold State.boot
  extract_lets base dies hbm src parts t u
  refine State.shapeOk.ite ⟨hcl, hco, hdi, hpa⟩ (State.shapeOk.ite ⟨hcl, hco, hdi, hpa⟩ ?_)
  split
  · exact ⟨length_bootClusters, hco, hdi, hpa⟩
  · next hok =>
    have hle := length_le_of_bootPartitionsOk (by simpa using hok)
    have ht : t.shapeOk := by
      refine ⟨length_bootClusters, hco, hdi, ?_⟩
      show (parts ++ List.replicate (16 - parts.length) Partition.reset).length = 16
      have hparts : parts.length = cfg.partitions.length := List.length_map _
      rw [List.length_append, List.length_replicate]
      omega
    have hu : u.shapeOk := ht.foldl fun _ _ hx => hx.bootContext
    exact State.shapeOk.refreshFlags (by exact hu)

theorem execModuleReset_keepsShape {cfg : BootConfig} {s : State} : KeepsShape (execModuleReset cfg s) := keepsShape_next State.shapeOk.boot

end Sys2Proof.Machine
end

section
/-! SUPPORT. Hosts, the processor chiplet, submissions and loads keep the parts (R387 to R400, R423). -/

namespace Sys2Proof.Machine

-- One proof after another: side by side, they hold more memory than the check of the whole text allows.
set_option Elab.async false

/-! ## Requests (R390 to R393) -/

/-- A state, if there is one, has all its parts. -/
def MaybeShape : Option State → Prop
  | some t => t.shapeOk
  | none => True

theorem MaybeShape.ite {x y : Option State} {c : Prop} [Decidable c] (hx : MaybeShape x) (hy : MaybeShape y) : MaybeShape (if c then x else y) := by
  split
  · exact hx
  · exact hy

theorem MaybeShape.of_some {o : Option State} (h : MaybeShape o) {t : State} (e : o = some t) : t.shapeOk := by
  rw [e] at h
  exact h

theorem MaybeShape.getD {o : Option State} (ho : MaybeShape o) {s : State} (h : s.shapeOk) : (o.getD s).shapeOk := by
  cases o with
  | none => exact h
  | some t => exact ho

theorem execQueueNotify_keepsShape {vf q : Nat} {chains : List Chain} {s : State} (h : s.shapeOk) : KeepsShape (execQueueNotify vf q chains s) := by
  refine keepsShape_next ?_
  split
  · exact h
  · exact h.ite (h.setVf.ite (h.setVf.ite h))

theorem request_keepsShape {want : Option Nat} {vf : Nat} {s : State} {body : State → VF → Context → Nat → Chain → Option State} (h : s.shapeOk)
    (hb : ∀ t v x n c, t.shapeOk → MaybeShape (body t v x n c)) : KeepsShape (request want vf s body) := by
  refine keepsShape_next ?_
  split
  · exact h
  · split
    · refine h.ite ?_
      dsimp only
      split
      · exact (State.shapeOk.respond h.setVf).ite h
      · exact (hb _ _ _ _ _ h.setVf).getD h
    · exact h

theorem State.shapeOk.submitDesc {s : State} (h : s.shapeOk) {v : VF} {x : Context} {n pa : Nat} : (s.submitDesc v x n pa).shapeOk := by
  unfold State.submitDesc
  refine h.respond.endContext.ite ?_
  split
  · exact State.shapeOk.endContext (State.shapeOk.respond h.outsideError)
  · split
    · exact h.modPart.respond
    · exact h.accept.refreshFlags

theorem execSubmit_keepsShape {vf : Nat} {s : State} (h : s.shapeOk) : KeepsShape (execSubmit vf s) := by
  refine request_keepsShape h fun t v x n c ht => ?_
  dsimp only
  split
  · exact ht.respond
  · exact MaybeShape.ite ht.respond (MaybeShape.ite trivial ht.submitDesc)

theorem State.shapeOk.ioGrow {s : State} (h : s.shapeOk) {ps : List (Nat × Nat)} : (s.ioGrow ps).shapeOk := h

theorem execMapReq_keepsShape {vf : Nat} {s : State} (h : s.shapeOk) : KeepsShape (execMapReq vf s) := by
  refine request_keepsShape h fun t v x n c ht => ?_
  dsimp only
  split
  · exact ht.respond
  · refine MaybeShape.ite trivial (MaybeShape.ite ht.respond ?_)
    exact State.shapeOk.respond (State.shapeOk.mapRange (State.shapeOk.setCtx ht.ioGrow))

theorem execUnmapReq_keepsShape {vf : Nat} {s : State} (h : s.shapeOk) : KeepsShape (execUnmapReq vf s) := by
  refine request_keepsShape h fun t v x n c ht => ?_
  dsimp only
  split
  · exact ht.respond
  · exact MaybeShape.ite trivial ht.removeRange.modCtx.respond

theorem execUireg_keepsShape {vf : Nat} {s : State} (h : s.shapeOk) : KeepsShape (execUireg vf s) := by
  refine request_keepsShape h fun t v x n c ht => ?_
  dsimp only
  split
  · exact ht.respond
  · have hn := ht.freshNum (used := t.uints.map (·.handle)) (n := 2 ^ 32)
    generalize t.freshNum (t.uints.map (·.handle)) (2 ^ 32) = m at hn ⊢
    exact State.shapeOk.respond (by exact hn)

theorem execUiunreg_keepsShape {vf : Nat} {s : State} (h : s.shapeOk) : KeepsShape (execUiunreg vf s) := by
  refine request_keepsShape h fun t v x n c ht => ?_
  dsimp only
  split
  · exact ht.respond
  · exact State.shapeOk.respond (by exact ht)

theorem execInvalidRequest_keepsShape {vf : Nat} {s : State} (h : s.shapeOk) : KeepsShape (execInvalidRequest vf s) :=
  request_keepsShape h fun _ _ _ _ _ ht => ht.respond

/-! ## Resets (R399) -/

theorem State.shapeOk.freshWindow {s : State} (h : s.shapeOk) {v : VF} {rs : List Region} : (s.freshWindow v rs).1.shapeOk := by
  unfold State.freshWindow
  extract_lets win base hit
  split
  · next e =>
    split at e
    · exact h.freeFrames e
    · cases e
  · exact h

theorem State.shapeOk.resetVf {s : State} (h : s.shapeOk) {vf : Nat} : (s.resetVf vf).shapeOk := by
  unfold State.resetVf
  split
  · exact h
  · next v _ =>
    split
    · exact h
    · next c _ =>
      extract_lets t1 t2 t3 t4 t5 t6 fail mine t7 t8 w r u
      have h2 : t2.shapeOk := h
      have h6 : t6.shapeOk := h2.endContext.retireBaskets.modCtx.quarantine
      clear_value t6
      have h7 : t7.shapeOk := h6
      have hw : w.1.shapeOk := State.shapeOk.freshWindow (h7.foldl fun _ _ ht => ht.leaveHem)
      have hr : r.2.shapeOk := by
        unfold r
        cases e : w.1.newContext c.part c.tenant c.readMask c.clusters c.vf c.domain w.2.2 with
        | none => exact hw
        | some x => exact hw.newContext e
      exact State.shapeOk.refreshFlags hr.setVf

theorem State.shapeOk.askReset {s : State} (h : s.shapeOk) {vf : Nat} : (s.askReset vf).shapeOk := h.ite h.resetVf

theorem execFunctionLevelReset_keepsShape {vf : Nat} {s : State} (h : s.shapeOk) : KeepsShape (execFunctionLevelReset vf s) := keepsShape_next h.askReset

theorem execVirtioStatusReset_keepsShape {vf : Nat} {s : State} (h : s.shapeOk) : KeepsShape (execVirtioStatusReset vf s) := keepsShape_next h.askReset

theorem execCommonConfigurationWrite_keepsShape {vf : Nat} {pos : RegAt} {data : BitVec 64} {s : State} (h : s.shapeOk) :
    KeepsShape (execCommonConfigurationWrite vf pos data s) := by
  refine keepsShape_next ?_
  split
  · exact h
  · exact h.askReset.ite h.setVf

/-! ## Accesses of outside agents (R387, R388, R390, R423) -/

theorem State.shapeOk.refuseRead {s : State} (h : s.shapeOk) {core piece : Nat} : (s.refuseRead core piece).shapeOk := by
  have ht : ({ s with coreRead := s.coreRead ++ [(core, none)] } : State).shapeOk := h
  unfold State.refuseRead
  dsimp only
  split
  · exact ht
  · exact ht.modPart

theorem State.shapeOk.appWrite {s : State} (h : s.shapeOk) {core pa : Nat} {bs : List Byte} : (s.appWrite core pa bs).shapeOk :=
  State.shapeOk.pokes (l := locG pa) (bs := bs) h

theorem State.shapeOk.appPerform {s : State} (h : s.shapeOk) {core pa : Nat} {op : AppOp} : (s.appPerform core pa op).shapeOk := by
  unfold State.appPerform
  extract_lets old seen put others
  have seen_shape (t : State) (bs : List Byte) (ht : t.shapeOk) : (seen t bs).shapeOk := ht
  have put_shape (bs : List Byte) : (put s bs).shapeOk := h.appWrite
  split
  · next l _ =>
    have ht : (s.outsideError l).shapeOk := h.outsideError
    generalize s.outsideError l = t at ht ⊢
    exact ht
  · cases op with
    | load n => exact h
    | store bs => exact put_shape bs
    | fence a b => exact h
    | schedule a b => exact h
    | amo op n x aq rl => exact seen_shape _ _ (put_shape _)
    | amocas n e x aq rl => exact seen_shape _ _ ((put_shape _).ite h)
    | lr n aq rl => exact h
    | sc bs aq rl =>
      have ht : ({ s with reserves := others, free := s.free + 1 } : State).shapeOk := h
      exact seen_shape _ _ (ht.pokes.ite ht)

theorem State.shapeOk.deviceAccess {s : State} (h : s.shapeOk) {dom core pa : Nat} {op : AppOp} : MaybeShape (s.deviceAccess dom core pa op) := by
  unfold State.deviceAccess
  extract_lets n reads grant ps ok
  split
  · exact h.refuseRead.ite h
  · exact MaybeShape.ite trivial h.appPerform

theorem State.shapeOk.readOut {s : State} (h : s.shapeOk) {vf bar : Nat} {bs : Option (List Byte)} : (s.readOut vf bar bs).shapeOk := h

theorem State.shapeOk.windowRead {s : State} (h : s.shapeOk) {vf len : Nat} {pos : BarAt} : MaybeShape (s.windowRead vf pos len) := by
  unfold State.windowRead
  extract_lets bytes
  split
  · exact State.shapeOk.ite h.readOut h
  · dsimp only
    split
    · exact State.shapeOk.readOut (h.setVf.ite h)
    · refine MaybeShape.ite h (MaybeShape.ite trivial (MaybeShape.ite h.readOut ?_))
      show State.shapeOk _
      split
      · exact State.shapeOk.readOut h.outsideError
      · exact h.readOut
    · exact h.readOut
    · exact h

theorem State.shapeOk.outside {s : State} (h : s.shapeOk) {a : Outside} : MaybeShape (s.outside a) := by
  cases a with
  | app core pa op => exact MaybeShape.ite trivial h.appPerform
  | device dom core pa op => exact h.deviceAccess
  | window vf pos len => exact h.windowRead
  | received g b n l data =>
    show MaybeShape (s.receiveHeld (g, b, n, l) data)
    cases e : s.receiveHeld (g, b, n, l) data with
    | none => trivial
    | some t => exact h.receiveHeld e

theorem State.shapeOk.offerOutside {s : State} (h : s.shapeOk) {a : Outside} : (s.offerOutside a).shapeOk :=
  State.shapeOk.ite (by exact h) (h.outside.getD (by exact h))

theorem State.shapeOk.settleOutside {s : State} (h : s.shapeOk) : s.settleOutside.shapeOk := by
  have ht : ({ s with heldOutside := [] } : State).shapeOk := h
  exact ht.foldl fun _ _ hu => hu.offerOutside

theorem execMemoryWindowRead_keepsShape {vf len : Nat} {pos : BarAt} {s : State} (h : s.shapeOk) : KeepsShape (execMemoryWindowRead vf pos len s) :=
  keepsShape_next h.offerOutside

theorem execChipletDeviceAccess_keepsShape {dom core pa : Nat} {op : AppOp} {s : State} (h : s.shapeOk) :
    KeepsShape (execChipletDeviceAccess dom core pa op s) := keepsShape_next (h.ite h.offerOutside)

theorem execDevicePageGrant_keepsShape {ctx va dom : Nat} {s : State} (h : s.shapeOk) : KeepsShape (execDevicePageGrant ctx va dom s) := by
  refine keepsShape_next ?_
  split
  · exact h
  · next e =>
    have ht := h.svcPiece e
    exact State.shapeOk.ite ht (by exact ht)

theorem execApplicationCoreAccess_keepsShape {core pa : Nat} {op : AppOp} {s : State} (h : s.shapeOk) :
    KeepsShape (execApplicationCoreAccess core pa op s) := by
  refine keepsShape_next (h.ite ?_)
  cases op with
  | schedule token on => exact h
  | fence a b => exact h
  | load _ => exact h.ite h.offerOutside
  | store _ => exact h.ite h.offerOutside
  | amo _ _ _ _ _ => exact h.ite h.offerOutside
  | amocas _ _ _ _ _ => exact h.ite h.offerOutside
  | lr _ _ _ => exact h.ite h.offerOutside
  | sc _ _ _ => exact h.ite h.offerOutside

/-! ## Finwesin's own submissions and loads (R50, R55, R328, R365) -/

theorem execFinwesinSubmission_keepsShape {ctx : Nat} {desc : List (BitVec 8)} {s : State} (h : s.shapeOk) :
    KeepsShape (execFinwesinSubmission ctx desc s) := by
  refine keepsShape_next ?_
  split
  · exact h
  · refine h.ite ?_
    split
    · exact h
    · exact h.accept.refreshFlags

theorem State.shapeOk.loadSection {s : State} (h : s.shapeOk) {ctx va : Nat} {bytes : List Byte} {set : OSet} {perm : Nat} :
    MaybeShape (s.loadSection ctx va bytes set perm) := by
  unfold State.loadSection
  refine MaybeShape.ite h ?_
  split
  · trivial
  · next c hc =>
    extract_lets len
    split
    · next oidx f t _ e =>
      have ht := h.freeFrames e
      have hw : ({ t with mem := cellsWrite t.mem (f * 2 ^ 16) bytes } : State).shapeOk :=
        ht
      exact MaybeShape.ite trivial (State.shapeOk.mapRange hw.setCtx)
    · trivial

theorem execCodeObjectLoad_keepsShape {ctx : Nat} {obj : ObjImage} {s : State} (h : s.shapeOk) : KeepsShape (execCodeObjectLoad ctx obj s) := by
  have key (l : List ((Nat × List Byte) × OSet × Nat)) (o : Option State) (ho : MaybeShape o) :
      MaybeShape (l.foldl (fun (t : Option State) x => t.bind fun t => t.loadSection ctx x.1.1 x.1.2 x.2.1 x.2.2) o) := by
    induction l generalizing o with
    | nil => exact ho
    | cons x l ih =>
      refine ih _ ?_
      cases o with
      | none => trivial
      | some t => exact State.shapeOk.loadSection ho
  refine keepsShape_next ?_
  split
  · exact h
  · extract_lets own at0 parts t
    have ht : MaybeShape t := key parts (some s) h
    generalize t = u at ht
    refine h.ite ?_
    split
    · exact h
    · exact State.shapeOk.modCtx ht

end Sys2Proof.Machine
end

section
/-! SUPPORT. The end of a cycle, atomics and hint words keep the parts (R208 to R211, R342). -/

namespace Sys2Proof.Machine

-- One proof after another: side by side, they hold more memory than the check of the whole text allows.
set_option Elab.async false

/-! ## The end of a cycle (R342, R432) -/

theorem State.shapeOk.evict {s : State} (h : s.shapeOk) : s.evict.shapeOk :=
  (State.shapeOk.foldl (f := fun t (x : Nat × Nat) => t.pdrop x.1 x.2) h fun _ _ ht => ht.pdrop).withCores List.length_mapIdx

theorem State.shapeOk.settleNvme {s : State} (h : s.shapeOk) : s.settleNvme.shapeOk := by
  refine h.foldl fun t c ht => ?_
  have hb := ht.takeBit
  dsimp only
  split
  · split
    · exact hb.endReset
    · exact hb
  · split
    · exact hb.abortLate
    · exact ht

theorem State.shapeOk.settleBins {s : State} (h : s.shapeOk) {cl : Nat} : (s.settleBins cl).shapeOk := h.foldl fun _ _ ht => ht.binTimer

theorem State.shapeOk.settle {s : State} (h : s.shapeOk) : s.settle.shapeOk := by
  unfold State.settle
  extract_lets slots t1 t2 t3 t4 t5 t6 t7
  have h1 : t1.shapeOk := h.foldl fun _ _ ht => ht.settleBasket
  have h2 : t2.shapeOk := h1.foldl fun _ _ ht => ht.returnClaims
  have h3 : t3.shapeOk := h2.ite h2.performPosted
  have h4 : t4.shapeOk := h3.foldl fun _ _ ht => ht.settleBins
  have h5 : t5.shapeOk := h4.settleNvme
  have h6 : t6.shapeOk := h5.ite h5.performInbound
  have h7 : t7.shapeOk := h6.settleOutside
  exact h7.foldl fun _ _ ht => ht.cutGrids

theorem State.shapeOk.tick {s : State} (h : s.shapeOk) {gated : Bool} : (s.tick gated).shapeOk := by
  have ht := h.settle.evict
  unfold State.tick
  generalize s.settle.evict = u at ht ⊢
  exact ht.withClusters List.length_mapIdx

/-! ## Atomics (R208 to R211) -/

theorem State.shapeOk.atomWrite {s : State} (h : s.shapeOk) {core type : Nat} {l : Loc} {bytes : List Byte} :
    (s.atomWrite core l type bytes).shapeOk := by
  unfold State.atomWrite
  split
  · exact h.pokes.ite h.storeBytes
  · exact h.pokes
  · exact h.pokes

theorem State.shapeOk.atomics {s : State} (h : s.shapeOk) {core n : Nat} {new : Nat → Nat → Nat} {as : List LaneAcc} :
    (s.atomics core n new as).1.shapeOk := by
  fun_induction State.atomics s core n new as
  case case1 => exact h
  case case2 ih => exact ih h
  case case3 ih => exact ih h.atomWrite

theorem atomType_shape {i : Iss} {op : AtomOp} {a : AtomF} {as : List LaneAcc} : ResShape (fun _ => True) (i.atomType op a as) :=
  ResShape.ite trivial trivial

theorem Iss.shapeOk.dropCopies {i : Iss} (h : i.shapeOk) {as : List LaneAcc} : (i.dropCopies as).shapeOk :=
  State.shapeOk.foldl h fun _ _ ht => ht.pdrop.modCore

theorem Iss.shapeOk.atomPcie {i : Iss} (h : i.shapeOk) {as : List LaneAcc} : ResShape Iss.shapeOk (i.atomPcie as) := by
  refine ResShape.ite h (h.timely.bind fun _ _ => ?_)
  split
  · exact h.dropCopies
  · exact ResShape.ite h.consume trivial

theorem atomic_keepsShape {x : Instr} {op : AtomOp} {a : AtomF} {s : State} (h : s.shapeOk) : KeepsShape (atomic x op a s) := by
  refine issue_keepsShape h fun _ hx => hx.operands.bind fun y hy => ResShape.ite hy <| aligned_shape.bind fun _ _ => map_shape.bind fun as _ =>
    atomType_shape.bind fun _ _ => origin_shape.bind fun _ _ => hold_shape.bind fun _ _ => hy.sound.bind fun _ _ => ?_
  have rest (z : Iss) (hz : z.shapeOk) : ResShape State.shapeOk (do
      let i ← z.flush (as.flatMap LaneAcc.locs)
      let i ← i.atomPcie as
      let r := i.s.atomics i.k.coreId (a.bits / 8) (fun l m => op.new a.bits m (i.raw l (8 * a.g.toNat) (a.bits / 4)) (i.raw l (8 * a.g.toNat + a.bits / 4) (a.bits / 4)))
        (shuffle 32 i.s.free as)
      let k := if a.comm then i.k
        else i.wrLate (i.h.look a.la) (8 * a.g.toNat) (a.bits / 4) (fun l => (r.2.find? (·.1 == l)).elim 0 (·.2)) (i.rset ||| accSet as) []
      let t := { r.1 with free := r.1.free + 32 }.setSkein (if a.space == Space.g then k.touch (y.active.map fun l => (l, y.ea a.n l, a.bits / 8)) else k)
      .ok (if a.acquires then t.acquire i.k.id a.scope else t)) := by
    refine hz.flush.bind fun u hu => hu.atomPcie.bind fun v hv => ?_
    have ht : ∀ {n l f}, (v.s.atomics v.k.coreId n f l).1.shapeOk := State.shapeOk.atomics hv
    exact State.shapeOk.ite (State.shapeOk.acquire (State.shapeOk.setSkein (by exact ht))) (State.shapeOk.setSkein (by exact ht))
  dsimp only
  split
  · exact hy.release.bind fun z hz => rest z hz
  · exact rest y hy

/-! ## Hint words and words that are no row (R69 to R79, R86) -/

theorem hintWord_keepsShape {s : State} {kind : Nat} {ok : Bool} {put : Hints → Hints} (h : s.shapeOk) : KeepsShape (hintWord s kind ok put) := by
  intro t e
  unfold hintWord at e
  split at e
  · cases e
  · cases e
    exact h.setSkein

theorem execXimm_keepsShape {v : BitVec 23} {s : State} (h : s.shapeOk) : KeepsShape (execXimm v s) := hintWord_keepsShape h

theorem execOffs_keepsShape {v : BitVec 23} {s : State} (h : s.shapeOk) : KeepsShape (execOffs v s) := hintWord_keepsShape h

theorem execPerm_keepsShape {v : BitVec 16} {s : State} (h : s.shapeOk) : KeepsShape (execPerm v s) := hintWord_keepsShape h

theorem execMixw_keepsShape {v : BitVec 9} {s : State} (h : s.shapeOk) : KeepsShape (execMixw v s) := hintWord_keepsShape h

theorem execLka_keepsShape {v : BitVec 6} {s : State} (h : s.shapeOk) : KeepsShape (execLka v s) := hintWord_keepsShape h

theorem execIllegalInstruction_keepsShape {word : BitVec 32} {s : State} (h : s.shapeOk) : KeepsShape (execIllegalInstruction word s) := by
  unfold execIllegalInstruction
  split
  · exact hintWord_keepsShape h
  · exact issue_keepsShape h fun _ _ => trap_shape

end Sys2Proof.Machine
end

section
/-! SUPPORT. Management commands, power, failures and SPILL and FILL keep the parts. -/

namespace Sys2Proof.Machine

-- One proof after another: side by side, they hold more memory than the check of the whole text allows.
set_option Elab.async false

/-! ## The mailbox (R438, R439) -/

/-- The state of a reply has all its parts. -/
def Reply.shapeOk (r : Reply) : Prop := r.s.shapeOk

theorem Reply.shapeOk.ite {x y : Reply} {c : Prop} [Decidable c] (hx : x.shapeOk) (hy : y.shapeOk) : (if c then x else y).shapeOk := by
  split
  · exact hx
  · exact hy

theorem State.shapeOk.reply {s : State} (h : s.shapeOk) {status : BitVec 16} : (s.reply status).shapeOk := h

theorem State.shapeOk.replyWith {s : State} (h : s.shapeOk) {bs : List Byte} : (s.replyWith bs).shapeOk := h

theorem State.shapeOk.ring {s : State} (h : s.shapeOk) {t : Ticket} {cmd len : Nat} {operand : List Byte} :
    (s.ring t cmd len operand).shapeOk := h

theorem command_keepsShape {cmd len : Nat} {operand : List Byte} {t : Ticket} {s : State} {f : State → State} (h : s.shapeOk)
    (hf : ∀ u : State, u.shapeOk → (f u).shapeOk) : KeepsShape (command cmd len operand t s f) :=
  keepsShape_next (State.shapeOk.ite (hf s h) (h.ite (hf _ h.ring)))

theorem serveNow_keepsShape {cmd len : Nat} {operand : List Byte} {t : Ticket} {s : State} {f : State → Reply} (h : s.shapeOk)
    (hf : ∀ u : State, u.shapeOk → (f u).shapeOk) : KeepsShape (serveNow cmd len operand t s f) :=
  command_keepsShape h fun u hu => State.shapeOk.answerMgmt (hf u hu)

/-! ## Drain and resume (R340, R341) -/

theorem State.shapeOk.drainReq {s : State} (h : s.shapeOk) {part : Nat} {cut : Bool} : (s.drainReq part cut).shapeOk := by
  unfold State.drainReq
  extract_lets t
  have ht : t.shapeOk := State.shapeOk.ite (by exact h) h.modPart
  exact State.shapeOk.refreshFlags (ht.foldl fun _ _ hu => hu.cutGrids)

theorem State.shapeOk.resumeReq {s : State} (h : s.shapeOk) {part : Nat} : (s.resumeReq part).shapeOk :=
  State.shapeOk.refreshFlags (State.shapeOk.ite (by exact h) h.modPart)

theorem execDrain_keepsShape {part flags : BitVec 8} {tag : Ticket} {s : State} (h : s.shapeOk) : KeepsShape (execDrain part flags tag s) := by
  refine command_keepsShape h fun u hu => ?_
  extract_lets held
  have hh : held.shapeOk := hu.ite (by exact hu)
  exact State.shapeOk.ite hh.drainReq.finishDrain hu.answerMgmt

theorem execResume_keepsShape {part flags : BitVec 8} {tag : Ticket} {s : State} (h : s.shapeOk) : KeepsShape (execResume part flags tag s) :=
  serveNow_keepsShape h fun _ hu => Reply.shapeOk.ite hu.resumeReq hu

/-! ## HOLD and the debugger's attach (R346, R374) -/

theorem execReleaseHold_keepsShape {grid : Nat} {tag : Ticket} {s : State} (h : s.shapeOk) : KeepsShape (execReleaseHold grid tag s) := by
  refine serveNow_keepsShape h fun u hu => ?_
  split
  · exact hu
  · next c _ =>
    have ht := (hu.soundRegions (rs := c.regions)).setCtx (c := { c with regions := [], gids := [] })
    exact ht.withClusters (List.length_map _)

theorem execAttach_keepsShape {grid : Nat} {tag : Ticket} {s : State} (h : s.shapeOk) : KeepsShape (execAttach grid tag s) := by
  refine serveNow_keepsShape h fun u hu => ?_
  split
  · exact hu
  · exact State.shapeOk.setCtx hu

theorem State.shapeOk.modEvery {s : State} (h : s.shapeOk) {f : Skein → Skein} : (s.modEvery f).shapeOk :=
  h

theorem State.shapeOk.dbgRelease {s : State} (h : s.shapeOk) {mine : Skein → Bool} : (s.dbgRelease mine).shapeOk :=
  State.shapeOk.foldl h.modEvery fun _ _ ht => ht.resume

theorem execDetach_keepsShape {grid : Nat} {tag : Ticket} {s : State} (h : s.shapeOk) : KeepsShape (execDetach grid tag s) := by
  refine serveNow_keepsShape h fun u hu => ?_
  split
  · exact hu
  · exact State.shapeOk.dbgRelease (by exact hu)

/-! ## Policies, attestation and the cap (R406, R410, R431) -/

theorem State.shapeOk.refusePolicy {s : State} (h : s.shapeOk) {why : Nat × Nat} : (s.refusePolicy why).shapeOk := h

theorem State.shapeOk.judgePolicy {s : State} (h : s.shapeOk) {all : List Byte} : (s.judgePolicy all).shapeOk := by
  unfold State.judgePolicy
  dsimp only
  split
  · exact h
  · split
    · split
      · exact h
      · exact h.modPart
    · split
      · exact h
      · exact h.modPart

theorem execPolicy_keepsShape {total off : Nat} {bytes : List (BitVec 8)} {tag : Ticket} {s : State} (h : s.shapeOk) :
    KeepsShape (execPolicy total off bytes tag s) := by
  refine serveNow_keepsShape h fun u hu => ?_
  have hn : ({ u with policyParts := none } : State).shapeOk := hu
  exact Reply.shapeOk.ite hn (Reply.shapeOk.ite hn.judgePolicy hu)

theorem execAttest_keepsShape {nonce : List (BitVec 8)} {part off : Nat} {tag : Ticket} {s : State} (h : s.shapeOk) :
    KeepsShape (execAttest nonce part off tag s) := by
  refine serveNow_keepsShape h fun u hu => ?_
  refine Reply.shapeOk.ite hu ?_
  dsimp only
  split
  · exact hu
  · split
    · exact hu
    · exact Reply.shapeOk.ite hu hu

theorem execCap_keepsShape {watts : Nat} {tag : Ticket} {s : State} (h : s.shapeOk) : KeepsShape (execCap watts tag s) :=
  serveNow_keepsShape h fun _ hu => Reply.shapeOk.ite (by exact hu) hu

theorem execInvalidCommand_keepsShape {cmd : BitVec 32} {len : Nat} {tag : Ticket} {s : State} (h : s.shapeOk) :
    KeepsShape (execInvalidCommand cmd len tag s) := serveNow_keepsShape h fun _ hu => hu

/-! ## The debugger (R374, R440) -/

theorem execDbgEvent_keepsShape {tag : Ticket} {s : State} (h : s.shapeOk) : KeepsShape (execDbgEvent tag s) := by
  refine serveNow_keepsShape h fun u hu => ?_
  split
  · exact hu
  · exact State.shapeOk.modStopped (by exact hu)

theorem execDbgRead_keepsShape {item : DbgItem} {tag : Ticket} {s : State} (h : s.shapeOk) : KeepsShape (execDbgRead item tag s) := by
  refine serveNow_keepsShape h fun u hu => ?_
  split
  · exact hu
  · split
    · exact hu
    · exact Reply.shapeOk.ite hu (Reply.shapeOk.ite hu.countError hu)

theorem execDbgWrite_keepsShape {item : DbgItem} {data : List (BitVec 8)} {tag : Ticket} {s : State} (h : s.shapeOk) :
    KeepsShape (execDbgWrite item data tag s) := by
  refine serveNow_keepsShape h fun u hu => ?_
  split
  · exact hu
  · split
    · exact hu
    · exact hu.modEvery

theorem execDbgResume_keepsShape {item : DbgItem} {tag : Ticket} {s : State} (h : s.shapeOk) : KeepsShape (execDbgResume item tag s) := by
  refine serveNow_keepsShape h fun u hu => ?_
  split
  · exact hu
  · exact hu.dbgRelease

/-! ## Writes to BAR4 and the inventory window (R433 to R437, R439) -/

theorem runCommand_keepsShape {i : Instr} {s : State} (h : s.shapeOk) : KeepsShape (runCommand i s) := by
  unfold runCommand
  split
  · exact execDrain_keepsShape h
  · exact execResume_keepsShape h
  · exact execReleaseHold_keepsShape h
  · exact execAttach_keepsShape h
  · exact execDetach_keepsShape h
  · exact execPolicy_keepsShape h
  · exact execAttest_keepsShape h
  · exact execCap_keepsShape h
  · exact execDbgEvent_keepsShape h
  · exact execDbgRead_keepsShape h
  · exact execDbgWrite_keepsShape h
  · exact execDbgResume_keepsShape h
  · exact execInvalidCommand_keepsShape h
  · exact keepsShape_next h

theorem execDiscardedWrite_keepsShape {pos : PortAt} {data : BitVec 64} {s : State} (h : s.shapeOk) : KeepsShape (execDiscardedWrite pos data s) := by
  unfold execDiscardedWrite
  split
  · exact keepsShape_next h
  · split
    · exact keepsShape_next h
    · extract_lets w src n t
      have ht : t.shapeOk := h
      split
      · exact runCommand_keepsShape ht
      · exact keepsShape_next ht

theorem State.shapeOk.measure {s : State} (h : s.shapeOk) : s.measure.shapeOk := by
  unfold State.measure
  extract_lets w t
  have ht : t.shapeOk := h
  exact ht.ite (ht.withDies List.length_mapIdx)

theorem execInventoryRefresh_keepsShape {s : State} (h : s.shapeOk) : KeepsShape (execInventoryRefresh s) := by
  have hm := h.measure
  exact keepsShape_next (State.shapeOk.ite (by exact h) (by exact hm))

/-! ## Power, temperature, FREEZE and the test port (R375, R432) -/

theorem execPowerCapExceeded_keepsShape {watts : Nat} {s : State} (h : s.shapeOk) : KeepsShape (execPowerCapExceeded watts s) :=
  keepsShape_next (State.shapeOk.ite (by exact h) (by exact h))

theorem execThermalThrottle_keepsShape {die temp : Nat} {s : State} (h : s.shapeOk) : KeepsShape (execThermalThrottle die temp s) :=
  keepsShape_next (State.shapeOk.ite (by exact h.modDie) h.modDie)

theorem execThermalShutdown_keepsShape {die temp : Nat} {s : State} (h : s.shapeOk) : KeepsShape (execThermalShutdown die temp s) :=
  keepsShape_next (State.shapeOk.ite (by exact h.modDie) h.modDie)

theorem execBackInsideLimits_keepsShape {s : State} (h : s.shapeOk) : KeepsShape (execBackInsideLimits s) :=
  keepsShape_next (State.shapeOk.measure (by exact h))

theorem execFreezeAssert_keepsShape {s : State} (h : s.shapeOk) : KeepsShape (execFreezeAssert s) := keepsShape_next (State.shapeOk.ite (by exact h) h)

theorem execFreezeRelease_keepsShape {withReset : Bool} {s : State} (h : s.shapeOk) : KeepsShape (execFreezeRelease withReset s) := by
  refine keepsShape_next (h.ite (State.shapeOk.ite ?_ (h.ite (by exact h))))
  exact State.reset_shapeOk

theorem execScansel_keepsShape {chain : BitVec 16} {s : State} (h : s.shapeOk) : KeepsShape (execScansel chain s) := keepsShape_next (by exact h)

theorem execScanout_keepsShape {s : State} (h : s.shapeOk) : KeepsShape (execScanout s) :=
  keepsShape_next (State.shapeOk.ite (by exact h) (by exact h))

theorem execIdcode_keepsShape {s : State} (h : s.shapeOk) : KeepsShape (execIdcode s) := keepsShape_next (by exact h)

theorem execBypass_keepsShape {s : State} (h : s.shapeOk) : KeepsShape (execBypass s) := keepsShape_next (by exact h)

/-! ## Failures (R347, R386, R397) -/

theorem State.shapeOk.endAll {s : State} (h : s.shapeOk) {ids : List Nat} {code : BitVec 16} : (s.endAll ids code).shapeOk :=
  h.foldl fun _ _ ht => ht.endContext

theorem State.shapeOk.degrade {s : State} (h : s.shapeOk) : s.degrade.shapeOk := State.shapeOk.refreshFlags (State.shapeOk.ite (by exact h) h)

theorem execSeamFailure_keepsShape {seam : Nat} {inFlight : List Nat} {s : State} (h : s.shapeOk) : KeepsShape (execSeamFailure seam inFlight s) := by
  unfold execSeamFailure
  extract_lets up lost t
  have ht : t.shapeOk := h.withClusters List.length_mapIdx
  exact keepsShape_next ht.degrade.endAll.endAll

theorem execHbmStackOffline_keepsShape {stack : Nat} {s : State} (h : s.shapeOk) : KeepsShape (execHbmStackOffline stack s) := by
  have ht : ({ s with stacksUp := s.stacksUp &&& ~~~(1#24 <<< stack) } : State).shapeOk := h
  exact keepsShape_next ht.degrade.endAll

theorem execEngineTimeout_keepsShape {sid : Nat} {s : State} (h : s.shapeOk) : KeepsShape (execEngineTimeout sid s) := by
  refine keepsShape_next ?_
  split
  · exact h
  · exact h.ite h.endContext

theorem State.shapeOk.routeEnds {s : State} (h : s.shapeOk) {k : Skein} {c : Cmd} {code : BitVec 16} : (s.routeEnds k c code).shapeOk := by
  unfold State.routeEnds
  split
  · exact h.routeAbort
  · exact h.failCmd
  · exact h.failCmd

theorem execRouteFailure_keepsShape {part module : Nat} {s : State} (h : s.shapeOk) : KeepsShape (execRouteFailure part module s) := by
  refine keepsShape_next (State.shapeOk.foldl h.modPart fun t x ht => ?_)
  split
  · exact ht
  · exact ht.routeEnds

/-! ## SPILL and FILL (R220, R221) -/

theorem Iss.shapeOk.spillOperands {i : Iss} (h : i.shapeOk) {y : Nat} {run : Nat → Opd} : ResShape Iss.shapeOk (i.spillOperands y run) :=
  h.operands.bind fun _ hj => hj

theorem spillCtl_shape {i : Iss} {y : Nat} : ResShape (fun _ => True) (i.spillCtl y) :=
  ResShape.ite trivial (ResShape.ite trivial (ResShape.ite trivial trivial))

theorem execSpill_keepsShape {x y : BitVec 8} {s : State} (h : s.shapeOk) : KeepsShape (execSpill x y s) :=
  issue_keepsShape h fun _ hx => hx.spillOperands.bind fun z hz => ResShape.ite hz <| spillCtl_shape.bind fun c _ => by
    dsimp only
    refine map_shape.bind fun _ _ => origin_shape.bind fun _ _ => hold_shape.bind fun _ _ => ?_
    show State.shapeOk _
    split
    · exact hz.put
    · exact Iss.shapeOk.put (i := { z with regs := _ }) hz

theorem execFill_keepsShape {x y : BitVec 8} {la : BitVec 4} {s : State} (h : s.shapeOk) : KeepsShape (execFill x y la s) :=
  issue_keepsShape h fun _ hx => hx.spillOperands.bind fun _ hz => ResShape.ite hz <| spillCtl_shape.bind fun _ _ =>
    map_shape.bind fun _ _ => Iss.shapeOk.load hz |>.bind fun _ hv => Iss.shapeOk.put hv

end Sys2Proof.Machine
end

section
/-! SUPPORT. Every instruction keeps the parts of the machine, and so does every step (R123, R397, R434). -/

namespace Sys2Proof.Machine

-- One proof after another: side by side, they hold more memory than the check of the whole text allows.
set_option Elab.async false

/-- What an instruction answers has all its parts: a lane instruction by the frame that they share, every other one by its own lemma. -/
theorem exec_keepsShape (i : Instr) {s : State} (h : s.shapeOk) : KeepsShape (exec i s) := by
  cases hr : laneRow i with
  | some r =>
    rw [exec_of_laneRow hr]
    exact laneOp_keepsShape h
  | none =>
    exact match i, hr with
    | .movi .., _ => execMovi_keepsShape h
    | .bra .., _ => execBra_keepsShape h
    | .bz .., _ | .bnz .., _ => branch_keepsShape h
    | .call .., _ => execCall_keepsShape h
    | .split .., _ => execSplit_keepsShape h
    | .launch .., _ => execLaunch_keepsShape h
    | .ret .., _ | .jmpi .., _ | .calli .., _ => transfer_keepsShape h
    | .nop .., _ => execNop_keepsShape h
    | .exit .., _ => execExit_keepsShape h
    | .join .., _ => execJoin_keepsShape h
    | .yieldI .., _ => execYieldI_keepsShape h
    | .ldg .., _ | .lds .., _ | .ldc .., _ => loadOp_keepsShape h
    | .stg .., _ | .sts .., _ | .stc .., _ => storeOp_keepsShape h
    | .aadd .., _ | .amin .., _ | .amax .., _ | .aminu .., _ | .amaxu .., _ | .aand .., _ | .aor .., _ | .axor .., _ | .axchg .., _
    | .acas .., _ => atomic_keepsShape h
    | .shfl .., _ => execShfl_keepsShape h
    | .ballot .., _ => execBallot_keepsShape h
    | .eqmask .., _ => execEqmask_keepsShape h
    | .any .., _ => execAny_keepsShape h
    | .all .., _ => execAll_keepsShape h
    | .rds .., _ => execRds_keepsShape h
    | .wrsEm .., _ => execWrsEm_keepsShape h
    | .wrsSw .., _ => execWrsSw_keepsShape h
    | .krd .., _ => execKrd_keepsShape h
    | .kwr .., _ => execKwr_keepsShape h
    | .rdcyc .., _ => execRdcyc_keepsShape h
    | .lblr .., _ => execLblr_keepsShape h
    | .lblq .., _ => execLblq_keepsShape h
    | .bar .., _ => execBar_keepsShape h
    | .bararr .., _ => execBararr_keepsShape h
    | .barwait .., _ => execBarwait_keepsShape h
    | .bardrop .., _ => execBardrop_keepsShape h
    | .sbinit .., _ => execSbinit_keepsShape h
    | .sbarr .., _ => execSbarr_keepsShape h
    | .sbexp .., _ => execSbexp_keepsShape h
    | .sbwait .., _ => execSbwait_keepsShape h
    | .sbdrop .., _ => execSbdrop_keepsShape h
    | .bitwait .., _ => execBitwait_keepsShape h
    | .spawn .., _ => execSpawn_keepsShape h
    | .fence .., _ => execFence_keepsShape h
    | .clean .., _ | .inval .., _ => maintainOp_keepsShape h
    | .pref .., _ | .ipref .., _ => prefetch_keepsShape h
    | .icinv .., _ => execIcinv_keepsShape h
    | .stream .., _ => execStream_keepsShape h
    | .streamx .., _ => execStreamx_keepsShape h
    | .spill .., _ => execSpill_keepsShape h
    | .fill .., _ => execFill_keepsShape h
    | .ibar .., _ => execIbar_keepsShape h
    | .syscall .., _ => execSyscall_keepsShape h
    | .trap .., _ => execTrap_keepsShape h
    | .brk .., _ => execBrk_keepsShape h
    | .tack .., _ => execTack_keepsShape h
    | .uint .., _ => execUint_keepsShape h
    | .wcopy .., _ => execWcopy_keepsShape h
    | .wgath .., _ => execWgath_keepsShape h
    | .wscat .., _ => execWscat_keepsShape h
    | .wfill .., _ => execWfill_keepsShape h
    | .wsend .., _ => execWsend_keepsShape h
    | .wcollSumF32 .., _ | .wcollSumB16 .., _ | .wcollSumI32 .., _ | .wcollGather .., _ | .wcollBcast .., _ => wcollOp_keepsShape h
    | .mbayBay .., _ | .mbayAcc .., _ => mbay_keepsShape h
    | .mwload .., _ => execMwload_keepsShape h
    | .mma .., _ => execMma_keepsShape h
    | .mdrain .., _ => execMdrain_keepsShape h
    | .mzero .., _ => execMzero_keepsShape h
    | .mfreeBay .., _ | .mfreeAcc .., _ => mfree_keepsShape h
    | .close .., _ => execClose_keepsShape h
    | .waitb .., _ => execWaitb_keepsShape h
    | .testb .., _ => execTestb_keepsShape h
    | .qpush .., _ => execQpush_keepsShape h
    | .qpop .., _ => execQpop_keepsShape h
    | .qtry .., _ => execQtry_keepsShape h
    | .setfr .., _ => execSetfr_keepsShape h
    | .getfr .., _ => execGetfr_keepsShape h
    | .ximm .., _ => execXimm_keepsShape h
    | .offs .., _ => execOffs_keepsShape h
    | .perm .., _ => execPerm_keepsShape h
    | .mixw .., _ => execMixw_keepsShape h
    | .lka .., _ => execLka_keepsShape h
    | .longLatencyWriteLands .., _ => execLongLatencyWriteLands_keepsShape h
    | .loadDataError .., _ => execLoadDataError_keepsShape h
    | .joinDeadlock .., _ => execJoinDeadlock_keepsShape h
    | .sbwaitPoll .., _ => execSbwaitPoll_keepsShape h
    | .bitwaitPoll .., _ => execBitwaitPoll_keepsShape h
    | .yieldRelease .., _ => execYieldRelease_keepsShape h
    | .spawnBinTimer .., _ => execSpawnBinTimer_keepsShape h
    | .blockRetire .., _ => execBlockRetire_keepsShape h
    | .blockPlacement .., _ => execBlockPlacement_keepsShape h
    | .dependencyPoll .., _ => execDependencyPoll_keepsShape h
    | .streamFetch .., _ => execStreamFetch_keepsShape h
    | .fetchAhead .., _ => execFetchAhead_keepsShape h
    | .instructionFetchFill .., _ => execInstructionFetchFill_keepsShape h
    | .translationParkResolve .., _ => execTranslationParkResolve_keepsShape h
    | .translationInvalidate .., _ => execTranslationInvalidate_keepsShape h
    | .pcieCompletion .., _ => execPcieCompletion_keepsShape h
    | .pcieCompletionTimeout .., _ => execPcieCompletionTimeout_keepsShape h
    | .writebackUndelivered .., _ => execWritebackUndelivered_keepsShape h
    | .pciePostedWrite .., _ => execPciePostedWrite_keepsShape h
    | .chipletDeviceAccess .., _ => execChipletDeviceAccess_keepsShape h
    | .wringerLineWrite .., _ => execWringerLineWrite_keepsShape h
    | .mangleCommandStart .., _ => execMangleCommandStart_keepsShape h
    | .mangleCommandComplete .., _ => execMangleCommandComplete_keepsShape h
    | .waitbReturn .., _ => execWaitbReturn_keepsShape h
    | .wsendRemoteWrite .., _ => execWsendRemoteWrite_keepsShape h
    | .wcollMatch .., _ => execWcollMatch_keepsShape h
    | .sorterSample .., _ => execSorterSample_keepsShape h
    | .timeSliceEnd .., _ => execTimeSliceEnd_keepsShape h
    | .engineDrain .., _ => execEngineDrain_keepsShape h
    | .graceDeadline .., _ => execGraceDeadline_keepsShape h
    | .watchdog .., _ => execWatchdog_keepsShape h
    | .contextResume .., _ => execContextResume_keepsShape h
    | .blockDrop .., _ => execBlockDrop_keepsShape h
    | .skeinResume .., _ => execSkeinResume_keepsShape h
    | .resumeMask .., _ => execResumeMask_keepsShape h
    | .finwesinStopAction .., _ => execFinwesinStopAction_keepsShape h
    | .clusterConfirm .., _ => execClusterConfirm_keepsShape h
    | .timeCall .., _ => execTimeCall_keepsShape h
    | .memAlloc .., _ => execMemAlloc_keepsShape h
    | .memUnmap .., _ => execMemUnmap_keepsShape h
    | .tagWiden .., _ => execTagWiden_keepsShape h
    | .fileOpen .., _ => execFileOpen_keepsShape h
    | .fileRead .., _ => execFileRead_keepsShape h
    | .fileWrite .., _ => execFileWrite_keepsShape h
    | .fileClose .., _ => execFileClose_keepsShape h
    | .sockCreate .., _ => execSockCreate_keepsShape h
    | .sockSend .., _ => execSockSend_keepsShape h
    | .sockRecv .., _ => execSockRecv_keepsShape h
    | .sockClose .., _ => execSockClose_keepsShape h
    | .egress .., _ => execEgress_keepsShape h
    | .basketCreate .., _ => execBasketCreate_keepsShape h
    | .basketDestroy .., _ => execBasketDestroy_keepsShape h
    | .stageRegister .., _ => execStageRegister_keepsShape h
    | .stageRemove .., _ => execStageRemove_keepsShape h
    | .spawnConfig .., _ => execSpawnConfig_keepsShape h
    | .collGroup .., _ => execCollGroup_keepsShape h
    | .uintRegister .., _ => execUintRegister_keepsShape h
    | .uintUnregister .., _ => execUintUnregister_keepsShape h
    | .unlistedCall .., _ => execUnlistedCall_keepsShape h
    | .submit .., _ => execSubmit_keepsShape h
    | .mapReq .., _ => execMapReq_keepsShape h
    | .unmapReq .., _ => execUnmapReq_keepsShape h
    | .uireg .., _ => execUireg_keepsShape h
    | .uiunreg .., _ => execUiunreg_keepsShape h
    | .invalidRequest .., _ => execInvalidRequest_keepsShape h
    | .queueNotify .., _ => execQueueNotify_keepsShape h
    | .functionLevelReset .., _ => execFunctionLevelReset_keepsShape h
    | .virtioStatusReset .., _ => execVirtioStatusReset_keepsShape h
    | .seamFailure .., _ => execSeamFailure_keepsShape h
    | .routeFailure .., _ => execRouteFailure_keepsShape h
    | .nvmeCompletion .., _ => execNvmeCompletion_keepsShape h
    | .nvmeAbortTimeout .., _ => execNvmeAbortTimeout_keepsShape h
    | .moduleReset .., _ => execModuleReset_keepsShape
    | .powerCapExceeded .., _ => execPowerCapExceeded_keepsShape h
    | .thermalThrottle .., _ => execThermalThrottle_keepsShape h
    | .thermalShutdown .., _ => execThermalShutdown_keepsShape h
    | .inventoryRefresh .., _ => execInventoryRefresh_keepsShape h
    | .discardedWrite .., _ => execDiscardedWrite_keepsShape h
    | .drain .., _ => execDrain_keepsShape h
    | .resume .., _ => execResume_keepsShape h
    | .releaseHold .., _ => execReleaseHold_keepsShape h
    | .attach .., _ => execAttach_keepsShape h
    | .detach .., _ => execDetach_keepsShape h
    | .policy .., _ => execPolicy_keepsShape h
    | .attest .., _ => execAttest_keepsShape h
    | .cap .., _ => execCap_keepsShape h
    | .dbgEvent .., _ => execDbgEvent_keepsShape h
    | .dbgRead .., _ => execDbgRead_keepsShape h
    | .dbgWrite .., _ => execDbgWrite_keepsShape h
    | .dbgResume .., _ => execDbgResume_keepsShape h
    | .invalidCommand .., _ => execInvalidCommand_keepsShape h
    | .freezeAssert .., _ => execFreezeAssert_keepsShape h
    | .freezeRelease .., _ => execFreezeRelease_keepsShape h
    | .scansel .., _ => execScansel_keepsShape h
    | .scanout .., _ => execScanout_keepsShape h
    | .idcode .., _ => execIdcode_keepsShape h
    | .bypass .., _ => execBypass_keepsShape h
    | .illegalInstruction .., _ => execIllegalInstruction_keepsShape h
    | .storePerformed .., _ => execStorePerformed_keepsShape h
    | .codeObjectLoad .., _ => execCodeObjectLoad_keepsShape h
    | .finwesinSubmission .., _ => execFinwesinSubmission_keepsShape h
    | .devicePageGrant .., _ => execDevicePageGrant_keepsShape h
    | .applicationCoreAccess .., _ => execApplicationCoreAccess_keepsShape h
    | .memoryWindowRead .., _ => execMemoryWindowRead_keepsShape h
    | .commonConfigurationWrite .., _ => execCommonConfigurationWrite_keepsShape h
    | .hbmStackOffline .., _ => execHbmStackOffline_keepsShape h
    | .engineTimeout .., _ => execEngineTimeout_keepsShape h
    | .backInsideLimits .., _ => execBackInsideLimits_keepsShape h
    | .controllerResetComplete .., _ => execControllerResetComplete_keepsShape h
    | .add .., hr | .sub .., hr | .mul .., hr | .mulh .., hr | .mulhu .., hr | .mad .., hr | .min .., hr | .max .., hr | .minu .., hr
    | .maxu .., hr | .adds .., hr | .subs .., hr | .addus .., hr | .subus .., hr | .and .., hr | .or .., hr | .xor .., hr | .andn .., hr
    | .shl .., hr | .shr .., hr | .sar .., hr | .rot .., hr | .bfx .., hr | .bfi .., hr | .cmpeq .., hr | .cmpne .., hr | .cmplt .., hr
    | .cmple .., hr | .cmpltu .., hr | .cmpleu .., hr | .sel .., hr | .dot8I4 .., hr | .dot4I8 .., hr | .dot2B16 .., hr | .addi .., hr
    | .andi .., hr | .ori .., hr | .xori .., hr | .shli .., hr | .shri .., hr | .sari .., hr | .cmpeqi .., hr | .cmplti .., hr
    | .mov .., hr | .not .., hr | .neg .., hr | .abs .., hr | .clz .., hr | .ctz .., hr | .popc .., hr | .brev .., hr | .bswap .., hr
    | .fclass .., hr | .sxt .., hr | .zxt .., hr | .sqrt .., hr | .rcp .., hr | .rsq .., hr | .exp2 .., hr | .log2 .., hr | .sin .., hr
    | .cos .., hr | .floor .., hr | .ceil .., hr | .trunc .., hr | .rint .., hr | .cvtFromE4M3 .., hr | .cvtFromE5M2 .., hr
    | .cvtToE4M3 .., hr | .cvtToE4M3Sat .., hr | .cvtToE5M2 .., hr | .cvtToE5M2Sat .., hr | .cvt .., hr => nomatch hr

/-! ## The issue of a word (R72, R87, R376) -/

/-- The state that a fetch leaves has all its parts. -/
def Fetched.shapeOk : Fetched → Prop
  | .word _ t | .fault _ t => t.shapeOk
  | .park _ | .wait _ => True

theorem State.shapeOk.fetchPa {s : State} (h : s.shapeOk) {k : Skein} {pa : Nat} : (s.fetchPa k pa).shapeOk := by
  fun_cases State.fetchPa s k pa
  case case1 => exact h
  case case2 => exact State.shapeOk.modCore h
  case case3 => trivial
  case case4 => exact h.countError
  case case5 => exact State.shapeOk.modCore h

theorem State.shapeOk.fetch {s : State} (h : s.shapeOk) {k : Skein} {p : Split} : (s.fetch k p).shapeOk := by
  unfold State.fetch
  split
  · trivial
  · split
    · trivial
    · trivial
    · split
      · exact h
      · split
        · exact h
        · exact h.fetchPa

theorem runWord_keepsShape {s : State} (h : s.shapeOk) : KeepsShape (runWord s) := by
  unfold runWord
  split
  · exact keepsShape_next (by exact h)
  · next k p _ =>
    dsimp only
    split
    · exact exec_keepsShape _ h
    · have hf := h.fetch (k := k) (p := p)
      split
      · next e => rw [e] at hf; exact exec_keepsShape _ hf
      · next e => rw [e] at hf; exact keepsShape_next (State.shapeOk.trapStop hf)
      · exact keepsShape_next h.meetFault
      · exact keepsShape_next h.stallOn

theorem step_keepsShape {s : State} (h : s.shapeOk) : KeepsShape (step s) := by
  unfold step
  split
  · have ha {l : List Instr} : ({ s with agenda := l } : State).shapeOk := h
    have hw {l : List Instr} : ({ s with agenda := l, issuing := none } : State).wake.shapeOk := h
    split
    · exact keepsShape_next ha
    · exact exec_keepsShape _ hw
  · split
    · exact keepsShape_next (by exact h)
    · split
      · exact keepsShape_next h.wake.tick
      · split
        · next e => exact keepsShape_next (h.wake.faultsDue e)
        · split
          · exact keepsShape_next h.wake.tick
          · exact runWord_keepsShape h.wake.startIssue

/-- Settles O17: each step answers a state with all its parts, move by move. -/
theorem partsStay : Obligations.PartsStay := fun _ t h e => step_keepsShape h t e


end Sys2Proof.Machine
end

section
/-! SUPPORT. A step that issues a word (R87, R138, R200). -/

namespace Sys2Proof.Machine

-- One proof after another: side by side, they hold more memory than the check of the whole text allows.
set_option Elab.async false

theorem instrOf_of_decode {w : Word} {i : Instr} (h : decode w = .ok i) : instrOf w = i := by
  unfold instrOf
  rw [h]

section

variable {s : State} {k : Skein} {p : Split}

/-- With nothing on the agenda, the clocks running and no command fault due, the next port's split issues (R138). -/
theorem step_of_nextCand {c : Cand} (ha : s.agenda = []) (hh : s.halted = false) (hi : s.idleCycle = false)
    (hf : s.wake.faultsDue = none) (hc : s.wake.nextCand = some c) : step s = runWord (s.wake.startIssue c) := by
  unfold step
  rw [ha]
  simp only [hh, hi, hf, hc, Bool.false_eq_true, if_false]

/-- A fetched word is run as the decoder reads it. -/
theorem runWord_of_word {t : State} {w : Word} (hc : s.current = some (k, p)) (ha : p.again = none) (hf : s.fetch k p = .word w t) :
    runWord s = exec (instrOf w) t := by
  unfold runWord
  simp only [hc, ha, hf]

/-- A split whose replay waits performs its instruction (R200). -/
theorem runWord_of_replay {r : Redo} (hc : s.current = some (k, p)) (ha : p.again = some r) : runWord s = exec r.instr s := by
  unfold runWord
  simp only [hc, ha]

end

/-- Settles O5: the step issues at the next port, whose split performs its replay or runs the word that it fetches. -/
theorem stepRunsTheFetchedWord : Obligations.StepRunsTheFetchedWord := by
  intro s c k p ha hh hi hf hn t0 hc
  have hs : step s = runWord t0 := step_of_nextCand ha hh hi hf hn
  refine ⟨fun hr w i t hw hd => ?_, fun r hr => hs.trans (runWord_of_replay hc hr)⟩
  rw [hs, runWord_of_word hc hr hw, instrOf_of_decode hd]

end Sys2Proof.Machine
end

section
/-! SUPPORT. What a SPLIT divides and what a completed JOIN merges (R130 to R135). -/

namespace Sys2Proof.Machine

-- One proof after another: side by side, they hold more memory than the check of the whole text allows.
set_option Elab.async false

section

variable (k : Skein) (p : Split) (taken : Mask) (target : Addr) (x : OSet) (now : Nat)

/-- The entry that a SPLIT pushes (R132). -/
def Split.entry : StackSlot :=
  { used := true, pc := 0, opened := true, rejoin := p.members, arrived := 0, em := p.em, taken := taken, takenPc := target,
    fr := p.fr, co := p.co, parent := p.inner }

/-- The lanes of a SPLIT that fall through (R132). -/
def Split.falls : Split :=
  let fall := p.members &&& ~~~taken
  { p with members := fall, em := p.em &&& fall, co := p.co ||| x, inner := some k.stack.length }

/-- The lanes that a SPLIT sends to its target (R132). -/
def Split.goes : Split :=
  { p with
    uid := k.nextUid, pc := target, members := taken, em := taken, co := p.co ||| x, inner := some k.stack.length, since := now,
    yielded := none, st := .ready }

theorem divide_stack : (k.divide p taken target x now).stack = k.stack ++ [p.entry taken target] := rfl

theorem divide_splits : (k.divide p taken target x now).splits =
    k.splits.filter (·.uid != p.uid) ++ (if p.members &&& ~~~taken = 0 then [] else [p.falls k taken x]) ++
      (if taken = 0 then [] else [p.goes k taken target x now]) := by
  unfold Skein.divide
  simp only [beq_iff_eq]
  rfl

end

/-- The split that goes on after a completed JOIN (R134). -/
def Skein.merged (k : Skein) (now : Nat) (e : StackSlot) : Split :=
  { uid := k.nextUid, pc := e.pc + 4, members := e.arrived, em := e.em &&& e.arrived, fr := e.fr, co := e.co, inner := e.parent,
    st := .ready, since := now, yielded := none, hints := Hints.empty, stub := none }

/-- An entry whose last path has arrived leaves one split in the place of those that waited at its JOIN (R134). -/
theorem complete_splits {k : Skein} {n : Nat} {e : StackSlot} (now : Nat) (he : k.stack[n]? = some e) (hu : e.used = true)
    (ha : e.arrived = e.rejoin) (hr : e.rejoin ≠ 0) :
    (k.complete now n).splits = k.splits.filter (fun p => !(p.inner == some n && p.st == .joinWait true)) ++ [k.merged now e] := by
  have hr' : (e.rejoin == 0) = false := beq_false_of_ne hr
  unfold Skein.complete
  simp only [he, hu, ha, hr', bne_self_eq_false, Bool.not_true, Bool.or_false, Bool.false_eq_true, if_false]
  rw [Skein.merged, ha]

/-- Settles O32: the entry and the two sides of a SPLIT, and the split that a completed JOIN leaves, field by field. -/
theorem splitAndJoin : Obligations.SplitAndJoin := by
  refine ⟨fun k p taken target x now => ⟨⟨p.entry taken target, divide_stack .., rfl, rfl, rfl, rfl, rfl, rfl, rfl, rfl, rfl, rfl⟩,
    p.falls k taken x, p.goes k taken target x now, divide_splits .., rfl, rfl, rfl, rfl, rfl, rfl, rfl, rfl, rfl, rfl, rfl, rfl, rfl, rfl,
      rfl, rfl⟩, fun k now n e he hu ha hr => ?_⟩
  exact ⟨k.merged now e, complete_splits now he hu ha hr, rfl, rfl, rfl, rfl, rfl, rfl, rfl, rfl⟩

end Sys2Proof.Machine
end

section
/-! SUPPORT. What the resumption of a stopped skein restores, and the single step (R137, R200, R247, R370, R373). -/

namespace Sys2Proof.Machine

-- One proof after another: side by side, they hold more memory than the check of the whole text allows.
set_option Elab.async false

/-! ## An acquire at SY (R144, R179, R238) -/

theorem acquire_mem (s : State) (sid scope : Nat) : (s.acquire sid scope).mem = s.mem := by
  unfold State.acquire
  cases s.skein? sid with
  | none => rfl
  | some k =>
    dsimp only
    split <;> split <;> rfl

/-- An acquire at SY moves what the skein has acquired to the present, and nothing else of it. -/
theorem skein_acquire_same {s : State} {k : Skein} (h : s.skein? k.id = some k) :
    (s.acquire k.id 4).skein? k.id = some { k with acquired := s.past.length } := by
  unfold State.acquire
  rw [h]
  refine skein_setSkein_same (k := { k with acquired := s.past.length }) ?_
  show (s.skein? k.id).isSome
  rw [h]
  rfl

/-! ## The splits of a resumed skein (R137, R200, R352, R370) -/

/-- A split in the state that it held, STALLED as READY, and still counted at the basket of its QPUSH (R137, R296). -/
theorem wake_eq (p : Split) : p.wake = { p with
    st := (match p.st with | .stalled _ => .ready | y => y),
    pushing := (match p.st with | .stalled (.basket cl slot _) => some (cl, slot) | _ => p.pushing) } := by
  unfold Split.wake
  cases hst : p.st with
  | stalled on => cases on <;> rfl
  | ready | held | joinWait | parked => simp only [← hst]

theorem wake_again (p : Split) : p.wake.again = p.again := by rw [wake_eq]

theorem atResume_of_no_replay {p : Split} (h : p.again = none) : p.atResume = p.wake := by
  have hw : p.wake.again = none := (wake_again p).trans h
  unfold Split.atResume Split.redo
  rw [hw]

/-- A split with a replay to perform stands at its instruction (R200). -/
theorem atResume_of_replay {p : Split} {r : Redo} (h : p.again = some r) :
    p.atResume = { p.wake with pc := r.word, hints := r.hints } := by
  have hw : p.wake.again = some r := (wake_again p).trans h
  unfold Split.atResume Split.redo
  simp only [hw]

/-- The split that stopped at a TRAP, a BRK or a TACK that names a recipe moves on (R352, R370). -/
def Stop.movesOn (st : Stop) (p : Split) : Prop :=
  p.uid = st.uid ∧ (st.record.cause = 2 ∨ st.record.cause = 3 ∨ (st.record.cause = 5 ∧ st.record.imm ≠ 0xFFFFFFFF#32))

section

variable {st : Stop} {p : Split}

theorem movesOn_iff : (p.uid == st.uid &&
    (st.record.cause == 2 || st.record.cause == 3 || (st.record.cause == 5 && st.record.imm != 0xFFFFFFFF#32))) = true ↔ st.movesOn p := by
  simp [Stop.movesOn, or_assoc]

theorem continues_of_not_movesOn (h : ¬st.movesOn p) : st.continues p = p := by
  unfold Stop.continues
  rw [if_neg (mt movesOn_iff.mp h)]

/-- At the end of a recipe stub the split goes on at its resume address (R370). -/
theorem continues_at_stub {r : Addr} (h : st.movesOn p) (hr : p.stub = some (st.record.word + 4, r)) :
    st.continues p = { p with pc := r, stub := none } := by
  unfold Stop.continues
  rw [if_pos (movesOn_iff.mpr h), hr]
  simp only [beq_self_eq_true, if_true]

theorem continues_at_next (h : st.movesOn p) (hr : ∀ r, p.stub ≠ some (st.record.word + 4, r)) :
    st.continues p = { p with pc := st.record.word + 4 } := by
  unfold Stop.continues
  rw [if_pos (movesOn_iff.mpr h)]
  cases hs : p.stub with
  | none => rfl
  | some e =>
    have hne : st.record.word + 4 ≠ e.1 := fun he => hr e.2 (by rw [hs, he])
    simp only [beq_eq_false_iff_ne.mpr hne, Bool.false_eq_true, if_false]

end

/-- The skein runs again with each of its splits resumed, and what it acquires is all that has been stored (R247). -/
theorem skein_resumeSkein {s : State} {k : Skein} {st : Stop} (hk : s.skein? k.id = some k) (hs : k.stop = some st) :
    (s.resumeSkein k.id).mem = s.mem ∧ (s.resumeSkein k.id).skein? k.id =
      some { k with stop := none, splits := k.splits.map fun p => (st.continues p).atResume, acquired := s.past.length } := by
  unfold State.resumeSkein
  rw [hk]
  simp only [hs]
  refine ⟨(acquire_mem ..).trans rfl, ?_⟩
  exact skein_acquire_same (k := { k with stop := none, splits := k.splits.map fun p => (st.continues p).atResume })
    (skein_setSkein_same (hk ▸ rfl))

/-! ## The single step (R373) -/

theorem stepStop_clear (s : State) (sid uid : Nat) : s.stepStop sid uid false = s := rfl

theorem stepStop_set {s : State} {k : Skein} {p : Split} {uid : Nat} (hk : s.skein? k.id = some k) (hs : k.stop = none)
    (hp : k.split? uid = some p) :
    s.stepStop k.id uid true = s.takeStop k uid { k.record p.pc p.pc p.em with cause := 4 } 0 none := by
  have hc : k.current uid = some p := by
    unfold Skein.current
    rw [hp]
  unfold State.stepStop
  simp only [hk, hs, hc, split_uid hp, Bool.not_true, Bool.false_eq_true, if_false, Option.isSome_none]

/-- Settles O21: each split moves as its stop says, then wakes, then stands at its replay. -/
theorem resumption : Obligations.Resumption := by
  refine ⟨fun s k st hk hs => ?_, stepStop_clear, fun s k p uid hk hs hp => stepStop_set hk hs hp⟩
  obtain ⟨hm, hk'⟩ := skein_resumeSkein hk hs
  refine ⟨hm, _, hk', rfl, List.length_map _, fun n p hn => ⟨(st.continues p).atResume, ?_, ?_⟩⟩
  · rw [List.getElem?_map, hn]
    rfl
  · intro back redo next moves
    have resumed {x : Split} (hx : x.again = p.again) : x.atResume = redo (back x) := by
      have hw : x.wake = back x := wake_eq x
      cases hr : p.again with
      | none =>
        rw [atResume_of_no_replay (hx.trans hr), hw]
        simp only [redo, hr]
      | some r =>
        rw [atResume_of_replay (hx.trans hr), hw]
        simp only [redo, hr]
    refine ⟨fun hmove => ?_, fun hmove => ⟨fun r hr => ?_, fun hr => ?_⟩⟩
    · rw [continues_of_not_movesOn hmove, resumed rfl]
    · rw [continues_at_stub hmove hr]
      exact resumed rfl
    · rw [continues_at_next hmove hr]
      exact resumed rfl

end Sys2Proof.Machine
end

section
/-! SUPPORT. SPLIT, JOIN, EXIT and YIELD, case by case (R131 to R135, R154 to R157). -/

namespace Sys2Proof.Machine

-- One proof after another: side by side, they hold more memory than the check of the whole text allows.
set_option Elab.async false

theorem maskOf_eq {f : Nat → Bool} {m : Mask} (h : ∀ l, l < 32 → m.getLsbD l = f l) : maskOf f = m :=
  BitVec.eq_of_getLsbD_eq fun l hl => by rw [getLsbD_maskOf, decide_eq_true hl, Bool.true_and, h l hl]

section

variable {s : State} {k : Skein} {p : Split}

/-! ## SPLIT (R132, R154) -/

/-- What a SPLIT does once its operand is read. -/
def Iss.split (x : Iss) (q : BitVec 8) (disp : BitVec 18) : Res State := do
  x.need (decide (x.k.stack.length < 256)) 0x8205 x.p.em
  .ok (x.put (x.k.divide x.p (maskOf fun l => inMask x.p.em l && x.bit0 l q.toNat) (x.disp disp) x.rd x.s.issueTicks))

theorem exec_split (q : BitVec 8) (disp : BitVec 18) : exec (.split q disp) s =
    issue (.split q disp) s fun x => x.operands [opdIn q.toNat 1 x.p.em] >>= fun x => x.split q disp := rfl

theorem split_divides {x : Iss} {q : BitVec 8} {disp : BitVec 18} {taken : Mask} (h : x.k.stack.length < 256)
    (ht : ∀ l, l < 32 → taken.getLsbD l = (x.p.em.getLsbD l && x.bit0 l q.toNat)) :
    x.split q disp = .ok (x.put (x.k.divide x.p taken (x.disp disp) x.rd x.s.issueTicks)) := by
  have hm : (maskOf fun l => inMask x.p.em l && x.bit0 l q.toNat) = taken := maskOf_eq ht
  unfold Iss.split
  rw [decide_eq_true h, hm]
  rfl

theorem split_full {x : Iss} {q : BitVec 8} {disp : BitVec 18} (h : 256 ≤ x.k.stack.length) :
    x.split q disp = .error (.trap 0x8205 x.p.em [] (x.rd ||| x.p.co)) := by
  unfold Iss.split
  rw [decide_eq_false (by omega)]
  rfl

theorem split_completes {q : BitVec 8} {disp : BitVec 18} {x : Iss} {taken : Mask} (hs : Starts (.split q disp) s k p)
    (ho : (Iss.start s k p).operands [opdIn q.toNat 1 p.em] = .ok x) (hfree : x.k.stack.length < 256)
    (ht : ∀ l, l < 32 → taken.getLsbD l = (p.em.getLsbD l && x.bit0 l q.toNat)) :
    Completes (.split q disp) s k p (x.put (x.k.divide x.p taken (p.pc + 4 * disp.signExtend 64) x.rd s.issueTicks)) := by
  obtain ⟨-, hpc, -, hp, -⟩ := operands_keeps ho
  obtain ⟨n, ks, hst⟩ := operands_state ho
  have hdisp : x.disp disp = p.pc + 4 * disp.signExtend 64 := by
    unfold Iss.disp
    rw [hpc]
    rfl
  have htime : x.s.issueTicks = s.issueTicks := by
    rw [hst]
    rfl
  rw [← hdisp, ← htime]
  refine completes_of_body (exec_split q disp) hs ((res_bind_ok ho).trans (split_divides hfree ?_))
  rw [hp]
  exact ht

theorem split_traps {q : BitVec 8} {disp : BitVec 18} {x : Iss} (hs : Starts (.split q disp) s k p)
    (ho : (Iss.start s k p).operands [opdIn q.toNat 1 p.em] = .ok x) (hfull : 256 ≤ k.stack.length) :
    Traps (.split q disp) s k p 0x8205 p.em [] (x.rd ||| p.co) := by
  obtain ⟨-, -, -, hp, hk⟩ := operands_keeps ho
  have hstack : x.k.stack = k.stack := by
    rw [hk]
    rfl
  have h := split_full (q := q) (disp := disp) (hstack ▸ hfull)
  rw [hp] at h
  exact traps_of_body (exec_split q disp) hs ((res_bind_ok ho).trans h)

/-! ## JOIN (R133, R155) -/

/-- What a JOIN does. -/
def Iss.join (x : Iss) : Res State :=
  match x.p.inner with
  | none => x.trap 0x8205 x.p.members
  | some n =>
    let e := x.k.stack.getD n default
    let k := x.k.modSplit x.p.uid fun q => { q with st := .joinWait (e.opened || e.pc == x.pc) }
    if e.opened || e.pc == x.pc then
      .ok (x.put (Skein.complete
        { k with stack := k.stack.set n { e with opened := false, pc := x.pc, arrived := e.arrived ||| x.p.members } } x.s.issueTicks n))
    else .ok (x.put k)

theorem exec_join : exec .join s = issue .join s Iss.join := rfl

theorem join_traps (hs : Starts .join s k p) (h : p.inner = none) : Traps .join s k p 0x8205 p.members [] p.co := by
  refine traps_of_body exec_join hs ?_
  have hin : (Iss.start s k p).p.inner = none := h
  have hset : (Iss.start s k p).rd ||| (Iss.start s k p).p.co = p.co := BitVec.zero_or
  unfold Iss.join Iss.trap
  rw [hin, hset]
  rfl

theorem join_completes {n : Nat} {e : StackSlot} (hs : Starts .join s k p) (h : p.inner = some n) (he : k.stack[n]? = some e) :
    let x := Iss.start s k p
    let waits (b : Bool) := x.k.modSplit p.uid fun q => { q with st := .joinWait b }
    (¬(e.opened = true ∨ e.pc = p.pc) → Completes .join s k p (x.put (waits false))) ∧
    (e.opened = true ∨ e.pc = p.pc → Completes .join s k p (x.put (Skein.complete
      { (waits true) with stack := k.stack.set n { e with opened := false, pc := p.pc, arrived := e.arrived ||| p.members } }
      s.issueTicks n))) := by
  intro x waits
  have hin : x.p.inner = some n := h
  have hslot : x.k.stack.getD n default = e := by
    show k.stack.getD n default = e
    rw [List.getD_eq_getElem?_getD, he]
    rfl
  have hhere : (e.opened || e.pc == x.pc) = true ↔ e.opened = true ∨ e.pc = p.pc := by
    rw [Bool.or_eq_true, beq_iff_eq]
    rfl
  refine ⟨fun hno => completes_of_body exec_join hs ?_, fun hyes => completes_of_body exec_join hs ?_⟩
  · have hf := Bool.eq_false_iff.mpr (mt hhere.mp hno)
    show Iss.join x = _
    unfold Iss.join
    simp only [hin, hslot, hf, Bool.false_eq_true, if_false]
    rfl
  · show Iss.join x = _
    unfold Iss.join
    simp only [hin, hslot, hhere.mpr hyes, if_true]
    rfl

/-! ## EXIT (R135, R156, R170, R172) -/

/-- The skein that an EXIT leaves, and its departure from the block's barriers. -/
def Iss.leave (x : Iss) : State := (x.put (x.k.exit x.p x.s.issueTicks)).exitBars (x.k.exit x.p x.s.issueTicks)

theorem exec_exit : exec .exit s = issue .exit s fun x =>
    if x.s.exitArrives (x.k.exit x.p x.s.issueTicks) then x.releaseIf (fun _ => true) true >>= fun y => .ok y.leave
    else .ok x.leave := rfl

theorem exit_completes (hs : Starts .exit s k p)
    (ha : (Iss.start s k p).s.exitArrives ((Iss.start s k p).k.exit (Iss.start s k p).p (Iss.start s k p).s.issueTicks) = false) :
    Completes .exit s k p (Iss.start s k p).leave := by
  refine completes_of_body exec_exit hs ?_
  rw [if_neg (Bool.eq_false_iff.mp ha)]

/-- An EXIT that makes an arrival releases what the skein has stored first (R172). -/
theorem exit_completes_released {y : Iss} (hs : Starts .exit s k p)
    (ha : (Iss.start s k p).s.exitArrives ((Iss.start s k p).k.exit (Iss.start s k p).p (Iss.start s k p).s.issueTicks) = true)
    (hy : (Iss.start s k p).releaseIf (fun _ => true) true = .ok y) : Completes .exit s k p y.leave := by
  refine completes_of_body exec_exit hs ?_
  rw [if_pos ha, res_bind_ok hy]

/-! ## YIELD (R157) -/

theorem exec_yieldI : exec .yieldI s = issue .yieldI s fun x =>
    .ok (x.put (x.k.modSplit x.p.uid fun q => { q with yielded := some (x.others, x.s.issueTicks + 64) })) := rfl

theorem mem_others {x : Iss} {sid uid : Nat} : (sid, uid) ∈ x.others ↔ ∃ j ∈ x.s.skeins, j.id = sid ∧ j.port = x.k.port ∧ j.stop = none ∧
    ∃ q ∈ j.splits, q.uid = uid ∧ q.st = .ready ∧ (sid ≠ x.k.id ∨ uid ≠ x.p.uid) := by
  unfold Iss.others
  simp only [List.mem_flatMap, List.mem_filter, List.mem_map, Bool.and_eq_true, Bool.not_eq_true', Bool.and_eq_false_iff, beq_iff_eq,
    beq_eq_false_iff_ne, Option.isNone_iff_eq_none, Prod.mk.injEq]
  constructor
  · rintro ⟨j, ⟨hj, hport, hstop⟩, q, ⟨hq, hst, hne⟩, rfl, rfl⟩
    exact ⟨j, hj, rfl, hport, hstop, q, hq, rfl, hst, hne⟩
  · rintro ⟨j, hj, rfl, hport, hstop, q, hq, rfl, hst, hne⟩
    exact ⟨j, ⟨hj, hport, hstop⟩, q, ⟨hq, hst, hne⟩, rfl, rfl⟩

end

/-- Settles O31: each of the four words by what it does in the cases of its rule. -/
theorem divergenceCompletes : Obligations.DivergenceCompletes := by
  refine ⟨fun q disp s k p x taken hs ho hfree ht => split_completes hs ho hfree ht, fun q disp s k p x hs ho hfull => split_traps hs ho hfull,
    fun s k p hs h => join_traps hs h, fun s k p n e hs h he => join_completes hs h he,
    fun s k p hs => ⟨exit_completes hs, fun ha y hy => exit_completes_released hs ha hy⟩,
    fun s k p hs => ⟨completes_of_body exec_yieldI hs rfl, fun sid uid => mem_others⟩⟩

end Sys2Proof.Machine
end

section
/-! SUPPORT. The skein of a word once its operands are read and its stores are released (R22, R172, R212). -/

namespace Sys2Proof.Machine

-- One proof after another: side by side, they hold more memory than the check of the whole text allows.
set_option Elab.async false

/-- The skein that a word works on is the one of its slot. -/
def Iss.placed (x : Iss) : Prop := x.s.skein? x.k.id = some x.k

theorem placed_start {i : Instr} {s : State} {k : Skein} {p : Split} (h : Starts i s k p) : (Iss.start s k p).placed :=
  skein_start (current_cases h.1).1

theorem placed_readLanded {x : Iss} (ops : List Opd) (h : x.placed) : (x.readLanded ops).placed :=
  skein_setSkein_same (s := { x.s with free := x.s.free + (x.readLanded ops).k.pend.length }) (k := (x.readLanded ops).k)
    (Option.isSome_iff_exists.mpr ⟨_, h⟩)

theorem placed_operands {x y : Iss} {ops : List Opd} (h : x.placed) (ho : x.operands ops = .ok y) : y.placed := by
  unfold Iss.operands Iss.operandsBut at ho
  split at ho
  · cases ho
    exact placed_readLanded ops h
  · dsimp only at ho
    split at ho
    · cases ho
    · split at ho
      · cases ho
      · split at ho
        · rw [intact_ok ho]
          exact h
        · split at ho
          · cases ho
          · rw [intact_ok ho]
            exact placed_readLanded ops h

/-- A release leaves of the skein all but its waiting stores, and the rest of the word as it was. -/
theorem release_keeps {x y : Iss} {bk : Bool} (h : x.placed) (hr : x.release bk = .ok y) :
    ∃ t es, y = { x with s := t, k := { x.k with stores := es } } := by
  unfold Iss.release Iss.releaseIf at hr
  obtain ⟨es, hes⟩ := skein_release_same x.s (·.owners.contains x.p.uid) bk h
  simp only [hes] at hr
  split at hr
  · cases hr
    exact ⟨_, es, rfl⟩
  · cases hr

end Sys2Proof.Machine
end

section
/-! SUPPORT. SPAWN and LAUNCH, with the bins of a cluster and the statuses of their lanes (R147, R173 to R176). -/

namespace Sys2Proof.Machine

-- One proof after another: side by side, they hold more memory than the check of the whole text allows.
set_option Elab.async false

/-! ## The lanes that fail a test -/

section

variable {x : Iss} {f : Nat → Bool}

theorem getLsbD_lanesWith (l : Nat) : (x.lanesWith f).getLsbD l = (decide (l < 32) && (x.p.em.getLsbD l && f l)) := getLsbD_maskOf _ l

theorem lanesWith_eq_zero (h : ∀ l, l < 32 → x.p.em.getLsbD l = true → f l = false) : x.lanesWith f = 0 :=
  maskOf_eq fun l hl => by
    cases he : x.p.em.getLsbD l with
    | false => simp [inMask, he]
    | true => simp [h l hl he]

theorem lanesWith_ne_zero {l : Nat} (hl : l < 32) (he : x.p.em.getLsbD l = true) (hf : f l = true) : x.lanesWith f ≠ 0 :=
  (ne_zero_iff_bit _).mpr ⟨l, by rw [getLsbD_lanesWith, decide_eq_true hl, he, hf]; rfl⟩

end

/-- The status of a lane, 0 where it has none. -/
def statusOf (r : List (Nat × Nat)) (l : Nat) : Nat :=
  match r.find? (·.1 == l) with
  | some q => q.2
  | none => 0

theorem elim_eq_statusOf (r : List (Nat × Nat)) : (fun l => (r.find? (·.1 == l)).elim 0 (·.2)) = statusOf r := by
  funext l
  unfold statusOf
  cases r.find? (·.1 == l) <;> rfl

/-! ## Threads and bins (R147, R173) -/

/-- Two changes of a cluster that agree on it are one. -/
theorem modCluster_congr {s : State} {n : Nat} {f g : Cluster → Cluster} (h : f (s.cluster n) = g (s.cluster n)) :
    s.modCluster n f = s.modCluster n g := by
  have hl : s.clusters.modify n f = s.clusters.modify n g := by
    refine List.ext_getElem? fun i => ?_
    rw [List.getElem?_modify, List.getElem?_modify]
    by_cases hi : n = i
    · subst hi
      cases hc : s.clusters[n]? with
      | none => rfl
      | some c =>
        have hcl : s.cluster n = c := by
          rw [State.cluster, List.getD_eq_getElem?_getD, hc]
          rfl
        rw [hcl] at h
        simp [h]
    · simp [hi]
  unfold State.modCluster modAt
  rw [hl]

section

variable {s : State} {cl entry arg : Nat} {g : Grid} {giver : Nat × Nat} {vset coset : OSet}

theorem placeThread_nested (h : g.level = 9) : s.placeThread cl g giver entry arg vset coset = (s, 2) := if_pos h

/-- A thread of an entry without a bin opens one while the cluster has fewer than 64. -/
theorem placeThread_unbinned (h : g.level ≠ 9) (hn : ∀ b ∈ (s.cluster cl).bins, ¬(b.entry = entry ∧ b.grid = g.id)) :
    s.placeThread cl g giver entry arg vset coset = if 64 ≤ (s.cluster cl).bins.length then (s, 1)
      else (s.modCluster cl fun c => { c with
        bins := c.bins ++ [⟨entry, g.id, [BitVec.ofNat 64 arg], vset, coset, s.ticks, [giver]⟩] }, 0) := by
  have hf : ((s.cluster cl).bins.find? fun b => b.entry == entry && b.grid == g.id) = none :=
    List.find?_eq_none.mpr fun b hb => by simpa using hn b hb
  unfold State.placeThread
  rw [if_neg h]
  simp only [hf]
  rfl

/-- A thread of an entry with a bin joins it, and a bin that then has 32 threads launches. -/
theorem placeThread_binned {pre post : List Bin} {b : Bin} (h : g.level ≠ 9) (hb : (s.cluster cl).bins = pre ++ b :: post)
    (hpre : ∀ c ∈ pre, ¬(c.entry = entry ∧ c.grid = g.id)) (hmine : b.entry = entry ∧ b.grid = g.id)
    (hpost : ∀ c ∈ post, ¬(c.entry = entry ∧ c.grid = g.id)) :
    let b' : Bin := { b with
      args := b.args ++ [BitVec.ofNat 64 arg], vset := b.vset ||| vset, coset := b.coset ||| coset, givers := giver :: b.givers }
    let t := s.modCluster cl fun c => { c with bins := pre ++ b' :: post }
    s.placeThread cl g giver entry arg vset coset = (if b.args.length < 31 then t else t.launchBin cl b', 0) := by
  intro b' t
  have hf : ((s.cluster cl).bins.find? fun c => c.entry == entry && c.grid == g.id) = some b := by
    rw [hb, List.find?_append, List.find?_eq_none.mpr fun c hc => by simpa using hpre c hc]
    simp [hmine.1, hmine.2]
  have keeps {l : List Bin} (hl : ∀ c ∈ l, ¬(c.entry = entry ∧ c.grid = g.id)) :
      (l.map fun y => if y.entry == entry && y.grid == g.id then b' else y) = l := by
    refine (List.map_congr_left fun c hc => ?_).trans (List.map_id l)
    exact if_neg (by simpa using hl c hc)
  have hbins : ((s.cluster cl).bins.map fun y => if y.entry == entry && y.grid == g.id then b' else y) = pre ++ b' :: post := by
    rw [hb, List.map_append, List.map_cons, keeps hpre, keeps hpost]
    simp [hmine.1, hmine.2]
  have ht : (s.modCluster cl fun c => { c with
      bins := c.bins.map fun y => if y.entry == entry && y.grid == g.id then b' else y }) = t :=
    modCluster_congr (by rw [hbins])
  have hlen : b'.args.length = b.args.length + 1 := List.length_append
  unfold State.placeThread
  rw [if_neg h]
  simp only [hf]
  show (if 32 ≤ b'.args.length then (State.modCluster s cl _).launchBin cl b' else State.modCluster s cl _, 0) = _
  rw [ht, hlen]
  by_cases hfull : b.args.length < 31
  · rw [if_neg (by omega), if_pos hfull]
  · rw [if_pos (by omega), if_neg hfull]

end

/-! ## SPAWN (R173) -/

section

variable {s : State} {k : Skein} {p : Split} {x y : Iss} {a b : BitVec 8} {la : BitVec 4}

/-- The lanes whose entry is no kernel of one skein. -/
def Iss.unspawnable (x : Iss) (a : BitVec 8) : Mask := x.lanesWith fun l => !x.s.spawnable x.k (x.raw l (a.toNat + 16) 16)

/-- The threads of a SPAWN in their bins, with the state and the status of each lane. -/
def Iss.spawns (y : Iss) (a : BitVec 8) : State × List (Nat × Nat) :=
  y.s.placeThreads y.k.cluster (y.s.spawner y.k) (y.k.grid, y.k.block) y.rset y.p.co
    (y.active.map fun l => (l, y.raw l (a.toNat + 16) 16, y.raw l a.toNat 16))

/-- What a SPAWN leaves once it has released. -/
def Iss.spawned (y : Iss) (a b : BitVec 8) (la : BitVec 4) : State :=
  (y.spawns a).1.setSkein
    (y.wrLate (y.h.look la) b.toNat 1 (fun l => ((y.spawns a).2.find? (·.1 == l)).elim 0 (·.2)) y.rset [])

/-- What a SPAWN does once its operands are read. -/
def Iss.spawn (x : Iss) (a b : BitVec 8) (la : BitVec 4) : Res State :=
  if x.p.em == 0 then .ok x.s
  else do
    x.need (x.unspawnable a == 0) 0x8204 (x.unspawnable a)
    let y ← x.release true
    .ok (y.spawned a b la)

theorem exec_spawn : exec (.spawn a b la) s = issue (.spawn a b la) s fun x =>
    x.operands [⟨a.toNat, 32, 32, x.p.em, true, false⟩, opdOut b.toNat 1] >>= fun x => x.spawn a b la := rfl

theorem spawn_idle (h : x.p.em = 0) : x.spawn a b la = .ok x.s := if_pos (beq_iff_eq.mpr h)

theorem spawn_ok (h : x.p.em ≠ 0) (hl : ∀ l, l < 32 → x.p.em.getLsbD l = true → x.s.spawnable x.k (x.raw l (a.toNat + 16) 16) = true)
    (hr : x.release true = .ok y) : x.spawn a b la = .ok (y.spawned a b la) := by
  have hz : x.unspawnable a = 0 := lanesWith_eq_zero fun l hl' he => by rw [hl l hl' he]; rfl
  unfold Iss.spawn
  rw [if_neg (by simpa using h), hz]
  exact res_bind_ok hr

theorem spawn_trap {l : Nat} (hl : l < 32) (he : x.p.em.getLsbD l = true) (hf : x.s.spawnable x.k (x.raw l (a.toNat + 16) 16) = false) :
    x.spawn a b la = .error (.trap 0x8204 (x.unspawnable a) [] (x.rd ||| x.p.co)) := by
  have hem : x.p.em ≠ 0 := (ne_zero_iff_bit _).mpr ⟨l, he⟩
  have hz : (x.unspawnable a == 0) = false := beq_false_of_ne (lanesWith_ne_zero hl he (by rw [hf]; rfl))
  unfold Iss.spawn
  rw [if_neg (by simpa using hem), hz]
  rfl

/-! ## LAUNCH (R174 to R176) -/

variable {disp : BitVec 18} {as : List LaneAcc} {v : ReadView}

/-- The lanes whose descriptor or retire word is misaligned. -/
def Iss.unlaunchable (x : Iss) (a : BitVec 8) : Mask := x.lanesWith fun l => x.raw l a.toNat 16 % 64 != 0 || x.raw l (a.toNat + 16) 16 % 4 != 0

/-- The descriptors that a LAUNCH reads. -/
def Iss.descriptors (x : Iss) (a : BitVec 8) : List (Nat × Nat × Nat) := x.active.map fun l => (l, x.raw l a.toNat 16, 128)

/-- The children of a LAUNCH, with the state and the status of each lane. -/
def Iss.launches (y x : Iss) (v : ReadView) (a : BitVec 8) (entry : Nat) (as : List LaneAcc) : State × List (Nat × Nat) :=
  y.s.launchLanes y.k entry (y.rset ||| accSet as) (as.map fun q => (q.lane, v.bytes q, x.raw q.lane (a.toNat + 16) 16))

/-- What a LAUNCH leaves once it has read its descriptors and released. -/
def Iss.launched (y x : Iss) (v : ReadView) (a : BitVec 8) (entry : Nat) (as : List LaneAcc) : State :=
  (y.launches x v a entry as).1.setSkein ((y.wr a.toNat 8
    (fun l => ((y.launches x v a entry as).2.find? (·.1 == l)).elim 0 (·.2)) (y.rset ||| accSet as)).touch (x.descriptors a))

/-- The entry is that of a kernel of the skein's code object, and the skein is its block's leader (R175). -/
def Iss.leads (x : Iss) (entry : Nat) : Bool :=
  x.k.num == 0 && ((x.s.objOf x.k).elim false fun o => o.kernels.any fun q => o.code + q.entry == entry)

/-- What a LAUNCH does once its operands are read. -/
def Iss.launch (x : Iss) (a : BitVec 8) (entry : Nat) : Res State := do
  x.need (x.leads entry) 0x8204 x.p.em
  x.need (a.toNat % 32 == 0) 0x8202 x.p.em
  if x.p.em == 0 then .ok x.s
  else do
    x.need (x.unlaunchable a == 0) 0x8202 (x.unlaunchable a)
    let as ← x.mapG 1 needLoad (x.descriptors a)
    let v ← x.load 0 as
    let y ← v.i.release true
    .ok (y.launched x v a entry as)

theorem exec_launch : exec (.launch a disp) s = issue (.launch a disp) s fun x =>
    x.operands [⟨a.toNat, 32, 1, x.p.em, true, false⟩, ⟨a.toNat, 8, 1, 0, false, true⟩] >>= fun y =>
      y.launch a (x.pc + 4 * disp.signExtend 64).toNat := rfl

theorem leads_of_kernel {entry : Nat} (hn : x.k.num = 0) (ho : ∃ o, x.s.objOf x.k = some o ∧ ∃ q ∈ o.kernels, o.code + q.entry = entry) :
    x.leads entry = true := by
  obtain ⟨o, ho, q, hq, he⟩ := ho
  unfold Iss.leads
  rw [hn, ho, beq_self_eq_true, Bool.true_and]
  exact List.any_eq_true.mpr ⟨q, hq, beq_iff_eq.mpr he⟩

theorem launch_idle {entry : Nat} (hl : x.leads entry = true) (ha : a.toNat % 32 = 0) (h : x.p.em = 0) : x.launch a entry = .ok x.s := by
  unfold Iss.launch
  rw [hl, ha, h]
  rfl

theorem launch_ok {entry : Nat} (hlead : x.leads entry = true) (ha : a.toNat % 32 = 0) (h : x.p.em ≠ 0)
    (hl : ∀ l, l < 32 → x.p.em.getLsbD l = true → x.raw l a.toNat 16 % 64 = 0 ∧ x.raw l (a.toNat + 16) 16 % 4 = 0)
    (hm : x.mapG 1 needLoad (x.descriptors a) = .ok as) (hv : x.load 0 as = .ok v) (hr : v.i.release true = .ok y) :
    x.launch a entry = .ok (y.launched x v a entry as) := by
  have hz : x.unlaunchable a = 0 := lanesWith_eq_zero fun l hl' he => by rw [(hl l hl' he).1, (hl l hl' he).2]; rfl
  have hem : ¬(x.p.em == 0) = true := by simpa using h
  unfold Iss.launch
  rw [hlead, ha, hz]
  show (if x.p.em == 0 then _ else _) = _
  rw [if_neg hem]
  exact (res_bind_ok hm).trans ((res_bind_ok hv).trans (res_bind_ok hr))

end

section

variable {s : State} {k : Skein} {entry w : Nat} {d : List Byte} {set : OSet}

theorem launchLane_nested (h : (s.gridOf k).level = 9) : s.launchLane k entry d w set = (s, 1) := if_pos h

theorem launchLane_draining (h : (s.gridOf k).level ≠ 9) (hd : s.drains (s.gridOf k).part = true) :
    s.launchLane k entry d w set = (s, 2) := (if_neg h).trans (if_pos hd)

theorem launchLane_full (h : (s.gridOf k).level ≠ 9) (hd : s.drains (s.gridOf k).part = false) (hc : 16 ≤ s.childCount k.grid k.block) :
    s.launchLane k entry d w set = (s, 3) := (if_neg h).trans ((if_neg (Bool.eq_false_iff.mp hd)).trans (if_pos hc))

/-- What a LAUNCH of one lane does with the grid that its descriptor gives, if it gives one. -/
def State.launchChild (s : State) (k : Skein) (w : Nat) (o : Option Grid) : State × Nat :=
  match o with
  | none => (s, 4)
  | some q => if s.retireOk (s.ctxOf k) w (s.gridOf k).tenant then ((s.accept q).2, 0) else (s, 4)

theorem launchLane_of_room (h : (s.gridOf k).level ≠ 9) (hd : s.drains (s.gridOf k).part = false) (hc : s.childCount k.grid k.block < 16) :
    s.launchLane k entry d w set = s.launchChild k w (s.parseDesc (s.ctxOf k)
      (.launch entry (s.gridOf k).tenant ((s.gridOf k).level + 1) (s.gridOf k).prio) (.child k.grid k.block w set) d) :=
  (if_neg h).trans ((if_neg (Bool.eq_false_iff.mp hd)).trans (if_neg (Nat.not_le.mpr hc)))

end

/-- Settles O42: SPAWN and LAUNCH by their bodies, and each thread and child by the cases of its rule. -/
theorem spawnAndLaunchComplete : Obligations.SpawnAndLaunchComplete := by
  refine ⟨fun a b la s k p x y hs ho => ?_, fun s cl entry arg lane g giver vset coset rest => ?_, ?_, ?_⟩
  · obtain ⟨-, -, -, hp, hk⟩ := operands_keeps ho
    have completes {t : State} (h : x.spawn a b la = .ok t) : Completes (.spawn a b la) s k p t :=
      completes_of_body exec_spawn hs ((res_bind_ok ho).trans h)
    refine ⟨fun hem => completes (spawn_idle (hp ▸ hem)), fun hem hl hr => ?_, fun ⟨l, hl, he, hf⟩ => ⟨x.unspawnable a, ?_, fun l hl => ?_⟩⟩
    · obtain ⟨t, es, hy⟩ := release_keeps (placed_operands (placed_start hs) ho) hr
      have hgrid : y.k.grid = k.grid := by rw [hy, hk]; rfl
      have hblock : y.k.block = k.block := by rw [hy, hk]; rfl
      have := completes (spawn_ok (hp ▸ hem) (hp ▸ hl) hr)
      unfold Iss.spawned Iss.spawns at this
      rw [elim_eq_statusOf, hgrid, hblock] at this
      exact this
    · have := traps_of_body exec_spawn hs ((res_bind_ok ho).trans (spawn_trap hl (hp ▸ he) hf))
      rw [hp] at this
      exact this
    · unfold Iss.unspawnable
      rw [getLsbD_lanesWith, hp, decide_eq_true hl]
      simp
  · intro bins r mine
    refine ⟨rfl, fun q hq => ?_, placeThread_nested, fun hg hn => ?_, fun pre b post hg hb hpre hm hpost _ => placeThread_binned hg hb hpre hm hpost⟩
    · rw [hq]
      rfl
    · have hr : r = _ := placeThread_unbinned hg hn
      exact ⟨fun h => hr.trans (if_pos h), fun h => hr.trans (if_neg (Nat.not_le.mpr h))⟩
  · intro a disp s k p x y as v i entry hs ho hnum hobj ha
    obtain ⟨-, -, -, hp, hk⟩ := operands_keeps ho
    have hlead : x.leads entry = true := leads_of_kernel (by rw [hk]; exact hnum) hobj
    have completes {t : State} (h : x.launch a entry = .ok t) : Completes i s k p t :=
      completes_of_body exec_launch hs ((res_bind_ok ho).trans h)
    refine ⟨fun hem => completes (launch_idle hlead ha (hp ▸ hem)),
      fun hem hl hm hv hr => ?_⟩
    have := completes (launch_ok hlead ha (hp ▸ hem) (hp ▸ hl) hm hv hr)
    unfold Iss.launched at this
    rw [elim_eq_statusOf] at this
    exact this
  · intro s k entry d w set g parsed r
    refine ⟨launchLane_nested, launchLane_draining, fun h hd => ⟨launchLane_full h hd, fun hc => ?_⟩⟩
    have hr : r = s.launchChild k w parsed := launchLane_of_room h hd hc
    refine ⟨fun hn => hr.trans (by rw [hn]; rfl), fun q hq => ⟨fun hw => hr.trans ?_, fun hw => hr.trans ?_⟩⟩
    · rw [hq]
      exact if_neg (Bool.eq_false_iff.mp hw)
    · rw [hq]
      exact if_pos hw

end Sys2Proof.Machine
end

section
/-! SUPPORT. The frame of a service call, its checks, and the places that it chooses (R355 to R359). -/

namespace Sys2Proof.Machine

-- One proof after another: side by side, they hold more memory than the check of the whole text allows.
set_option Elab.async false

/-! ## A call that is found is answered (R355, R357) -/

theorem requestOf_state {s : State} {k : Skein} {p : Split} {lane : Nat} {r : Req} (h : s.requestOf k p lane = some r) : r.s = s := by
  unfold State.requestOf at h
  split at h
  · split at h
    · cases h
    · dsimp only at h
      split at h
      · cases h
      · cases h
        rfl
  · cases h

/-- A request holds the state that it was found in. -/
theorem Asks.state {s : State} {sid uid lane num : Nat} {r : Req} (h : Asks s sid uid lane num r) : r.s = s := by
  obtain ⟨k, _, hp⟩ := Option.bind_eq_some_iff.mp h.1
  obtain ⟨p, _, hr⟩ := Option.bind_eq_some_iff.mp hp
  exact requestOf_state hr

section

variable {num : Nat → Bool} {sid uid lane n v : Nat} {s t : State} {body : Req → Serve Ans} {i : Instr} {r : Req} {vs : List Nat} {set : OSet}

theorem serve_of_asks (h : Asks s sid uid lane n r) (hn : num n = true) :
    serve num sid uid lane s body = .next ((finish r (body r)).getD s) := by
  unfold serve
  rw [h.1]
  dsimp only
  rw [h.2, hn]
  rfl

/-- A service that runs to its end answers its call. -/
theorem answers_of_ok (he : exec i s = serve num sid uid lane s body) (h : Asks s sid uid lane n r) (hn : num n = true)
    (hb : body r = .ok ⟨t, v :: vs, set⟩) : Answers i s r t (v :: vs) set := by
  unfold Answers
  rw [he, serve_of_asks h hn, hb]
  rfl

/-- A service that stops with an answer answers its call. -/
theorem answers_of_error (he : exec i s = serve num sid uid lane s body) (h : Asks s sid uid lane n r) (hn : num n = true)
    (hb : body r = .error (some ⟨t, v :: vs, set⟩)) : Answers i s r t (v :: vs) set := by
  unfold Answers
  rw [he, serve_of_asks h hn, hb]
  rfl

end

/-! ## Checks that pass (R358) -/

theorem serve_bind_ok {α β : Type} {x : Serve α} {f : α → Serve β} {a : α} (h : x = .ok a) : (x >>= f) = f a := by
  rw [h]
  rfl

section

variable {α : Type} {r : Req} {c : Bool} {n : Nat} {f : Unit → Serve α}

theorem serve_need_ok (h : c = true) : (r.need c n >>= f) = f () := serve_bind_ok (if_pos h)

theorem serve_found_ok (h : c = true) : (r.found c >>= f) = f () := serve_bind_ok (if_pos h)

theorem serve_zero_ok (h : r.arg n = 0) : r.zeros [n] = .ok () := serve_need_ok (beq_iff_eq.mpr h)

theorem serve_zeros_ok {ns : List Nat} (h : r.arg n = 0) (hs : r.zeros ns = .ok ()) : r.zeros (n :: ns) = .ok () :=
  (serve_need_ok (beq_iff_eq.mpr h)).trans hs

theorem serve_three_zeros (h1 : r.arg 1 = 0) (h2 : r.arg 2 = 0) (h3 : r.arg 3 = 0) : r.zeros [1, 2, 3] = .ok () :=
  serve_zeros_ok h1 (serve_zeros_ok h2 (serve_zero_ok h3))

end

/-- A read changes nothing of a request but its state. -/
theorem serve_read_keeps {r q : Req} {va n : Nat} {set x : OSet} {bs : List Byte} (h : r.read va n set = .ok (q, bs, x)) :
    ∃ t, q = { r with s := t } := by
  unfold Req.read Req.reach at h
  split at h
  · cases h
  · next t ps _ =>
    dsimp only at h
    split at h
    · cases h
    · change (match (partLocs ps).find? t.failedAt with
        | some l => _
        | none => _) = _ at h
      split at h
      · cases h
      · cases h
        exact ⟨t, rfl⟩

/-! ## What a service chooses (log 7) -/

/-- The place that a free word names in a list is one of its entries. -/
theorem getD_mod_mem {l : List Nat} (h : l ≠ []) (w : Nat) : l.getD (w % l.length) 0 ∈ l := by
  have hw : w % l.length < l.length := Nat.mod_lt _ (List.length_pos_iff.mpr h)
  rw [List.getD_eq_getElem _ _ hw]
  exact List.getElem_mem hw

/-- Among one number more than a list has entries, one is not in it. -/
theorem exists_unused (used : List Nat) : ∃ m ∈ List.range (used.length + 1), used.contains m = false := by
  by_contra hall
  have hsub : List.range (used.length + 1) ⊆ used := fun m hm => by
    by_contra hn
    exact hall ⟨m, hm, by simpa using hn⟩
  have := List.nodup_range.length_le_of_subset hsub
  rw [List.length_range] at this
  omega

theorem freshNum_not_mem (s : State) (used : List Nat) (bound : Nat) : (s.freshNum used bound).1 ∉ used := by
  unfold State.freshNum
  dsimp only
  split
  · obtain ⟨m, hm, hu⟩ := exists_unused used
    cases hf : (List.range (used.length + 1)).find? fun m => !used.contains m with
    | none => exact absurd (List.find?_eq_none.mp hf m hm) (by rw [hu]; decide)
    | some q => simpa using List.find?_some hf
  · next h => simpa using h

/-- A base that is found is aligned, below the highest 4 GiB, and clear of what the context holds (R359). -/
theorem freeBase_spec {s : State} {c : Context} {size n va : Nat} (h : (s.freeBase c size n).1 = some va) :
    va % size = 0 ∧ va + n ≤ 2 ^ 64 - 2 ^ 32 ∧ ∀ g ∈ c.regions ++ c.shared, g.meets va n = false := by
  have ok (b : Nat) (hb : (b % size == 0 && decide (b + n ≤ 2 ^ 64 - 2 ^ 32) && !c.taken b n) = true) :
      b % size = 0 ∧ b + n ≤ 2 ^ 64 - 2 ^ 32 ∧ ∀ g ∈ c.regions ++ c.shared, g.meets b n = false := by
    rw [Bool.and_eq_true, Bool.and_eq_true, beq_iff_eq, decide_eq_true_iff] at hb
    obtain ⟨⟨hsize, htop⟩, hfree⟩ := hb
    refine ⟨hsize, htop, fun g hg => ?_⟩
    unfold Context.taken at hfree
    rw [← List.any_append, Bool.not_eq_true', List.any_eq_false] at hfree
    exact Bool.eq_false_iff.mpr (hfree g hg)
  unfold State.freeBase at h
  dsimp only at h
  split at h
  · next hw => cases h; exact ok _ hw
  · split at h
    · next hw => cases h; exact ok _ hw
    · cases h

/-- Frames that are found lie in the partition's ranges, and the next search begins behind them (log 30). -/
theorem freeFrames_spec {s t : State} {part size n f : Nat} (h : s.freeFrames part size n = some (f, t)) :
    (∀ i, i < n / 65536 → (f + i) / 16384 ∈ (s.part part).hbm) ∧
      t = s.modPart part fun q => { q with nextFrame := f + n / 65536 } := by
  unfold State.freeFrames at h
  dsimp only at h
  split at h
  · cases h
  · next g hg =>
    cases h
    refine ⟨fun i hi => ?_, rfl⟩
    have hfits := List.find?_some hg
    simp only [Bool.and_eq_true, List.all_eq_true, List.mem_range, gibFrames] at hfits
    obtain ⟨⟨⟨⟨_, hall⟩, _⟩, _⟩, _⟩ := hfits
    have hin := hall ((f + i) / 16384 - f / 16384) (by omega)
    rw [show f / 2 ^ 14 + ((f + i) / 16384 - f / 16384) = (f + i) / 16384 by omega] at hin
    exact List.contains_iff_mem.mp hin

/-! ## Lists without repetition (R283) -/

theorem eraseDups_of_nodup {l : List Nat} (h : l.Nodup) : l.eraseDups = l := by
  induction l with
  | nil => rfl
  | cons a l ih =>
    obtain ⟨ha, hl⟩ := List.nodup_cons.mp h
    have hf : l.filter (fun b => !b == a) = l :=
      List.filter_eq_self.mpr fun b hb => by simpa using fun e : b = a => ha (e ▸ hb)
    rw [List.eraseDups_cons, hf, ih hl]

theorem findIdx_of_nodup {l : List Nat} {n a : Nat} (h : l.Nodup) (hn : l[n]? = some a) : l.findIdx (· == a) = n := by
  obtain ⟨hlt, rfl⟩ := List.getElem?_eq_some_iff.mp hn
  exact h.idxOf_getElem n hlt

/-- A kernel at an address is one of the context's objects' (R51). -/
theorem kernelAt_isSome {c : Context} {va : Nat} (h : ∃ o ∈ c.objs, ∃ q ∈ o.kernels, o.code + q.entry = va) :
    (c.kernelAt va).isSome = true := by
  obtain ⟨o, ho, q, hq, he⟩ := h
  unfold Context.kernelAt
  refine List.findSome?_isSome_iff.mpr ⟨o, ho, ?_⟩
  rw [Option.isSome_map, List.find?_isSome]
  exact ⟨q, hq, beq_iff_eq.mpr he⟩

end Sys2Proof.Machine
end

section
/-! SUPPORT. The calls for time, memory, baskets, stages, bins, groups and interrupt targets, each with its arguments in their limits
(R147, R184, R283, R293, R296, R338, R355 to R360). -/

namespace Sys2Proof.Machine

-- One proof after another: side by side, they hold more memory than the check of the whole text allows.
set_option Elab.async false

section

variable {sid uid lane : Nat} {s : State} {r q : Req} {bs : List Byte} {x : OSet}

/-! ## Time and memory -/

theorem timeCall_answers (h : Asks r.s sid uid lane 0 r) (h0 : r.arg 0 = 0) (h1 : r.arg 1 = 0) (h2 : r.arg 2 = 0) (h3 : r.arg 3 = 0) :
    let n := (r.s.cluster r.k.cluster).counter
    ∃ now, now < 2 ^ 63 ∧ Answers (.timeCall sid uid lane) r.s r { r.s with free := r.s.free + 1, hostTime := now }
      [now, now / 2 ^ 32, n, n / 2 ^ 32] 0 := by
  intro n
  refine ⟨(r.s.hostTime + r.s.takeWord.1 % 2 ^ 32) % 2 ^ 63, Nat.mod_lt _ (by decide), answers_of_ok (execTimeCall.eq_1 ..) h rfl ?_⟩
  exact serve_bind_ok (serve_zeros_ok h0 (serve_three_zeros h1 h2 h3))

/-- The end of a MEM-ALLOC of G pages: a free bit, a base and frames grant the region or refuse it. -/
def Req.grantG (r : Req) (bytes : Nat) : Serve Ans :=
  let b := r.s.takeBit
  let base := b.2.freeBase r.c (pageBytes (bitsOf (r.arg 2) 1 2)) bytes
  match b.1, base.1, base.2.freeFrames r.c.part (pageBytes (bitsOf (r.arg 2) 1 2)) bytes with
  | false, some va, some (f, t) =>
    .ok ⟨t.setCtx { r.c with regions := r.c.regions ++ [⟨va, bytes, f, bitsOf (r.arg 2) 4 12, 0, 3, bitsOf (r.arg 2) 1 2, 0⟩] },
      [va, va / 2 ^ 32], 0⟩
  | _, _, _ => Req.fail { r with s := base.2 } noResource 0

theorem allocG_of_limits {bytes : Nat} (hkind : bitsOf (r.arg 2) 3 1 = 0) (hhigh : bitsOf (r.arg 2) 16 16 = 0)
    (hsize : bitsOf (r.arg 2) 1 2 ≠ 3) (hb : bytes ≠ 0) (hmod : bytes % pageBytes (bitsOf (r.arg 2) 1 2) = 0)
    (hset : (r.s.oset r.c.part (bitsOf (r.arg 2) 4 12)).subset r.c.readMask = true) (h3 : r.arg 3 = 0) :
    r.allocG bytes = r.grantG bytes := by
  have hcode : bitsOf (r.arg 2) 1 3 < 3 := by
    unfold bitsOf at *
    omega
  unfold Req.allocG
  refine (serve_need_ok (by simp [hb, hmod])).trans ((serve_need_ok (by simp [hcode, hhigh, hset])).trans
    ((serve_bind_ok (serve_zero_ok h3)).trans ?_))
  rfl

/-- A granted region has a base and frames that the searches gave; otherwise the call finds no resource. -/
theorem grantG_cases (r : Req) (bytes : Nat) :
    let size := pageBytes (bitsOf (r.arg 2) 1 2)
    let base := r.s.takeBit.2.freeBase r.c size bytes
    r.grantG bytes = .error (some ⟨base.2, failVals r.call.num noResource, 0⟩) ∨
      ∃ va f t, base.1 = some va ∧ base.2.freeFrames r.c.part size bytes = some (f, t) ∧ r.grantG bytes =
        .ok ⟨t.setCtx { r.c with regions := r.c.regions ++ [⟨va, bytes, f, bitsOf (r.arg 2) 4 12, 0, 3, bitsOf (r.arg 2) 1 2, 0⟩] },
          [va, va / 2 ^ 32], 0⟩ := by
  intro size base
  unfold Req.grantG
  dsimp only
  split
  · next va f t _ hva hf => exact Or.inr ⟨va, f, t, hva, hf, rfl⟩
  · exact Or.inl rfl

theorem memAlloc_answers_g (h : Asks r.s sid uid lane 1 r) (h3 : r.arg 3 = 0) (hg : bitsOf (r.arg 2) 0 1 = 0)
    (hkind : bitsOf (r.arg 2) 3 1 = 0) (hhigh : bitsOf (r.arg 2) 16 16 = 0) (hsize : bitsOf (r.arg 2) 1 2 ≠ 3) (hb : r.pair 0 ≠ 0)
    (hmod : r.pair 0 % pageBytes (bitsOf (r.arg 2) 1 2) = 0)
    (hset : (r.s.oset r.c.part (bitsOf (r.arg 2) 4 12)).subset r.c.readMask = true) :
    (∃ t : State, Answers (.memAlloc sid uid lane) r.s r t [0xFFFF1900, 0xFFFFFFFF] 0 ∧ t = { r.s with free := t.free }) ∨
    ∃ (va f n : Nat) (t : State), va % pageBytes (bitsOf (r.arg 2) 1 2) = 0 ∧ va + r.pair 0 ≤ 2 ^ 64 - 2 ^ 32 ∧
      (∀ g ∈ r.c.regions ++ r.c.shared, g.meets va (r.pair 0) = false) ∧
      (∀ i, i < r.pair 0 / 65536 → (f + i) / 16384 ∈ (r.s.part r.c.part).hbm) ∧
      t = ({ r.s with free := t.free } : State).modPart r.c.part (fun q => { q with nextFrame := n }) ∧
      Answers (.memAlloc sid uid lane) r.s r (t.setCtx { r.c with
        regions := r.c.regions ++ [⟨va, r.pair 0, f, bitsOf (r.arg 2) 4 12, 0, 3, bitsOf (r.arg 2) 1 2, 0⟩] }) [va, va / 2 ^ 32] 0 := by
  have body : (if bitsOf (r.arg 2) 0 1 = 0 then r.allocG (r.pair 0) else r.allocC (r.pair 0)) = r.grantG (r.pair 0) :=
    (if_pos hg).trans (allocG_of_limits hkind hhigh hsize hb hmod hset h3)
  rcases grantG_cases r (r.pair 0) with hfail | ⟨va, f, t, hva, hf, hok⟩
  · rw [h.2] at hfail
    exact Or.inl ⟨_, answers_of_error (execMemAlloc.eq_1 ..) h rfl (body.trans hfail), rfl⟩
  · obtain ⟨halign, htop, hclear⟩ := freeBase_spec hva
    obtain ⟨hin, rfl⟩ := freeFrames_spec hf
    exact Or.inr ⟨va, f, _, _, halign, htop, hclear, hin, rfl, answers_of_ok (execMemAlloc.eq_1 ..) h rfl (body.trans hok)⟩

theorem memAlloc_answers_c (h : Asks r.s sid uid lane 1 r) (h3 : r.arg 3 = 0) (h2 : r.arg 2 = 1) (hb : r.pair 0 ≠ 0)
    (hmod : r.pair 0 % 65536 = 0) (hw : ∀ w ∈ (r.s.cluster r.k.cluster).wins, w.ctx ≠ r.c.id)
    (hroom : (r.s.cluster r.k.cluster).wins.foldl (fun n w => n + w.size) 0 + r.pair 0 ≤ 6291456) :
    Answers (.memAlloc sid uid lane) r.s r (r.s.modCluster r.k.cluster fun c => { c with
      wins := c.wins ++ [⟨r.c.id, r.pair 0, [], List.replicate (r.pair 0 / 1024) (tenantBit r.c.tenant)⟩] })
      [r.pair 0, r.pair 0 / 2 ^ 32] 0 := by
  have hnone : (r.s.cluster r.k.cluster).wins.any (·.ctx == r.c.id) = false :=
    List.any_eq_false.mpr fun w hm => by simpa using hw w hm
  refine answers_of_ok (execMemAlloc.eq_1 ..) h rfl ((if_neg ?_).trans ?_)
  · rw [h2]
    decide
  unfold Req.allocC
  refine (serve_need_ok (by simp [hb, hmod])).trans ((serve_need_ok ?_).trans ((serve_bind_ok (serve_zero_ok h3)).trans ?_))
  · rw [hnone, h2]
    rfl
  · exact if_neg (Nat.not_lt.mpr hroom)

theorem memUnmap_answers (h : Asks r.s sid uid lane 2 r) (h3 : r.arg 3 = 0) (ha : r.pair 0 % 65536 = 0)
    (hr : r.c.holdsRange [0, 2] (r.pair 0) (r.arg 2) = true) (h2 : r.arg 2 ≠ 0) (hm : r.arg 2 % 65536 = 0) :
    Answers (.memUnmap sid uid lane) r.s r (r.s.removeRange r.c.id (r.pair 0) (r.arg 2)) [0] 0 := by
  refine answers_of_ok (execMemUnmap.eq_1 ..) h rfl ?_
  exact (serve_need_ok (by simp [ha, hr])).trans ((serve_need_ok (by simp [h2, hm])).trans (serve_bind_ok (serve_zero_ok h3)))

/-- The arguments of a TAG-WIDEN in their limits (R184). -/
theorem tagWiden_answers (h : Asks r.s sid uid lane 3 r) (h0 : r.arg 0 ≤ 1) (h1 : r.arg 1 % 1024 = 0) (h2 : r.arg 2 ≠ 0)
    (hm : r.arg 2 % 1024 = 0) (h3 : r.arg 3 < 65536) (hset : OSet.subset (BitVec.ofNat 16 (r.arg 3)) r.c.readMask = true)
    (hfit : r.arg 1 + r.arg 2 ≤ r.s.spaceSize r.k (if r.arg 0 = 0 then .s else .c)) :
    Answers (.tagWiden sid uid lane) r.s r (if r.arg 0 = 0
      then r.s.setBlock { r.s.blockOf r.k with spSets := widen (r.s.blockOf r.k).spSets (r.arg 1) (r.arg 2) (BitVec.ofNat 16 (r.arg 3)) }
      else r.s.modCluster r.k.cluster fun c => { c with wins := c.wins.map fun w => if w.ctx = r.c.id
        then { w with sets := widen w.sets (r.arg 1) (r.arg 2) (BitVec.ofNat 16 (r.arg 3)) } else w }) [0] 0 := by
  refine answers_of_ok (execTagWiden.eq_1 ..) h rfl ?_
  refine (serve_need_ok (by simp [h0])).trans ((serve_need_ok (by simp [h1, hfit])).trans ((serve_need_ok (by simp [h2, hm])).trans
    ((serve_need_ok (by simp [h3, hset])).trans ?_)))
  simp only [beq_iff_eq]

/-! ## Baskets, stages, bins -/

/-- A change of a basket slot leaves the blocks. -/
theorem blockOf_modBasket (s : State) (cl slot : Nat) (f : Basket → Basket) (k : Skein) :
    (s.modBasket cl slot f).blockOf k = s.blockOf k := rfl

theorem blockOf_free (s : State) (n : Nat) (k : Skein) : ({ s with free := n } : State).blockOf k = s.blockOf k := rfl

theorem basketCreate_answers (h : Asks r.s sid uid lane 0x28 r) (h3 : r.arg 3 = 0) (h2 : r.arg 2 < 65536)
    (hown : (tenantBit r.c.tenant).subset (BitVec.ofNat 16 (r.arg 2)) = true)
    (hset : OSet.subset (BitVec.ofNat 16 (r.arg 2)) r.c.readMask = true) (h0 : r.arg 0 < 1024) (h7 : bitsOf (r.arg 0) 7 1 = 0)
    (hlo : 4 ≤ bitsOf (r.arg 0) 0 4) (hhi : bitsOf (r.arg 0) 0 4 ≤ 12) (hes : bitsOf (r.arg 0) 4 3 ≤ 4) (hsc : bitsOf (r.arg 0) 8 2 ≤ 2)
    (hblock : bitsOf (r.arg 0) 8 2 = 0 → r.arg 1 % 64 = 0 ∧
      r.arg 1 + 2 ^ bitsOf (r.arg 0) 0 4 * (16 * 2 ^ bitsOf (r.arg 0) 4 3) ≤ r.s.spaceSize r.k .s ∧
      r.s.hitsBasket r.k .s (r.arg 1) (2 ^ bitsOf (r.arg 0) 0 4 * (16 * 2 ^ bitsOf (r.arg 0) 4 3)) = false)
    (hwide : bitsOf (r.arg 0) 8 2 ≠ 0 → r.arg 1 = 0 ∧
      (r.s.cluster r.k.cluster).basketBytes + 2 ^ bitsOf (r.arg 0) 0 4 * (16 * 2 ^ bitsOf (r.arg 0) 4 3) ≤ 2 ^ 21)
    (hfree : ∃ m, m < 64 ∧ (r.s.basket r.k.cluster m).st = .free) :
    ∃ slot, slot < 64 ∧ (r.s.basket r.k.cluster slot).st = .free ∧
      let n := 2 ^ bitsOf (r.arg 0) 0 4
      let e := 16 * 2 ^ bitsOf (r.arg 0) 4 3
      let scope := bitsOf (r.arg 0) 8 2
      let gen := (r.s.basket r.k.cluster slot).gen + 1
      let t := ({ r.s with free := r.s.free + 1 } : State).modBasket r.k.cluster slot fun _ =>
        ⟨.opened, gen, r.c.id, scope, (r.k.grid, r.k.block), n, e, r.arg 1, BitVec.ofNat 16 (r.arg 2), []⟩
      let b := r.s.blockOf r.k
      Answers (.basketCreate sid uid lane) r.s r
        (if scope = 0 then t.setBlock { b with cells := cellsClear b.cells (r.arg 1) (n * e) } else t)
        [r.k.cluster * 2 ^ 24 + gen.toNat * 2 ^ 8 + slot] 0 := by
  obtain ⟨m, hm, hmfree⟩ := hfree
  let places := (List.range 64).filter fun i => (r.s.basket r.k.cluster i).st == .free
  have hne : places ≠ [] := List.ne_nil_of_mem (List.mem_filter.mpr ⟨List.mem_range.mpr hm, by rw [hmfree]; rfl⟩)
  obtain ⟨hslot, hst⟩ := List.mem_filter.mp (getD_mod_mem hne r.s.takeWord.1)
  refine ⟨_, List.mem_range.mp hslot, by simpa using hst, answers_of_ok (execBasketCreate.eq_1 ..) h rfl ?_⟩
  refine (serve_need_ok (by simp [hlo, hhi, hes, hsc, h7, h0])).trans ((serve_need_ok ?_).trans
    ((serve_need_ok (by simp [h2, hown, hset])).trans ((serve_bind_ok (serve_zero_ok h3)).trans ((if_neg ?_).trans ?_))))
  · by_cases hs : bitsOf (r.arg 0) 8 2 = 0
    · obtain ⟨ha, hfit, hhit⟩ := hblock hs
      simp [hs, ha, hfit, hhit]
    · simp [hs, (hwide hs).1]
  · change (places.isEmpty || _) ≠ true
    rw [List.isEmpty_eq_false_iff.mpr hne, Bool.false_or]
    by_cases hs : bitsOf (r.arg 0) 8 2 = 0
    · simp [hs]
    · simpa [hs] using (hwide hs).2
  · simp only [State.takeWord, blockOf_modBasket, blockOf_free]
    rfl

theorem basketDestroy_answers (h : Asks r.s sid uid lane 0x29 r) (hb : r.basketOk (r.arg 0) = true) (h1 : r.arg 1 = 0)
    (h2 : r.arg 2 = 0) (h3 : r.arg 3 = 0) :
    Answers (.basketDestroy sid uid lane) r.s r (r.s.retireBasket (hCluster (r.arg 0)) (hSlot (r.arg 0))) [0] 0 :=
  answers_of_ok (execBasketDestroy.eq_1 ..) h rfl ((serve_found_ok hb).trans (serve_bind_ok (serve_three_zeros h1 h2 h3)))

theorem stageRegister_answers (h : Asks r.s sid uid lane 0x2A r) (hb : r.basketOk (r.arg 0) = true)
    (ho : (r.s.basket (hCluster (r.arg 0)) (hSlot (r.arg 0))).st = .opened) (h1 : 1 ≤ r.arg 1) (h4096 : r.arg 1 ≤ 4096)
    (h2 : r.arg 2 < r.arg 1) (h3 : r.arg 3 = 0)
    (hfree : ∃ m, m < 64 ∧ ((r.s.cluster r.k.cluster).stages.getD m Stage.reset).valid = false) :
    ∃ n, n < 64 ∧ ((r.s.cluster r.k.cluster).stages.getD n Stage.reset).valid = false ∧
      Answers (.stageRegister sid uid lane) r.s r (({ r.s with free := r.s.free + 1 } : State).modCluster r.k.cluster fun c => { c with
        stages := c.stages.set n ⟨true, BitVec.ofNat 32 (r.arg 0), r.arg 1, r.arg 2, r.c.id, 0, false⟩ }) [n] 0 := by
  obtain ⟨m, hm, hmfree⟩ := hfree
  let places := (List.range 64).filter fun i => !((r.s.cluster r.k.cluster).stages.getD i Stage.reset).valid
  have hne : places ≠ [] := List.ne_nil_of_mem (List.mem_filter.mpr ⟨List.mem_range.mpr hm, by rw [hmfree]; rfl⟩)
  obtain ⟨hslot, hst⟩ := List.mem_filter.mp (getD_mod_mem hne r.s.takeWord.1)
  refine ⟨_, List.mem_range.mp hslot, by simpa using hst, answers_of_ok (execStageRegister.eq_1 ..) h rfl ?_⟩
  refine (serve_found_ok (by simp [hb, ho])).trans ((serve_need_ok (by simp [h1, h4096])).trans ((serve_need_ok (by simp [h2])).trans
    ((serve_bind_ok (serve_zero_ok h3)).trans ((if_neg ?_).trans rfl))))
  exact Bool.eq_false_iff.mp (List.isEmpty_eq_false_iff.mpr hne)

theorem stageRemove_answers (h : Asks r.s sid uid lane 0x2B r)
    (hx : ∃ x, (r.s.cluster r.k.cluster).stages[r.arg 0]? = some x ∧ x.valid = true ∧ x.ctx = r.c.id) (h1 : r.arg 1 = 0)
    (h2 : r.arg 2 = 0) (h3 : r.arg 3 = 0) :
    Answers (.stageRemove sid uid lane) r.s r
      (r.s.modCluster r.k.cluster fun c => { c with stages := c.stages.set (r.arg 0) Stage.reset }) [0] 0 := by
  obtain ⟨x, hx, hv, hc⟩ := hx
  refine answers_of_ok (execStageRemove.eq_1 ..) h rfl ((serve_found_ok ?_).trans (serve_bind_ok (serve_three_zeros h1 h2 h3)))
  rw [List.getD_eq_getElem?_getD, hx]
  simp [hv, hc]

theorem spawnConfig_answers (h : Asks r.s sid uid lane 0x30 r) (hk : ∃ o ∈ r.c.objs, ∃ q ∈ o.kernels, o.code + q.entry = r.pair 0)
    (h1 : 1 ≤ r.arg 2) (h2 : r.arg 2 ≤ 2 ^ 24) (h3 : r.arg 3 = 0) :
    Answers (.spawnConfig sid uid lane) r.s r (r.s.modCluster r.k.cluster fun c => { c with
      periods := (r.pair 0, r.c.id, r.arg 2) :: c.periods.filter fun x => !(x.1 == r.pair 0 && x.2.1 == r.c.id) }) [0] 0 :=
  have hperiod : (decide (1 ≤ r.arg 2) && decide (r.arg 2 ≤ 2 ^ 24)) = true := by rw [decide_eq_true h1, decide_eq_true h2, Bool.and_self]
  answers_of_ok (execSpawnConfig.eq_1 ..) h rfl ((serve_need_ok (kernelAt_isSome hk)).trans ((serve_need_ok hperiod).trans
    (serve_bind_ok (serve_zero_ok h3))))

/-! ## Collective groups and interrupt targets -/

theorem collGroup_answers (h : Asks r.s sid uid lane 0x31 r) (h2 : 2 ≤ r.arg 2) (h1024 : r.arg 2 ≤ 1024) (h3 : r.arg 3 < 65536)
    (hown : (tenantBit r.c.tenant).subset (BitVec.ofNat 16 (r.arg 3)) = true)
    (hset : OSet.subset (BitVec.ofNat 16 (r.arg 3)) r.c.readMask = true) (hread : r.read (r.pair 0) (2 * r.arg 2) 0 = .ok (q, bs, x))
    {ms : List Nat} (hms : (List.range (r.arg 2)).map (fun m => ofBytesLE ((bs.drop (2 * m)).take 2)) = ms)
    (hlt : ∀ m ∈ ms, m < (r.s.part r.c.part).modules.length) (hnd : ms.Nodup) {self : Nat}
    (hself : ms[self]? = some (r.s.part r.c.part).selfIndex) :
    ∃ n, n ∉ q.s.groups.map (·.handle) ∧ Answers (.collGroup sid uid lane) r.s r { q.s with
      free := q.s.free + 1, groups := q.s.groups ++ [⟨n, r.c.id, ms, self, BitVec.ofNat 16 (r.arg 3), false⟩] } [n] x := by
  have hidx : ms.findIdx (· == (r.s.part r.c.part).selfIndex) = self := findIdx_of_nodup hnd hself
  have hgood : (ms.all (fun m => decide (m < (r.s.part r.c.part).modules.length)) && ms.eraseDups.length == ms.length &&
      ms.contains (r.s.part r.c.part).selfIndex) = true := by
    rw [eraseDups_of_nodup hnd, List.all_eq_true.mpr fun m hm => decide_eq_true (hlt m hm),
      List.contains_iff_mem.mpr (List.mem_of_getElem? hself), beq_self_eq_true]
    rfl
  refine ⟨_, freshNum_not_mem q.s _ 0xFFFF0000, answers_of_ok (execCollGroup.eq_1 ..) h rfl ?_⟩
  refine (serve_need_ok (by simp [h2, h1024])).trans ((serve_need_ok (by simp [h3, hown, hset])).trans ((serve_bind_ok hread).trans ?_))
  obtain ⟨t, rfl⟩ := serve_read_keeps hread
  subst hms
  refine (if_neg (Bool.eq_false_iff.mp (congrArg not hgood))).trans ?_
  rw [← hidx]
  rfl

/-- The context that a UINT-REGISTER names: the caller's own, or that of a grid of the caller's partition (R360). -/
def Req.target (r : Req) (who : Nat) : Option Nat :=
  if r.arg 2 = 0 then some r.c.id else (r.s.grids.find? fun g => g.id == who && g.part == r.c.part).map (·.ctx)

theorem uintRegister_answers {ctx : Nat} (h : Asks r.s sid uid lane 0x38 r) (h2 : r.arg 2 ≤ 1) (h3 : r.arg 3 = 0)
    (hread : r.read (r.pair 0) 16 0 = .ok (q, bs, x)) (hva : ofBytesLE (bs.take 8) % 8 = 0)
    (ht : q.target (ofBytesLE (bs.drop 8)) = some ctx) :
    ∃ (n w : Nat) (b : Bool), n ∉ q.s.uints.map (·.handle) ∧
      Answers (.uintRegister sid uid lane) r.s r { q.s with free := q.s.free + 3, uints := q.s.uints ++
        [⟨n, r.arg 2, ofBytesLE (bs.take 8), ofBytesLE (bs.drop 8), if r.arg 2 = 0 ∧ b then some (w % 16) else none,
          if r.arg 2 = 0 then r.c.id else ctx⟩] } [n] x := by
  let numbered := q.s.freshNum (q.s.uints.map (·.handle)) 0xFFFF0000
  refine ⟨numbered.1, numbered.2.takeBit.2.takeWord.1, numbered.2.takeBit.1, freshNum_not_mem q.s _ _,
    answers_of_ok (execUintRegister.eq_1 ..) h rfl ?_⟩
  refine (serve_need_ok (by simp [h2])).trans ((serve_bind_ok (serve_zero_ok h3)).trans ((serve_bind_ok hread).trans ?_))
  obtain ⟨t, rfl⟩ := serve_read_keeps hread
  change (match Req.target _ (ofBytesLE (bs.drop 8)) with
    | none => _
    | some ctx => _) = _
  rw [ht]
  refine (if_neg (by simp [hva])).trans ?_
  simp only [State.takeWord, State.takeBit]
  rfl

theorem uintUnregister_answers (h : Asks r.s sid uid lane 0x39 r)
    (ht : ∃ t ∈ r.s.uints, t.handle = r.arg 0 ∧ t.kind ≠ 2 ∧ t.ctx = r.c.id) (h1 : r.arg 1 = 0) (h2 : r.arg 2 = 0) (h3 : r.arg 3 = 0) :
    Answers (.uintUnregister sid uid lane) r.s r { r.s with uints := r.s.uints.filter (·.handle != r.arg 0) } [0] 0 := by
  obtain ⟨t, hm, hh, hk, hc⟩ := ht
  refine answers_of_ok (execUintUnregister.eq_1 ..) h rfl ((serve_found_ok ?_).trans (serve_bind_ok (serve_three_zeros h1 h2 h3)))
  exact List.any_eq_true.mpr ⟨t, hm, by simp [hh, hk, hc]⟩

/-- A number that R357 does not list fails with INVALID-ARGUMENT. -/
theorem unlistedCall_answers {n : Nat} (h : Asks r.s sid uid lane n r) (hn : n ∉ listedCalls) :
    Answers (.unlistedCall sid uid lane) r.s r r.s [0xFFFF9800] 0 := by
  have hnarrow : wideCall n = false := decide_eq_false fun hle =>
    hn (by interval_cases n <;> decide)
  have hvals : failVals r.call.num (invalidArg 0) = [0xFFFF9800] := by
    unfold failVals
    rw [h.2, hnarrow]
    rfl
  refine answers_of_error (execUnlistedCall.eq_1 ..) h (by simpa using hn) ?_
  rw [← hvals]
  rfl

end

/-- Settles O55: each call by its checks and its body. -/
theorem serviceCallsComplete : Obligations.ServiceCallsComplete := by
  intro s sid uid lane r asks cl more set
  refine ⟨fun h => ?_, fun h h3 => ?_, fun h => ?_, fun h h1 h2 hm h3 hs => ?_, fun h h3 h2 ho hs => ?_, fun h => ?_, fun h => ?_,
    fun h => ?_, fun h => ?_, fun q bs x h => ?_, fun q bs x h h3 hread => ?_, fun h => ?_, fun n h => ?_⟩
  all_goals obtain rfl := h.state
  · exact timeCall_answers h
  · exact ⟨memAlloc_answers_g h h3, memAlloc_answers_c h h3⟩
  · exact memUnmap_answers h
  · intro b
    refine ⟨fun h0 hfit => ?_, fun h0 hfit => ?_⟩
    · have := tagWiden_answers h (by omega) h1 h2 hm h3 hs (by rw [if_pos h0]; exact hfit)
      rwa [if_pos h0] at this
    · have hne : r.arg 0 ≠ 0 := by omega
      have := tagWiden_answers h (by omega) h1 h2 hm h3 hs (by rw [if_neg hne]; exact hfit)
      rwa [if_neg hne] at this
  · intro lg es scope n e h0 h7 hlo hhi hes hsc hblock hwide hfree
    exact basketCreate_answers h h3 h2 ho hs h0 h7 hlo hhi hes hsc hblock hwide hfree
  · exact basketDestroy_answers h
  · exact stageRegister_answers h
  · exact stageRemove_answers h
  · exact spawnConfig_answers h
  · intro h2 h1024 h3 ho hs hread ms hlt hnd self hself
    exact collGroup_answers h h2 h1024 h3 ho hs hread rfl hlt hnd hself
  · obtain ⟨t, rfl⟩ := serve_read_keeps hread
    intro va who hva
    refine ⟨fun h2 => ?_, fun g h2 hg => ?_⟩
    · obtain ⟨n, w, b, hn, ha⟩ := uintRegister_answers h (by omega) h3 hread hva (if_pos h2)
      refine ⟨n, if r.arg 2 = 0 ∧ b then some (w % 16) else none, hn, fun m hm => ?_, ?_⟩
      · split at hm
        · cases hm
          exact Nat.mod_lt _ (by decide)
        · cases hm
      · rw [if_pos (c := r.arg 2 = 0) h2] at ha
        rw [h2] at ha ⊢
        exact ha
    · have hne : r.arg 2 ≠ 0 := by omega
      have htarget : Req.target { r with s := t } who = some g.ctx := (if_neg hne).trans (by rw [hg]; rfl)
      obtain ⟨n, w, b, hn, ha⟩ := uintRegister_answers h (by omega) h3 hread hva htarget
      rw [if_neg fun hb : r.arg 2 = 0 ∧ b = true => hne hb.1, if_neg hne, h2] at ha
      exact ⟨n, hn, ha⟩
  · exact uintUnregister_answers h
  · exact unlistedCall_answers h

end Sys2Proof.Machine
end

section
/-! SUPPORT. The words that look across lanes (R151 to R153, R158 to R161). -/

namespace Sys2Proof.Machine

-- One proof after another: side by side, they hold more memory than the check of the whole text allows.
set_option Elab.async false

/-- A write of a cross-lane word reaches the skein's lanes only when a lane is active (R153). -/
theorem crossWr_eq (x : Iss) (d n : Nat) (v : Nat → Nat) (set : OSet) :
    x.crossWr d n v set = if x.p.em = 0 then x.s else x.put (x.wr d n v set) := by
  unfold Iss.crossWr
  simp only [beq_iff_eq]

/-- A mask that holds exactly the active lanes that pass a test. -/
theorem lanesWith_eq {x : Iss} {f : Nat → Bool} {m : Mask} (h : ∀ l, l < 32 → m.getLsbD l = (x.p.em.getLsbD l && f l)) :
    x.lanesWith f = m := maskOf_eq h

section

variable {i : Instr} {s : State} {k : Skein} {p : Split} {x : Iss} {ops : List Opd} {body : Iss → Res State}

/-- A word that checks its operands and then writes across lanes completes with that write. -/
theorem completes_crossWr {d n : Nat} {v : Nat → Nat} (he : exec i s = issue i s body) (hs : Starts i s k p)
    (hb : body (Iss.start s k p) = .ok (x.crossWr d n v x.rset)) (hp : x.p.em = p.em) :
    Completes i s k p (if p.em = 0 then x.s else x.put (x.wr d n v x.rset)) := by
  rw [← hp, ← crossWr_eq]
  exact completes_of_body he hs hb

/-- The operand checks leave a word its hints and its active lanes. -/
theorem operands_start (ho : (Iss.start s k p).operands ops = .ok x) : x.h = p.hints ∧ x.p.em = p.em := by
  obtain ⟨hh, -, -, hp, -⟩ := operands_keeps ho
  exact ⟨hh, by rw [hp, start_em]⟩

variable {w : Width} {d a : BitVec 8} {m : Mask}

theorem ballot_completes (hs : Starts (.ballot d a) s k p)
    (ho : (Iss.start s k p).operands [opdIn a.toNat 1 (routed p.em p.hints.srcA), opdOut d.toNat 8] = .ok x)
    (hm : ∀ l, l < 32 → m.getLsbD l = (p.em.getLsbD l && x.bit0 (p.hints.srcA l) a.toNat)) :
    Completes (.ballot d a) s k p (if p.em = 0 then x.s else x.put (x.wr d.toNat 8 (fun _ => m.toNat) x.rset)) := by
  obtain ⟨hh, hp⟩ := operands_start ho
  refine completes_crossWr (show exec (.ballot d a) s = execBallot d a s from rfl) hs ((res_bind_ok ho).trans ?_) hp
  dsimp only
  rw [hh, lanesWith_eq (by rw [hp]; exact hm)]

/-- ANY and ALL write all ones where their test of the lanes with bit 0 set and of the active lanes holds, and else zeros. -/
theorem reduce_completes {test : Mask → Mask → Bool} (he : ∀ s, exec i s = reduce i w d a s test) (hs : Starts i s k p)
    (ho : (Iss.start s k p).operands [opdIn a.toNat 1 (routed p.em p.hints.srcA), opdOut d.toNat w.slices] = .ok x)
    (hm : ∀ l, l < 32 → m.getLsbD l = (p.em.getLsbD l && x.bit0 (p.hints.srcA l) a.toNat)) :
    Completes i s k p
      (if p.em = 0 then x.s else x.put (x.wr d.toNat w.slices (fun _ => predicate w.bits (test m p.em)) x.rset)) := by
  obtain ⟨hh, hp⟩ := operands_start ho
  refine completes_crossWr (he s) hs ((res_bind_ok ho).trans ?_) hp
  dsimp only
  rw [hh, lanesWith_eq (by rw [hp]; exact hm), hp]

/-- EQMASK gives each lane the active lanes whose values are those that it reads itself. -/
theorem eqmask_completes {f : Nat → Mask} (hs : Starts (.eqmask w d a) s k p)
    (ho : (Iss.start s k p).operands [opdIn a.toNat w.slices (routed p.em p.hints.srcA), opdOut d.toNat 8] = .ok x)
    (hf : ∀ l j, j < 32 → (f l).getLsbD j = (p.em.getLsbD j &&
      decide (x.raw (p.hints.srcA j) a.toNat w.slices = x.raw (p.hints.srcA l) a.toNat w.slices))) :
    Completes (.eqmask w d a) s k p (if p.em = 0 then x.s else x.put (x.wr d.toNat 8 (fun l => (f l).toNat) x.rset)) := by
  obtain ⟨hh, hp⟩ := operands_start ho
  refine completes_crossWr (show exec (.eqmask w d a) s = execEqmask w d a s from rfl) hs ((res_bind_ok ho).trans ?_) hp
  have hlanes (l : Nat) : (x.lanesWith fun j =>
      x.raw (p.hints.srcA j) a.toNat w.slices == x.raw (p.hints.srcA l) a.toNat w.slices) = f l :=
    lanesWith_eq (by rw [hp]; exact hf l)
  dsimp only
  simp only [hh, hlanes]

/-- SHFL checks its index before it reads a from the lanes that the index names. -/
theorem shfl_completes {b : BitVec 7} {y : Iss} (hs : Starts (.shfl w d a b) s k p)
    (ho : (Iss.start s k p).operands
      [opdIn a.toNat w.slices 0, opdIn b.toNat 2 (routed p.em p.hints.srcB), opdOut d.toNat w.slices] = .ok x)
    (hy : x.operands [opdIn a.toNat w.slices
      (routed p.em fun l => p.hints.srcA (x.raw (p.hints.srcB l) b.toNat 2 % 32))] = .ok y) :
    Completes (.shfl w d a b) s k p (if p.em = 0 then y.s else y.put (y.wr d.toNat w.slices
      (fun l => y.raw (p.hints.srcA (x.raw (p.hints.srcB l) b.toNat 2 % 32)) a.toNat w.slices) y.rset)) := by
  obtain ⟨hh, hp⟩ := operands_start ho
  obtain ⟨-, -, -, hyp, -⟩ := operands_keeps hy
  refine completes_crossWr (show exec (.shfl w d a b) s = execShfl w d a b s from rfl) hs ((res_bind_ok ho).trans ?_) (by rw [hyp, hp])
  dsimp only
  rw [hh, hp]
  exact res_bind_ok hy

end

/-- Settles O33: each word by the write that it makes where a lane is active. -/
theorem crossLaneComplete : Obligations.CrossLaneComplete := by
  intro w d a b s k p x
  refine ⟨fun m hs ho hm => ballot_completes hs ho hm, fun m hs ho hm => ?_, fun m hs ho hm => ?_,
    fun f hs ho hf => eqmask_completes hs ho hf, fun y hs ho hy => shfl_completes hs ho hy⟩
  · simpa [predicate] using reduce_completes (test := fun m _ => m != 0) (fun _ => rfl) hs ho hm
  · simpa [predicate] using reduce_completes (test := fun m em => m == em) (fun _ => rfl) hs ho hm

end Sys2Proof.Machine
end

section
/-! SUPPORT. The words on block barriers, their over-arrivals, and what a completed phase leaves (R169 to R172). -/

namespace Sys2Proof.Machine

-- One proof after another: side by side, they hold more memory than the check of the whole text allows.
set_option Elab.async false

/-! ## Arrivals (R169) -/

section

variable {s t : State} {k j : Skein} {p : Split} {x z : Iss} {n : Nat} {drop : Bool} {lanes : Mask}

/-- A block is found by the grid and the number that a skein keeps. -/
theorem blockOf_congr (hb : t.blocks = s.blocks) (hg : j.grid = k.grid) (hn : j.block = k.block) : t.blockOf j = s.blockOf k := by
  unfold State.blockOf State.block?
  rw [hb, hg, hn]

/-- The operand checks leave the block of the skein and its number in it. -/
theorem blockOf_operands {ops : List Opd} (ho : (Iss.start s k p).operands ops = .ok x) :
    x.s.blockOf x.k = s.blockOf k ∧ x.k.num = k.num := by
  obtain ⟨-, -, -, -, hk⟩ := operands_keeps ho
  obtain ⟨_, _, hs⟩ := operands_state ho
  exact ⟨blockOf_congr (by rw [hs]; rfl) (by rw [hk]; rfl) (by rw [hk]; rfl), by rw [hk]; rfl⟩

theorem overArrives_congr (hb : t.blockOf j = s.blockOf k) (hn : j.num = k.num) :
    t.overArrives j n lanes = s.overArrives k n lanes := by
  unfold State.overArrives
  rw [hb, hn]

/-- A release leaves the split of the word. -/
theorem release_split {bk : Bool} (h : x.release bk = .ok z) : z.p = x.p := by
  unfold Iss.release Iss.releaseIf at h
  dsimp only at h
  split at h
  · cases h
    rfl
  · split at h
    · cases h
      rfl
    · cases h

/-- An arrival that is no over-arrival releases before it arrives. -/
theorem arrive_ok (h : x.s.overArrives x.k n x.p.members = 0) (hr : x.release true = .ok z) :
    x.arrive n drop = .ok (z.s.arrive z.k n x.p.members drop) := by
  unfold Iss.arrive
  dsimp only
  rw [h]
  refine (res_bind_ok hr).trans ?_
  rw [release_split hr]

/-- An over-arrival traps before anything is released. -/
theorem arrive_trap {bad : Mask} (h : x.s.overArrives x.k n x.p.members = bad) (hb : bad ≠ 0) :
    x.arrive n drop = .error (.trap (BitVec.ofNat 16 (0x8A00 + n)) bad [] (x.rd ||| x.p.co)) := by
  unfold Iss.arrive
  dsimp only
  rw [h, beq_false_of_ne hb]
  rfl

/-- Where a skein takes no part any more or has arrived, all the members of a split arrive once too often. -/
theorem overArrives_done (h : (((s.blockOf k).bars.getD n default).partOf k.num).participant = false ∨
    (((s.blockOf k).bars.getD n default).partOf k.num).arrived = true) : s.overArrives k n lanes = lanes := by
  unfold State.overArrives
  refine if_pos ?_
  rcases h with h | h
  · rw [h]
    rfl
  · rw [h, Bool.or_true]

/-- In a phase that awaits the skein, the lanes that have arrived do so once too often. -/
theorem overArrives_awaited (hp : (((s.blockOf k).bars.getD n default).partOf k.num).participant = true)
    (ha : (((s.blockOf k).bars.getD n default).partOf k.num).arrived = false) :
    s.overArrives k n lanes = (((s.blockOf k).bars.getD n default).partOf k.num).lanes &&& lanes := by
  unfold State.overArrives
  refine if_neg ?_
  rw [hp, ha]
  exact Bool.false_ne_true

end

/-! ## The four words (R171) -/

/-- A BAR as it arrives: HELD for its barrier. -/
def Iss.heldFor (x : Iss) (n : Nat) : Iss :=
  let k := x.k.modSplit x.p.uid fun q => { q with st := .held (.bar n) }
  { x with k := k, s := x.put k }

/-- A BARARR as it arrives: with the phase as the token of its active lanes. -/
def Iss.tokened (x : Iss) (y : BitVec 8) (la : BitVec 4) (phase : BitVec 16) : Iss :=
  let k := if x.p.em == 0 then x.k else x.wrLate (x.h.look la) y.toNat 4 (fun _ => phase.toNat) x.p.co []
  { x with k := k, s := x.put k }

/-- The tokens of a BARWAIT. -/
def Iss.tokens (x : Iss) (y : BitVec 8) : List Nat := x.active.map fun l => x.raw l y.toNat 4

/-- What a BARWAIT does once its tokens are read. -/
def Iss.barwait (x : Iss) (n : Nat) (toks : List Nat) : Res State :=
  if toks.contains ((x.s.blockOf x.k).bars.getD n default).phase.toNat then
    .ok (x.put (x.k.modSplit x.p.uid fun q => { q with st := .held (.barwait n toks) }))
  else if toks.isEmpty then .ok x.s
  else .ok (x.s.acquire x.k.id 1)

section

variable {s : State} {k : Skein} {p : Split} {x : Iss} {b : BitVec 4} {y : BitVec 8} {la : BitVec 4} {n : Nat} {toks : List Nat}

theorem exec_bar : exec (.bar b) s = issue (.bar b) s fun x => (x.heldFor b.toNat).arrive b.toNat false := rfl

theorem exec_bararr : exec (.bararr b y la) s = issue (.bararr b y la) s fun x =>
    x.operands [opdOut y.toNat 4] >>= fun x =>
      (x.tokened y la ((x.s.blockOf x.k).bars.getD b.toNat default).phase).arrive b.toNat false := rfl

theorem exec_bardrop : exec (.bardrop b) s = issue (.bardrop b) s fun x => x.arrive b.toNat true := rfl

theorem exec_barwait : exec (.barwait b y) s = issue (.barwait b y) s fun x =>
    x.operands [opdIn y.toNat 4 x.p.em] >>= fun x => x.barwait b.toNat (x.tokens y) := rfl

theorem overArrives_tokened (phase : BitVec 16) (lanes : Mask) :
    (x.tokened y la phase).s.overArrives (x.tokened y la phase).k n lanes = x.s.overArrives x.k n lanes := by
  unfold Iss.tokened
  dsimp only
  split
  · rfl
  · rfl

theorem barwait_held (h : ((x.s.blockOf x.k).bars.getD n default).phase.toNat ∈ toks) :
    x.barwait n toks = .ok (x.put (x.k.modSplit x.p.uid fun q => { q with st := .held (.barwait n toks) })) :=
  if_pos (List.contains_iff_mem.mpr h)

theorem barwait_past (h : ((x.s.blockOf x.k).bars.getD n default).phase.toNat ∉ toks) (ht : toks ≠ []) :
    x.barwait n toks = .ok (x.s.acquire x.k.id 1) :=
  (if_neg (mt List.contains_iff_mem.mp h)).trans (if_neg (mt List.isEmpty_iff.mp ht))

theorem barwait_idle : x.barwait n [] = .ok x.s := rfl

end

/-! ## The splits that a completed phase wakes (R169, R171) -/

section

variable {s : State} {k : Skein} {n sid u : Nat} {phase : BitVec 16} {ids : List Nat}

/-- A wait that the completion of a barrier's phase ends: one for the phase, or one for tokens that the new phase is none of. -/
theorem barOver_iff {st : SplitSt} : barOver n true phase st = true ↔
    st = .held (.bar n) ∨ ∃ toks, st = .held (.barwait n toks) ∧ phase.toNat ∉ toks := by
  cases st with
  | held on =>
    cases on with
    | bar m => simp [barOver]
    | barwait m toks => simp [barOver]
    | sbwait | bitwait | waitb | qpop => simp [barOver]
  | ready | stalled | joinWait | parked => simp [barOver]

/-- A split whose wait is over is READY. -/
def Split.roused (p : Split) (n : Nat) (phase : BitVec 16) : Split := if barOver n true phase p.st then { p with st := .ready } else p

/-- A skein with each split READY whose wait is over. -/
def Skein.roused (k : Skein) (n : Nat) (phase : BitVec 16) : Skein := { k with splits := k.splits.map (·.roused n phase) }

/-- A split that is READY waits for nothing more. -/
theorem roused_roused : (k.roused n phase).roused n phase = k.roused n phase := by
  have h (p : Split) : (p.roused n phase).roused n phase = p.roused n phase := by
    unfold Split.roused
    by_cases hp : barOver n true phase p.st = true
    · rw [if_pos hp]
      rfl
    · rw [if_neg hp, if_neg hp]
  unfold Skein.roused
  simp only [List.map_map, Function.comp_def, h]

/-- A skein none of whose waits is over stays as it is. -/
theorem roused_of_none (h : (k.splits.any fun p => barOver n true phase p.st) = false) : k.roused n phase = k := by
  have hp (p : Split) (hm : p ∈ k.splits) : p.roused n phase = id p := if_neg (by simpa using List.any_eq_false.mp h p hm)
  unfold Skein.roused
  rw [List.map_congr_left hp, List.map_id]

/-- What an acquire by a skein leaves of a block: older values of its block's registers are no longer read. -/
def Block.seenBy (b : Block) (k : Skein) : Block :=
  if b.grid == k.grid && b.num == k.block then { b with ks := b.ks.map (KReg.acquire k.num) } else b

/-- A skein whose waits are over goes on with an acquire. -/
def State.rouse (s : State) (k : Skein) (n : Nat) (phase : BitVec 16) : State :=
  ({ s.setSkein (k.roused n phase) with blocks := s.blocks.map (·.seenBy k) } : State).modCore k.coreId Core.acquire

theorem wakeBar_of_none (h : s.skein? sid = none) : s.wakeBar n true phase sid = s := by
  unfold State.wakeBar
  rw [h]

theorem skein_setSkein_roused (hk : s.skein? k.id = some k) : (s.setSkein (k.roused n phase)).skein? k.id = some (k.roused n phase) :=
  skein_setSkein_same (k := k.roused n phase) (hk ▸ rfl : (s.skein? k.id).isSome)

theorem wakeBar_of_waiting (hk : s.skein? k.id = some k) (h : (k.splits.any fun p => barOver n true phase p.st) = true) :
    s.wakeBar n true phase k.id = s.rouse k n phase := by
  unfold State.wakeBar
  rw [hk]
  refine (if_pos h).trans ?_
  show (s.setSkein (k.roused n phase)).acquire k.id 1 = _
  unfold State.acquire
  simp only [skein_setSkein_roused hk]
  rfl

theorem wakeBar_of_idle (hk : s.skein? k.id = some k) (h : (k.splits.any fun p => barOver n true phase p.st) = false) :
    s.wakeBar n true phase k.id = s := by
  unfold State.wakeBar
  rw [hk]
  exact if_neg (Bool.eq_false_iff.mp h)

/-- A slot with no skein, or with one whose waits go on, changes nothing; another goes on with an acquire. -/
theorem wakeBar_cases (s : State) (n : Nat) (phase : BitVec 16) (sid : Nat) : s.wakeBar n true phase sid = s ∨
    ∃ k : Skein, k.id = sid ∧ s.skein? sid = some k ∧ s.wakeBar n true phase sid = s.rouse k n phase := by
  cases hk : s.skein? sid with
  | none => exact .inl (wakeBar_of_none hk)
  | some k =>
    obtain rfl := skein_id hk
    cases h : k.splits.any fun p => barOver n true phase p.st with
    | false => exact .inl (wakeBar_of_idle hk h)
    | true => exact .inr ⟨k, rfl, rfl, wakeBar_of_waiting hk h⟩

theorem skein_wakeBar_same (hk : s.skein? k.id = some k) : (s.wakeBar n true phase k.id).skein? k.id = some (k.roused n phase) := by
  cases h : k.splits.any fun p => barOver n true phase p.st with
  | false => rw [wakeBar_of_idle hk h, roused_of_none h, hk]
  | true =>
    rw [wakeBar_of_waiting hk h]
    exact skein_setSkein_roused hk

theorem skein_wakeBar_other (h : u ≠ sid) : (s.wakeBar n true phase sid).skein? u = s.skein? u := by
  rcases wakeBar_cases s n phase sid with e | ⟨k, rfl, -, e⟩
  · rw [e]
  · rw [e]
    exact skein_setSkein_other s (k.roused n phase) u h

/-- The skeins of some slots, each with the splits whose waits are over READY. -/
def State.wakeBars (s : State) (n : Nat) (phase : BitVec 16) (ids : List Nat) : State := ids.foldl (fun t sid => t.wakeBar n true phase sid) s

theorem skein_wakeBars (hk : s.skein? k.id = some k) :
    (s.wakeBars n phase ids).skein? k.id = some (if k.id ∈ ids then k.roused n phase else k) := by
  induction ids generalizing s k with
  | nil => exact hk
  | cons sid ids ih =>
    by_cases h : k.id = sid
    · subst h
      have := ih (k := k.roused n phase) (skein_wakeBar_same hk)
      rw [roused_roused, ite_self] at this
      rw [if_pos List.mem_cons_self]
      exact this
    · have := ih (s := s.wakeBar n true phase sid) ((skein_wakeBar_other h).trans hk)
      simp only [List.mem_cons, h, false_or]
      exact this

end

/-! ## The block and the cores after a completed phase (R142, R169, R179) -/

section

variable {s : State} {k : Skein} {n c : Nat} {phase : BitVec 16} {ids : List Nat} {g m : Nat} {b : Block}

/-- What is the same for all skeins of a block in its barriers and its registers. -/
def Block.common (b : Block) : List Bar × List (List (BitVec 32) × OSet × Option Nat) :=
  (b.bars, b.ks.map fun r => (r.vals, r.set, r.writer))

theorem common_seenBy : (b.seenBy k).common = b.common := by
  unfold Block.seenBy
  split
  · simp only [Block.common, List.map_map, Function.comp_def, KReg.acquire]
  · rfl

theorem block_rouse (s : State) (k : Skein) (n : Nat) (phase : BitVec 16) (g m : Nat) :
    (s.rouse k n phase).block? g m = (s.block? g m).map (·.seenBy k) := by
  have hkey (b : Block) : (b.seenBy k).grid = b.grid ∧ (b.seenBy k).num = b.num := by
    unfold Block.seenBy
    split
    · exact ⟨rfl, rfl⟩
    · exact ⟨rfl, rfl⟩
  show (s.blocks.map (·.seenBy k)).find? _ = _
  rw [List.find?_map]
  congr 1
  refine List.find?_congr fun x _ => ?_
  simp only [Function.comp_apply, hkey]

theorem common_wakeBars (h : s.block? g m = some b) :
    ∃ b', (s.wakeBars n phase ids).block? g m = some b' ∧ b'.common = b.common := by
  induction ids generalizing s b with
  | nil => exact ⟨b, h, rfl⟩
  | cons sid ids ih =>
    rcases wakeBar_cases s n phase sid with e | ⟨k, -, -, e⟩
    · exact ih (s := s.wakeBar n true phase sid) (by rw [e]; exact h)
    · have hb : (s.wakeBar n true phase sid).block? g m = some (b.seenBy k) := by rw [e, block_rouse, h]; rfl
      obtain ⟨b', hb', hc⟩ := ih hb
      exact ⟨b', hb', hc.trans common_seenBy⟩

/-- A core whose L1 holds lines of PCIe memory alone, as an acquire leaves it. -/
def State.acquiredAt (s : State) (c : Nat) : Prop := ∀ z ∈ (s.core c).l1, paType (z.line * 64) = 2

theorem core_acquire_same (s : State) (c : Nat) : (s.modCore c Core.acquire).core c = (s.core c).acquire := by
  unfold State.core State.modCore modAt
  rw [List.getD_eq_getElem?_getD, List.getD_eq_getElem?_getD, List.getElem?_modify]
  cases s.cores[c]? with
  | none => rfl
  | some x => simp

theorem type_of_acquired {x : Core} {z : CLine} (h : z ∈ x.acquire.l1) : z ∈ x.l1 ∧ paType (z.line * 64) = 2 := by
  obtain ⟨hm, ht⟩ := List.mem_filter.mp h
  exact ⟨hm, beq_iff_eq.mp ht⟩

theorem acquiredAt_rouse_same (s : State) (k : Skein) (n : Nat) (phase : BitVec 16) : (s.rouse k n phase).acquiredAt k.coreId := by
  intro z hz
  unfold State.rouse at hz
  rw [core_acquire_same] at hz
  exact (type_of_acquired hz).2

theorem acquiredAt_wakeBar (h : s.acquiredAt c) (sid : Nat) : (s.wakeBar n true phase sid).acquiredAt c := by
  rcases wakeBar_cases s n phase sid with e | ⟨k, -, -, e⟩
  · rw [e]
    exact h
  · rw [e]
    intro z hz
    unfold State.rouse at hz
    rcases core_modCore_cases { s.setSkein (k.roused n phase) with blocks := s.blocks.map (·.seenBy k) } k.coreId c Core.acquire with e | e
    · rw [e] at hz
      exact (type_of_acquired hz).2
    · rw [e] at hz
      exact h z hz

theorem acquiredAt_wakeBars (h : s.acquiredAt c) : (s.wakeBars n phase ids).acquiredAt c := by
  induction ids generalizing s with
  | nil => exact h
  | cons sid ids ih => exact ih (acquiredAt_wakeBar h sid)

/-- The core of a skein that goes on has made its acquire. -/
theorem acquiredAt_of_waiting (hk : s.skein? k.id = some k) (hm : k.id ∈ ids)
    (h : (k.splits.any fun p => barOver n true phase p.st) = true) : (s.wakeBars n phase ids).acquiredAt k.coreId := by
  induction ids generalizing s with
  | nil => cases hm
  | cons sid ids ih =>
    by_cases hs : k.id = sid
    · subst hs
      refine acquiredAt_wakeBars (s := s.wakeBar n true phase k.id) ?_
      rw [wakeBar_of_waiting hk h]
      exact acquiredAt_rouse_same s k n phase
    · exact ih ((skein_wakeBar_other hs).trans hk) ((List.mem_cons.mp hm).resolve_left hs)

end

/-! ## The barrier that an arrival leaves (R169) -/

/-- A barrier once lanes of a skein have arrived. -/
def Bar.arriving (x : Bar) (num : Nat) (lanes : Mask) (drop : Bool) : Bar :=
  { x with parts := x.parts.set num { x.partOf num with lanes := (x.partOf num).lanes ||| lanes, drop := (x.partOf num).drop || drop } }

section

variable {s : State} {k : Skein} {b : Block} {n : Nat} {lanes : Mask} {drop : Bool}

theorem arrive_eq (hb : s.block? k.grid k.block = some b) : s.arrive k n lanes drop =
    s.putBar b n (if ((b.bars.getD n default).partOf k.num).lanes ||| lanes == k.living
      then ((b.bars.getD n default).arriving k.num lanes drop).skeinArrives k.num
      else ((b.bars.getD n default).arriving k.num lanes drop, false)) := by
  unfold State.arrive
  rw [(blockOf_cases s k).2.2 b hb]
  rfl

/-- The skein arrives with the last of its living lanes. -/
theorem arrive_whole (hb : s.block? k.grid k.block = some b)
    (h : ((b.bars.getD n default).partOf k.num).lanes ||| lanes = k.living) :
    s.arrive k n lanes drop = s.putBar b n (((b.bars.getD n default).arriving k.num lanes drop).skeinArrives k.num) :=
  (arrive_eq hb).trans (congrArg _ (if_pos (beq_iff_eq.mpr h)))

theorem arrive_partly (hb : s.block? k.grid k.block = some b)
    (h : ((b.bars.getD n default).partOf k.num).lanes ||| lanes ≠ k.living) :
    s.arrive k n lanes drop = s.putBar b n ((b.bars.getD n default).arriving k.num lanes drop, false) :=
  (arrive_eq hb).trans (congrArg _ (if_neg (mt beq_iff_eq.mp h)))

theorem putBar_open {x : Bar × Bool} (h : x.2 = false) : s.putBar b n x = s.setBlock { b with bars := b.bars.set n x.1 } := by
  unfold State.putBar
  rw [h]
  exact if_neg Bool.false_ne_true

theorem putBar_complete {x : Bar × Bool} (h : x.2 = true) : s.putBar b n x =
    (s.setBlock { b with bars := b.bars.set n x.1, ks := b.ks.map KReg.epoch }).wakeBars n x.1.phase
      (b.slots.map (b.core * 128 + ·)) := by
  unfold State.putBar State.wakeBars
  rw [h, List.foldl_map]
  rfl

end

theorem skeinArrives_last {x : Bar} {n : Nat} (h : x.a + 1 = x.e) : x.skeinArrives n = (Bar.complete { x with
    a := x.a + 1
    e' := if (x.partOf n).drop then x.e' - 1 else x.e'
    parts := x.parts.set n ⟨(x.partOf n).participant && !(x.partOf n).drop, true, false, 0⟩ }, true) := if_pos h

theorem skeinArrives_awaiting {x : Bar} {n : Nat} (h : x.a + 1 ≠ x.e) : x.skeinArrives n = ({ x with
    a := x.a + 1
    e' := if (x.partOf n).drop then x.e' - 1 else x.e'
    parts := x.parts.set n ⟨(x.partOf n).participant && !(x.partOf n).drop, true, false, 0⟩ }, false) := if_neg h

/-! ## What an arrival leaves of its block (R142, R169) -/

section

variable {s : State} {k j : Skein} {b : Block} {n : Nat} {x : Bar}

/-- The phase of a block's barrier completes: the barrier has its new value, and a k epoch starts. -/
theorem block_putBar_complete (hb : s.block? k.grid k.block = some b) :
    ∃ c, (s.putBar b n (x, true)).block? k.grid k.block = some c ∧ c.bars = b.bars.set n x ∧
      c.ks.map (fun r => (r.vals, r.set, r.writer)) = b.ks.map fun r => ([r.vals.getLastD 0], r.set, none) := by
  have hset : (s.setBlock { b with bars := b.bars.set n x, ks := b.ks.map KReg.epoch }).block? k.grid k.block =
      some { b with bars := b.bars.set n x, ks := b.ks.map KReg.epoch } := by
    rw [block_setBlock, hb]
    simp
  obtain ⟨c, hc, hcommon⟩ := common_wakeBars (n := n) (phase := x.phase) (ids := b.slots.map (b.core * 128 + ·)) hset
  obtain ⟨hbars, hks⟩ := Prod.mk.inj hcommon
  refine ⟨c, by rw [putBar_complete rfl]; exact hc, hbars, hks.trans ?_⟩
  rw [List.map_map]
  rfl

/-- A skein of the block once the phase completes: every split is READY whose wait is over. -/
theorem skein_putBar_complete {slot : Nat} (hm : slot ∈ b.slots) (hj : s.skein? (b.core * 128 + slot) = some j) :
    (s.putBar b n (x, true)).skein? j.id = some (j.roused n x.phase) ∧
      ((j.splits.any fun p => barOver n true x.phase p.st) = true → (s.putBar b n (x, true)).acquiredAt j.coreId) := by
  have hid := skein_id hj
  have hmem : j.id ∈ b.slots.map (b.core * 128 + ·) := List.mem_map.mpr ⟨slot, hm, hid.symm⟩
  have hs : (s.setBlock { b with bars := b.bars.set n x, ks := b.ks.map KReg.epoch }).skein? j.id = some j := by
    rw [hid]
    exact hj
  rw [putBar_complete rfl]
  refine ⟨?_, fun h => acquiredAt_of_waiting hs hmem h⟩
  rw [skein_wakeBars hs, if_pos hmem]

/-- Each split of a skein is READY where its wait is over, and else as before. -/
theorem roused_splits {phase : BitVec 16} {m : Nat} {p : Split} (h : j.splits[m]? = some p) :
    ∃ p', (j.roused n phase).splits[m]? = some p' ∧ (barOver n true phase p.st = true → p' = { p with st := .ready }) ∧
      (¬barOver n true phase p.st = true → p' = p) := by
  refine ⟨p.roused n phase, ?_, fun he => if_pos he, fun he => if_neg he⟩
  show (j.splits.map _)[m]? = _
  rw [List.getElem?_map, h]
  rfl

end

/-! ## The words (R171) -/

section

variable {s : State} {k : Skein} {p : Split} {x z : Iss} {b : BitVec 4} {y : BitVec 8} {la : BitVec 4}

theorem bar_completes (hs : Starts (.bar b) s k p) (h : s.overArrives k b.toNat p.members = 0)
    (hr : ((Iss.start s k p).heldFor b.toNat).release true = .ok z) :
    Completes (.bar b) s k p (z.s.arrive z.k b.toNat p.members false) :=
  completes_of_body exec_bar hs (arrive_ok (x := (Iss.start s k p).heldFor b.toNat) h hr)

theorem bararr_completes (hs : Starts (.bararr b y la) s k p) (ho : (Iss.start s k p).operands [opdOut y.toNat 4] = .ok x)
    (h : x.s.overArrives x.k b.toNat p.members = 0)
    (hr : (x.tokened y la ((s.blockOf k).bars.getD b.toNat default).phase).release true = .ok z) :
    Completes (.bararr b y la) s k p (z.s.arrive z.k b.toNat p.members false) := by
  obtain ⟨-, -, -, hp, -⟩ := operands_keeps ho
  have hmembers : x.p.members = p.members := by rw [hp, start_members]
  refine completes_of_body exec_bararr hs ((res_bind_ok ho).trans ?_)
  rw [(blockOf_operands ho).1, ← hmembers]
  refine arrive_ok (x := x.tokened y la _) ?_ hr
  rw [overArrives_tokened]
  exact (congrArg _ hmembers).trans h

theorem bardrop_completes (hs : Starts (.bardrop b) s k p) (h : s.overArrives k b.toNat p.members = 0)
    (hr : (Iss.start s k p).release true = .ok z) :
    Completes (.bardrop b) s k p (z.s.arrive z.k b.toNat p.members true) :=
  completes_of_body exec_bardrop hs (arrive_ok (x := Iss.start s k p) h hr)

/-- The words that arrive trap at an over-arrival, BARARR once its destination is checked. -/
theorem overArrival_traps {i : Instr} {bad : Mask} (hs : Starts i s k p)
    (hi : (i = .bar b ∧ x = Iss.start s k p) ∨ (i = .bardrop b ∧ x = Iss.start s k p) ∨
      ∃ (y : BitVec 8) (la : BitVec 4), i = .bararr b y la ∧ (Iss.start s k p).operands [opdOut y.toNat 4] = .ok x)
    (h : s.overArrives k b.toNat p.members = bad) (hb : bad ≠ 0) :
    Traps i s k p (BitVec.ofNat 16 (0x8A00 + b.toNat)) bad [] (x.rd ||| p.co) := by
  rcases hi with ⟨rfl, rfl⟩ | ⟨rfl, rfl⟩ | ⟨y, la, rfl, ho⟩
  · exact traps_of_body exec_bar hs (arrive_trap (x := (Iss.start s k p).heldFor b.toNat) h hb)
  · exact traps_of_body exec_bardrop hs (arrive_trap (x := Iss.start s k p) h hb)
  · obtain ⟨-, -, -, hp, -⟩ := operands_keeps ho
    obtain ⟨hblock, hnum⟩ := blockOf_operands ho
    have hco : x.p.co = p.co := by rw [hp, start_co]
    refine traps_of_body exec_bararr hs ((res_bind_ok ho).trans ?_)
    rw [← hco]
    refine arrive_trap (x := x.tokened y la _) ?_ hb
    rw [overArrives_tokened, overArrives_congr hblock hnum, ← h]
    show s.overArrives k b.toNat x.p.members = _
    rw [hp, start_members]

end

/-- Settles O37: each word by its arrival or its wait, an over-arrival by the part that the skein has in the barrier, and a completed phase
by what waking the skeins of the slots, one after another, leaves of each. -/
theorem blockBarriersComplete : Obligations.BlockBarriersComplete := by
  refine ⟨fun b y la s k p x z => ⟨fun hs h hr => bar_completes hs h hr, fun hs ho h hr => bararr_completes hs ho h ?_,
    fun hs h hr => bardrop_completes hs h hr, fun hs ho => ?_⟩, fun i b s k p x hs hi => ⟨fun hq hm => ?_, fun hp ha hm => ?_⟩,
    fun s k n lanes drop b hb hn => ?_, fun x n => ⟨fun h => skeinArrives_last h, fun h => skeinArrives_awaiting h⟩⟩
  · obtain ⟨hh, -, -, hp, -⟩ := operands_keeps ho
    rw [← hr]
    unfold Iss.tokened
    simp only [hh, hp, start_h, start_em, start_co, beq_iff_eq]
  · have completes {t : State} (h : x.barwait b.toNat (x.tokens y) = .ok t) : Completes (.barwait b y) s k p t :=
      completes_of_body exec_barwait hs ((res_bind_ok ho).trans h)
    obtain ⟨-, -, -, hp, hk⟩ := operands_keeps ho
    have hid : x.k.id = k.id := by rw [hk, start_id]
    have huid : x.p.uid = p.uid := by rw [hp, start_uid]
    rw [← (blockOf_operands ho).1, ← hid, ← huid]
    exact ⟨fun h => completes (barwait_held h), fun h ht => completes (barwait_past h ht),
      fun ht => completes ((congrArg _ ht).trans barwait_idle)⟩
  · exact overArrival_traps hs hi (overArrives_done hq) hm
  · exact overArrival_traps hs hi (overArrives_awaited hp ha) hm
  · refine ⟨fun h => (arrive_partly hb h).trans (putBar_open rfl), fun h hy => (arrive_whole hb h).trans (putBar_open hy),
      fun h hy => ?_⟩
    have ht := arrive_whole (drop := drop) hb h
    rw [show ((b.bars.getD n default).arriving k.num lanes drop).skeinArrives k.num = (_, true) from Prod.ext rfl hy] at ht
    rw [ht]
    simp only [← barOver_iff]
    refine ⟨block_putBar_complete hb, fun slot hm j hj => ?_⟩
    obtain ⟨hskein, hcore⟩ := skein_putBar_complete hm hj
    exact ⟨_, hskein, rfl, List.length_map _, fun m p hp => roused_splits hp, fun hw => hcore (List.any_eq_true.mpr hw)⟩

end Sys2Proof.Machine
end

section
/-! SUPPORT. BITWAIT and its poll (R177, R193, R394). -/

namespace Sys2Proof.Machine

-- One proof after another: side by side, they hold more memory than the check of the whole text allows.
set_option Elab.async false

/-! ## One read of the words (R177) -/

section

variable {s : State} {k : Skein} {uid : Nat} {r : Redo} {bits : List (Nat × Nat × Nat)} {pages : List (Loc × OSet)}

theorem bitsSet_iff {die : Nat} : s.bitsSet die bits pages = true ↔ ∀ q ∈ pages.zip bits, s.bitSet die q.1.1 q.2.2.2 = true := by
  unfold State.bitsSet
  exact List.all_eq_true

/-- The skein after the accesses of a read. -/
def Skein.polled (k : Skein) (bits : List (Nat × Nat × Nat)) : Skein := k.touch (bits.map fun v => (v.1, v.2.1, 4))

/-- A wait that has read some pages. -/
def Redo.reading (r : Redo) (pages : List (Loc × OSet)) : Redo := r.join (pages.foldl (fun u q => u ||| q.2) 0)

theorem bitRead_ends (h : ∀ q ∈ pages.zip bits, s.bitSet k.die q.1.1 q.2.2.2 = true) :
    s.bitRead k uid r bits pages = s.bitEnds (k.polled bits) uid (r.reading pages).read := if_pos (bitsSet_iff.mpr h)

theorem bitRead_held (h : ¬∀ q ∈ pages.zip bits, s.bitSet k.die q.1.1 q.2.2.2 = true) :
    s.bitRead k uid r bits pages =
      s.setSkein ((k.polled bits).modSplit uid fun q => { q with st := .held (.bitwait (r.reading pages) bits) }) :=
  if_neg (mt bitsSet_iff.mp h)

/-- The sets of a wait after a read: what it had read, and the pages'. -/
theorem read_reading_bit {z : Kept} (hz : r.kept = some z) (t : Nat) : (r.reading pages).read.getLsbD t = true ↔
    z.rd.getLsbD t = true ∨ (∃ u ∈ z.regs, u.getLsbD t = true) ∨ ∃ q ∈ pages, q.2.getLsbD t = true := by
  unfold Redo.reading Redo.join Redo.read
  rw [hz]
  simp only [Option.map_some, Option.elim_some, List.foldl_cons, List.foldl_nil]
  rw [BitVec.getLsbD_or, getLsbD_foldl_or (fun e : OSet => e), getLsbD_foldl_or]
  simp [or_comm]

end

/-! ## BITWAIT (R177) -/

/-- The words of a BITWAIT: each active lane with the address of the one that holds its bit. -/
def Iss.bitWords (x : Iss) (a b : BitVec 8) : List (Nat × Nat × Nat) :=
  x.active.map fun l => (l, (x.raw l a.toNat 16 + 4 * (x.raw l b.toNat 8 / 32)) % 2 ^ 64, 4)

/-- Each lane's address and bit, as a wait keeps them. -/
def Iss.bitsOf (x : Iss) (b : BitVec 8) (as : List LaneAcc) : List (Nat × Nat × Nat) :=
  as.map fun q => (q.lane, q.addr, x.raw q.lane b.toNat 8 % 32)

/-- The location and the set that a lane reads. -/
def LaneAcc.page (q : LaneAcc) : Loc × OSet := (q.first, q.set)

/-- What a BITWAIT does once its operands are read. -/
def Iss.bitwait (x : Iss) (a b : BitVec 8) : Res State :=
  if x.p.em == 0 then .ok x.s
  else do
    x.aligned 4 fun l => x.raw l a.toNat 16
    let as ← x.mapG 1 needLoad (x.bitWords a b)
    x.sound as
    let w ← x.pcieReady as
    let y ← w.flush (as.flatMap LaneAcc.locs)
    .ok (x.shed (y.s.bitRead y.k x.p.uid (x.heldRedo (.bitwait a b)) (x.bitsOf b as) (as.map LaneAcc.page)))

section

variable {s : State} {k : Skein} {x w y : Iss} {a b : BitVec 8} {as : List LaneAcc}

theorem exec_bitwait : exec (.bitwait a b) s = issue (.bitwait a b) s fun x =>
    x.operands [opdPair a.toNat x.p.em, opdIn b.toNat 8 x.p.em] >>= fun x => x.bitwait a b := rfl

theorem bitwait_idle (h : x.p.em = 0) : x.bitwait a b = .ok x.s := if_pos (beq_iff_eq.mpr h)

theorem bitwait_reads (h : x.p.em ≠ 0) (ha : (x.aligned 4 fun l => x.raw l a.toNat 16) = .ok ())
    (hm : x.mapG 1 needLoad (x.bitWords a b) = .ok as) (hs : x.sound as = .ok ()) (hw : x.pcieReady as = .ok w)
    (hy : w.flush (as.flatMap LaneAcc.locs) = .ok y) : x.bitwait a b =
      .ok (x.shed (y.s.bitRead y.k x.p.uid (x.heldRedo (.bitwait a b)) (x.bitsOf b as) (as.map LaneAcc.page))) :=
  (if_neg (mt beq_iff_eq.mp h)).trans <| (res_bind_ok ha).trans <| (res_bind_ok hm).trans <| (res_bind_ok hs).trans <|
    (res_bind_ok hw).trans (res_bind_ok hy)

/-- The bits of a BITWAIT's words, lane by lane. -/
theorem lanes_set_iff {die : Nat} : (∀ q ∈ (as.map LaneAcc.page).zip (x.bitsOf b as), s.bitSet die q.1.1 q.2.2.2 = true) ↔
    ∀ q ∈ as, s.bitSet die q.first (x.raw q.lane b.toNat 8 % 32) = true := by
  unfold Iss.bitsOf
  rw [List.zip_map', List.forall_mem_map]
  rfl

end

/-! ## The poll (R177, R394) -/

section

variable {s : State} {k : Skein} {p : Split} {uid : Nat} {r : Redo} {bits : List (Nat × Nat × Nat)}

theorem exec_bitwaitPoll (hk : s.skein? k.id = some k) (hp : k.split? uid = some p) (hst : p.st = .held (.bitwait r bits))
    (hrun : k.stop = none) : exec (.bitwaitPoll k.id uid) s = .next (s.bitPoll k uid r bits) := by
  show execBitwaitPoll k.id uid s = _
  unfold execBitwaitPoll
  simp only [hk, hp, hst, hrun, Option.map_some, Option.isNone_none, if_true]

theorem mapM_id_map_some {α : Type} (l : List α) : (l.map some).mapM id = some l :=
  List.mapM_map.trans (List.mapM_pure.trans (congrArg some (List.map_id l)))

theorem mapM_id_of_none {α : Type} {l : List (Option α)} (h : none ∈ l) : l.mapM id = none := by
  induction l with
  | nil => cases h
  | cons x l ih =>
    cases x with
    | none => rfl
    | some x => simp [ih ((List.mem_cons.mp h).resolve_left nofun)]

theorem bitPoll_reads {pages : List (Loc × OSet)} (h : s.bitPages k bits = pages.map some) :
    s.bitPoll k uid r bits = s.bitRead k uid r bits pages := by
  unfold State.bitPoll
  rw [h, mapM_id_map_some]

theorem bitPoll_reissues (h : none ∈ s.bitPages k bits) :
    s.bitPoll k uid r bits = s.setSkein (k.modSplit uid fun q =>
      { q with st := .ready, again := some r, pc := r.word, hints := r.hints }) := by
  unfold State.bitPoll
  rw [mapM_id_of_none h]
  rfl

/-- A word that a poll may read: its page is mapped, read by the context, sound, and held by the die where it is of PCIe memory. -/
theorem bitPage_iff {die va : Nat} {c : Context} {l : Loc} {set : OSet} : s.bitPage die c va = some (l, set) ↔
    ∃ f, s.translate c va = .leaf f ∧ f.rd = true ∧ f.set &&& ~~~c.readMask = 0 ∧ l = locG f.pa ∧ set = f.set ∧
      ∀ m ∈ (locG f.pa).span 4, s.failedAt m = false ∧ (f.type = 2 → s.pbyte? die m.addr ≠ none) := by
  unfold State.bitPage
  cases s.translate c va with
  | unmapped => simp
  | malformed => simp
  | leaf f =>
    simp only [Walk.leaf.injEq, exists_eq_left']
    have hsound : (f.readable c && !((locG f.pa).span 4).any s.failedAt &&
        !(f.type == 2 && ((locG f.pa).span 4).any fun x => (s.pbyte? die x.addr).isNone)) = true ↔
        f.rd = true ∧ f.set &&& ~~~c.readMask = 0 ∧
          ∀ m ∈ (locG f.pa).span 4, s.failedAt m = false ∧ (f.type = 2 → s.pbyte? die m.addr ≠ none) := by
      rw [Leaf.readable, Context.mayRead, Bool.and_eq_true, Bool.and_eq_true, Bool.and_eq_true, subset_iff, and_assoc, and_assoc]
      by_cases ht : f.type = 2
      · simp [ht, forall_and]
      · simp [ht]
    split
    · next h =>
      obtain ⟨hrd, hset, hbytes⟩ := hsound.mp h
      simp only [Option.some.injEq, Prod.mk.injEq]
      exact ⟨fun ⟨hl, hs⟩ => ⟨hrd, hset, hl.symm, hs.symm, hbytes⟩, fun ⟨_, _, hl, hs, _⟩ => ⟨hl.symm, hs.symm⟩⟩
    · next h => exact ⟨nofun, fun ⟨hrd, hset, _, _, hbytes⟩ => absurd (hsound.mpr ⟨hrd, hset, hbytes⟩) h⟩

theorem bitPages_getElem {n : Nat} {v : Nat × Nat × Nat} (hf : k.flaw = none) (hv : bits[n]? = some v) :
    (s.bitPages k bits)[n]? = some (s.bitPage k.die (s.ctxOf k) v.2.1) := by
  unfold State.bitPages
  rw [List.getElem?_map, hv, hf]
  rfl

end

/-- Settles O43: the word and its poll are one read of the words each, which ends the wait or keeps it. -/
theorem bitwaitCompletes : Obligations.BitwaitCompletes := by
  unfold Obligations.BitwaitCompletes
  intro ends
  refine ⟨fun a b s k p x w y as hs ho => ?_, fun s k p uid r bits hk hp hst hrun => ?_⟩
  · obtain ⟨-, hpc, -, hsp, -⟩ := operands_keeps ho
    have hem : x.p.em = p.em := by rw [hsp, start_em]
    have huid : x.p.uid = p.uid := by rw [hsp, start_uid]
    have completes {t : State} (h : x.bitwait a b = .ok t) : Completes (.bitwait a b) s k p t :=
      completes_of_body exec_bitwait hs ((res_bind_ok ho).trans h)
    refine ⟨fun h => completes (bitwait_idle (hem.trans h)), fun h ha hm hsound hw hy => ?_⟩
    have hc := completes (bitwait_reads (hem ▸ h) ha hm hsound hw hy)
    rw [huid] at hc
    refine ⟨(x.heldRedo (.bitwait a b)).reading (as.map LaneAcc.page), _, fun t _ => ?_, rfl, hpc, rfl, rfl, ⟨_, rfl, rfl⟩,
      fun hone => ?_, fun ⟨q, hq, hzero⟩ => ?_⟩
    · rw [read_reading_bit rfl]
      simp only [List.mem_map, exists_exists_and_eq_and]
      rfl
    · rw [bitRead_ends (lanes_set_iff.mpr hone)] at hc
      exact hc
    · rw [bitRead_held fun hall => hzero (lanes_set_iff.mp hall q hq)] at hc
      exact hc
  · have does {t : State} (h : s.bitPoll k uid r bits = t) : exec (.bitwaitPoll k.id uid) s = .next t :=
      h ▸ exec_bitwaitPoll hk hp hst hrun
    refine ⟨fun ls hls => ⟨fun hone => does ((bitPoll_reads hls).trans (bitRead_ends hone)),
      fun hzero => does ((bitPoll_reads hls).trans (bitRead_held hzero))⟩, fun hnone => does (bitPoll_reissues hnone), ?_⟩
    intro hf n v l set hv
    rw [bitPages_getElem hf hv, Option.some.injEq]
    exact bitPage_iff

end Sys2Proof.Machine
end

section
/-! SUPPORT. Fences, cache maintenance and prefetches (R204, R212 to R217, R394). -/

namespace Sys2Proof.Machine

-- One proof after another: side by side, they hold more memory than the check of the whole text allows.
set_option Elab.async false

section

variable {i : Instr} {s : State} {k : Skein} {p : Split} {x y : Iss} {body : Iss → Res State}

/-- A word whose meaning is an issue ends in the cause that its body meets. -/
theorem ends_of_body {c : Check} (he : exec i s = issue i s body) (hs : Starts i s k p) (hb : body (Iss.start s k p) = .error c) :
    Ends i s k p c := by
  obtain ⟨hcur, hgroup⟩ := hs
  cases c with
  | trap code lfm addrs set => exact he.trans (issue_trap hcur hgroup hb)
  | park kind vas bad kept => exact he.trans (issue_park hcur hgroup hb)
  | stall on => exact he.trans (issue_stall hcur hgroup hb)
  | send lanes t => exact he.trans (issue_send hcur hgroup hb)
  | dataError code lfm addrs set t => exact he.trans (issue_dataError hcur hgroup hb)

/-- The stores that a word performs first leave its split as it was. -/
theorem flushIf_split {f : PStore → Bool} (h : x.flushIf f = .ok y) : y.p = x.p := by
  revert h
  fun_cases Iss.flushIf x f
  · rintro ⟨⟩
    rfl
  · rintro ⟨⟩
    rfl
  · nofun

/-! ## FENCE (R212, R239, R394) -/

/-- Once its request is answered, the split awaits no write-back any more. -/
def Iss.settled (x : Iss) : Iss :=
  let w := { x.consume.k with wbs := x.consume.k.wbs.filter (· != x.p.uid) }
  { x.consume with k := w, s := x.consume.put w }

/-- The write-backs that a FENCE.SY awaits. -/
def Iss.awaitWbs (x : Iss) (sc : BitVec 3) : Res Iss :=
  if sc == 4 && x.k.wbs.contains x.p.uid then do
    x.timely x.p.em
    match x.completion with
    | none => .error (.stall (.pcie x.p.em []))
    | some _ => .ok x.settled
  else .ok x

/-- The acquire that a FENCE ends with. -/
def Iss.fenced (x : Iss) (ord : BitVec 2) (sc : BitVec 3) : State :=
  if ord.getLsbD 0 then x.s.acquire x.k.id sc.toNat else x.s

variable {ord : BitVec 2} {sc : BitVec 3}

theorem exec_fence : exec (.fence ord sc) s = issue (.fence ord sc) s fun o =>
    o.landOwn.release (ord.getLsbD 1 && decide (1 ≤ sc.toNat)) >>= fun x => x.awaitWbs sc >>= fun y => .ok (y.fenced ord sc) := by
  show execFence ord sc s = _
  unfold execFence
  refine congrArg (issue _ s) (funext fun o => congrArg (bind _) (funext fun x => ?_))
  unfold Iss.awaitWbs
  dsimp only
  split
  · cases x.timely x.p.em with
    | error c => rfl
    | ok u =>
      cases x.completion with
      | none => rfl
      | some st => rfl
  · rfl

theorem awaitWbs_of_none (h : sc ≠ 4 ∨ x.p.uid ∉ x.k.wbs) : x.awaitWbs sc = .ok x := by
  refine if_neg ?_
  rw [Bool.and_eq_true, beq_iff_eq, List.contains_iff_mem]
  exact not_and_or.mpr h

/-- A split with a write-back looks first whether its request has expired, then whether it is answered. -/
theorem awaitWbs_of_mem (hsc : sc = 4) (hw : x.p.uid ∈ x.k.wbs) : x.awaitWbs sc = (x.timely x.p.em >>= fun _ =>
    match x.completion with
    | none => .error (.stall (.pcie x.p.em []))
    | some _ => .ok x.settled) := by
  refine if_pos ?_
  rw [Bool.and_eq_true, beq_iff_eq, List.contains_iff_mem]
  exact ⟨hsc, hw⟩

theorem awaitWbs_expired {r : PReq} (hsc : sc = 4) (hw : x.p.uid ∈ x.k.wbs) (hr : x.request = some r) (he : r.expired = true) :
    x.awaitWbs sc = .error (.dataError 0x1500 x.p.em [] x.p.co x.consume.s) := by
  refine (awaitWbs_of_mem hsc hw).trans (res_bind_error ?_)
  unfold Iss.timely
  rw [hr]
  exact if_pos he

theorem timely_ok {lanes : Mask} (h : ∀ r, x.request = some r → r.expired = false) : x.timely lanes = .ok () := by
  refine if_neg ?_
  cases hr : x.request with
  | none => exact Bool.false_ne_true
  | some r => exact Bool.eq_false_iff.mp (h r hr)

theorem awaitWbs_answered (hsc : sc = 4) (hw : x.p.uid ∈ x.k.wbs) (he : ∀ r, x.request = some r → r.expired = false)
    (hc : x.completion ≠ none) : x.awaitWbs sc = .ok x.settled := by
  refine (awaitWbs_of_mem hsc hw).trans ((res_bind_ok (timely_ok he)).trans ?_)
  obtain ⟨st, hst⟩ := Option.ne_none_iff_exists'.mp hc
  rw [hst]

theorem fence_completes (hs : Starts (.fence ord sc) s k p)
    (hr : (Iss.start s k p).landOwn.release (ord.getLsbD 1 && decide (1 ≤ sc.toNat)) = .ok x) (hy : x.awaitWbs sc = .ok y) :
    Completes (.fence ord sc) s k p (y.fenced ord sc) :=
  completes_of_body exec_fence hs ((res_bind_ok hr).trans (res_bind_ok hy))

theorem fence_ends {c : Check} (hs : Starts (.fence ord sc) s k p)
    (hr : (Iss.start s k p).landOwn.release (ord.getLsbD 1 && decide (1 ≤ sc.toNat)) = .ok x) (hc : x.awaitWbs sc = .error c) :
    Ends (.fence ord sc) s k p c :=
  ends_of_body exec_fence hs ((res_bind_ok hr).trans (res_bind_error hc))

/-! ## The caches (R213 to R217) -/

variable {a b : BitVec 8} {as : List LaneAcc}

/-- CLEAN and INVAL: a write-back of a dirty PCIe line is awaited, and each line is maintained. -/
theorem maintainOp_completes {inval : Bool} {ls : List (Nat × Nat)} (he : exec i s = maintainOp i a b inval s) (hs : Starts i s k p)
    (ho : (Iss.start s k p).rangeOperands a b = .ok x) (hm : x.mapG 4 needLoad (x.ranges a.toNat b.toNat) = .ok as)
    (hls : ls = (as.flatMap LaneAcc.lines).eraseDups)
    (hf : (x.flushIf fun e => e.loc.sp == .g && ls.any fun n => e.loc.addr / 64 == n.1) = .ok y) :
    Completes i s k p (ls.foldl (fun t n => t.maintain y.k.coreId n.1 n.2 inval) (y.put
      (if ∃ n ∈ ls, n.2 = 2 ∧ y.s.pdirty y.k.die n.1 = true then { y.k with wbs := y.p.uid :: y.k.wbs } else y.k))) := by
  subst hls
  refine completes_of_body he hs ((res_bind_ok ho).trans ((res_bind_ok hm).trans ((res_bind_ok hf).trans ?_)))
  simp only [List.any_eq_true, Bool.and_eq_true, beq_iff_eq]

/-- The checks of a range instruction leave its split. -/
theorem rangeOperands_split (h : x.rangeOperands a b = .ok y) : y.p = x.p := by
  unfold Iss.rangeOperands at h
  obtain ⟨z, ho, h⟩ := res_bind_inv h
  obtain ⟨-, -, h⟩ := res_bind_inv h
  cases h
  obtain ⟨-, -, -, hp, -⟩ := operands_keeps ho
  exact hp

theorem exec_clean : exec (.clean a b) s = maintainOp (.clean a b) a b false s := rfl

theorem exec_inval : exec (.inval a b) s = maintainOp (.inval a b) a b true s := rfl

theorem exec_icinv : exec (.icinv a b) s = issue (.icinv a b) s fun o =>
    o.rangeOperands a b >>= fun x => x.mapG 4 needCode (x.ranges a.toNat b.toNat) >>= fun as =>
      .ok (x.s.modCore x.k.coreId fun c =>
        { c with
          ic := c.ic.filter fun q => !((as.flatMap LaneAcc.lines).map (·.1)).contains q.line
          fills := c.fills.filter fun q => !((as.flatMap LaneAcc.lines).map (·.1)).contains q.line }) := rfl

theorem icinv_completes {kept : List CLine → List CLine} (hs : Starts (.icinv a b) s k p)
    (ho : (Iss.start s k p).rangeOperands a b = .ok x) (hm : x.mapG 4 needCode (x.ranges a.toNat b.toNat) = .ok as)
    (hkept : ∀ l, kept l = l.filter fun q => q.line ∉ (as.flatMap LaneAcc.lines).map (·.1)) :
    Completes (.icinv a b) s k p (x.s.modCore x.k.coreId fun c => { c with ic := kept c.ic, fills := kept c.fills }) := by
  have hlines (l : List CLine) : kept l = l.filter fun q => !((as.flatMap LaneAcc.lines).map (·.1)).contains q.line := by
    rw [hkept]
    simp
  simp only [hlines]
  exact completes_of_body exec_icinv hs ((res_bind_ok ho).trans (res_bind_ok hm))

theorem exec_ibar : exec .ibar s = issue .ibar s fun o =>
    .ok (o.s.modCore o.k.coreId fun c => if o.k.port % 2 = 0 then { c with fetch0 := [] } else { c with fetch1 := [] }) := rfl

/-- A core's two ports are those of its even and of its odd slots (R138). -/
theorem port_mod_two (k : Skein) : k.port % 2 = k.slotId % 2 := by
  unfold Skein.port
  omega

/-- PREF and IPREF: the ranges of the active lanes are fetched ahead. -/
theorem prefetch_completes {need : Need} (he : exec i s = prefetch i a b need s) (hs : Starts i s k p)
    (ho : (Iss.start s k p).rangeOperands a b = .ok x) : Completes i s k p
      (x.s.fetchRanges (x.s.ctxOf x.k) x.k.coreId need [] ((x.ranges a.toNat b.toNat).map (·.2)).eraseDups) :=
  completes_of_body he hs (res_bind_ok ho)

end

/-- Settles O39: each word by the checks of its body and its effect. -/
theorem fencesAndCachesComplete : Obligations.FencesAndCachesComplete := by
  intro s k p x y
  refine ⟨fun ord sc hs hr => ?_, fun a b inval i as hi hs ho hm => ?_, fun a b as hs ho hm => icinv_completes hs ho hm fun l => rfl,
    fun hs => ?_, fun a b code i hi hs ho => ?_⟩
  · have hp : x.p.uid = p.uid := by rw [release_split hr]; rfl
    refine ⟨fun h => fence_completes hs hr (awaitWbs_of_none (hp ▸ h)),
      fun r hsc hw hreq he => fence_ends hs hr (awaitWbs_expired hsc (hp ▸ hw) hreq he), fun hsc hw he hc => ?_⟩
    have := fence_completes hs hr (awaitWbs_answered hsc (hp ▸ hw) he hc)
    unfold Iss.settled at this
    rw [hp] at this
    exact this
  · intro ls hf
    have hp : y.p.uid = p.uid := by rw [flushIf_split hf, rangeOperands_split ho, start_uid]
    subst hi
    have := maintainOp_completes (inval := inval) (by cases inval <;> rfl) hs ho hm rfl hf
    rw [hp] at this
    exact this
  · have := completes_of_body exec_ibar hs rfl
    rw [port_mod_two] at this
    exact this
  · subst hi
    cases code with
    | false => exact prefetch_completes rfl hs ho
    | true => exact prefetch_completes rfl hs ho

end Sys2Proof.Machine
end

section
/-! SUPPORT. Streams (R193, R218, R219). -/

namespace Sys2Proof.Machine

-- One proof after another: side by side, they hold more memory than the check of the whole text allows.
set_option Elab.async false

/-- The stream that a STREAM describes, under a handle and in a slot. -/
def Iss.streamAt (x : Iss) (a : BitVec 8) (pol : BitVec 32) (m n : Nat) : Stream :=
  let h := highest x.p.em
  ⟨m, n, x.raw h a.toNat 16 / 64 * 64, signed 32 (x.raw h (a.toNat + 16) 8), Sys2Proof.bitsOf (x.raw h (a.toNat + 24) 8) 0 16, 0, -1, pol⟩

/-- What a STREAM writes as its handle. -/
def Iss.handleWritten (y : Iss) (b : BitVec 8) (la : BitVec 4) (m : Nat) : Skein :=
  y.wrLate (y.h.look la) b.toNat 1 (fun _ => m) y.rset []

/-- What a STREAM does once its checks have passed. -/
def Iss.arm (y : Iss) (b : BitVec 8) (la : BitVec 4) (armed : Nat → Nat → Stream) : Res State :=
  match (List.range 32).find? (fun n => !(y.s.streamSlots y.k.coreId).contains n),
      (List.range 2).find? fun m => !y.k.streams.any (·.handle == m) with
  | some n, some m => .ok (y.put { y.handleWritten b la m with streams := y.k.streams ++ [armed m n] })
  | _, _ => .ok (y.put (y.handleWritten b la stNoSlot))

/-- What a STREAM does once its operands are read. -/
def Iss.stream (x : Iss) (a b : BitVec 8) (la : BitVec 4) : Res State :=
  if x.p.em == 0 then .ok x.s
  else do
    let h := highest x.p.em
    let ctl := x.raw h (a.toNat + 24) 8
    x.need (streamOk (signed 32 (x.raw h (a.toNat + 16) 8)) ctl) (dnr 2 4) x.p.em
    let (pol, y) ← x.policy (Sys2Proof.bitsOf ctl 16 4) false
    y.arm b la (x.streamAt a pol)

/-- What a STREAMX does once its operand is read. -/
def Iss.endStream (x : Iss) (b : BitVec 8) : Res State :=
  let h := x.raw (highest x.p.em) b.toNat 1
  if x.p.em == 0 || h == stNoSlot then .ok x.s
  else do
    x.need (decide (h ≤ 1)) (dnr 2 4) x.p.em
    .ok (x.put { x.k with streams := x.k.streams.filter (·.handle != h) })

section

variable {s : State} {x y : Iss} {a b : BitVec 8} {la : BitVec 4} {armed : Nat → Nat → Stream} {pol : BitVec 32} {m n : Nat}

theorem exec_stream : exec (.stream a b la) s = issue (.stream a b la) s fun o =>
    o.operands [⟨a.toNat, 32, 32, topLane o.p.em id, true, false⟩, opdOut b.toNat 1] >>= fun x => x.stream a b la := rfl

theorem exec_streamx : exec (.streamx b) s = issue (.streamx b) s fun o =>
    o.operands [opdIn b.toNat 1 (topLane o.p.em id)] >>= fun x => x.endStream b := rfl

theorem stream_idle (h : x.p.em = 0) : x.stream a b la = .ok x.s := if_pos (beq_iff_eq.mpr h)

theorem stream_arms (h : x.p.em ≠ 0)
    (hok : streamOk (signed 32 (x.raw (highest x.p.em) (a.toNat + 16) 8)) (x.raw (highest x.p.em) (a.toNat + 24) 8) = true)
    (hpol : x.policy (bitsOf (x.raw (highest x.p.em) (a.toNat + 24) 8) 16 4) false = .ok (pol, y)) :
    x.stream a b la = y.arm b la (x.streamAt a pol) :=
  (if_neg (mt beq_iff_eq.mp h)).trans ((res_bind_ok (if_pos hok)).trans (res_bind_ok hpol))

/-- A slot is free where no stream of the core is in it. -/
theorem slot_free_iff {used : List Nat} : (!used.contains n) = true ↔ n ∉ used := by
  rw [Bool.not_eq_true', Bool.eq_false_iff, ne_eq, List.contains_iff_mem]

/-- A handle is free where no stream of the skein has it. -/
theorem handle_free_iff {l : List Stream} : (!l.any (·.handle == m)) = true ↔ ∀ q ∈ l, q.handle ≠ m := by
  simp

theorem arm_free (hn : n < 32) (hm : m < 2) (hslot : n ∉ y.s.streamSlots y.k.coreId) (hhandle : ∀ q ∈ y.k.streams, q.handle ≠ m)
    (hbelow : ∀ n', n' < n → n' ∈ y.s.streamSlots y.k.coreId) (htaken : ∀ m', m' < m → ∃ q ∈ y.k.streams, q.handle = m') :
    y.arm b la armed = .ok (y.put { y.handleWritten b la m with streams := y.k.streams ++ [armed m n] }) := by
  have hs : (List.range 32).find? (fun n => !(y.s.streamSlots y.k.coreId).contains n) = some n :=
    List.find?_range_eq_some.mpr ⟨slot_free_iff.mpr hslot, List.mem_range.mpr hn, fun j hj => by simp [hbelow j hj]⟩
  have hh : (List.range 2).find? (fun m => !y.k.streams.any (·.handle == m)) = some m :=
    List.find?_range_eq_some.mpr ⟨handle_free_iff.mpr hhandle, List.mem_range.mpr hm, fun j hj => by simpa using htaken j hj⟩
  unfold Iss.arm
  rw [hs, hh]

theorem arm_full (h : (∀ n, n < 32 → n ∈ y.s.streamSlots y.k.coreId) ∨ ∀ m, m < 2 → ∃ q ∈ y.k.streams, q.handle = m) :
    y.arm b la armed = .ok (y.put (y.handleWritten b la stNoSlot)) := by
  unfold Iss.arm
  split
  · next n m hs hh =>
    obtain ⟨hslot, hn, -⟩ := List.find?_range_eq_some.mp hs
    obtain ⟨hhandle, hm, -⟩ := List.find?_range_eq_some.mp hh
    rcases h with h | h
    · exact absurd (h n (List.mem_range.mp hn)) (slot_free_iff.mp hslot)
    · obtain ⟨q, hq, e⟩ := h m (List.mem_range.mp hm)
      exact absurd e (handle_free_iff.mp hhandle q hq)
  · rfl

theorem endStream_idle (h : x.p.em = 0 ∨ x.raw (highest x.p.em) b.toNat 1 = stNoSlot) : x.endStream b = .ok x.s := by
  refine if_pos ?_
  rw [Bool.or_eq_true, beq_iff_eq, beq_iff_eq]
  exact h

theorem endStream_ends (h : x.p.em ≠ 0) (hh : x.raw (highest x.p.em) b.toNat 1 ≤ 1) : x.endStream b =
    .ok (x.put { x.k with streams := x.k.streams.filter (·.handle != x.raw (highest x.p.em) b.toNat 1) }) := by
  refine (if_neg ?_).trans (res_bind_ok (if_pos (decide_eq_true hh)))
  rw [Bool.or_eq_true, beq_iff_eq, beq_iff_eq, not_or]
  refine ⟨h, fun e => ?_⟩
  rw [e] at hh
  exact absurd hh (by decide)

end

/-- Settles O40: each word by its body, and the slot and the handle by the first that are free. -/
theorem streamsComplete : Obligations.StreamsComplete := by
  intro a b la s k p x
  refine ⟨fun hs ho => ?_, fun hs ho => ?_⟩
  · have hp : x.p.em = p.em := (operands_start ho).2
    have completes {t : State} (h : x.stream a b la = .ok t) : Completes (.stream a b la) s k p t :=
      completes_of_body exec_stream hs ((res_bind_ok ho).trans h)
    refine ⟨fun h => completes (stream_idle (hp.trans h)), fun y pol h hok hpol => ?_⟩
    rw [← hp] at h hok hpol
    refine ⟨fun n m hn hm hslot hhandle hbelow htaken => ?_,
      fun hfull => completes ((stream_arms h hok hpol).trans (arm_full hfull))⟩
    have hc := completes ((stream_arms h hok hpol).trans (arm_free hn hm hslot hhandle hbelow htaken))
    unfold Iss.streamAt at hc
    rw [hp] at hc
    exact hc
  · have hp : x.p.em = p.em := (operands_start ho).2
    have completes {t : State} (h : x.endStream b = .ok t) : Completes (.streamx b) s k p t :=
      completes_of_body exec_streamx hs ((res_bind_ok ho).trans h)
    rw [← hp]
    exact ⟨fun h => completes (endStream_idle h), fun h hh => completes (endStream_ends h hh)⟩

end Sys2Proof.Machine
end

section
/-! SUPPORT. Fetching ahead, translation parks and invalidations, PCIe completions and writes (R193, R199, R200, R204, R211, R245,
R376, R377, R394, R442). -/

namespace Sys2Proof.Machine

-- One proof after another: side by side, they hold more memory than the check of the whole text allows.
set_option Elab.async false

/-! ## Fetching ahead and fills (R193, R204, R376, R377) -/

section

variable {s : State} {k : Skein} {core slot : Nat}

/-- What a stream that may go on does with the outcome of its next line. -/
def State.streamFetched (s : State) (k : Skein) (core slot : Nat) (x : Stream) : Option Nat → State
  | none => (s.dropAhead core).setSkein (k.streamNext slot false)
  | some pa =>
    if s.failedLine (pa / 64) then (s.countAhead core (pa / 64)).setSkein (k.streamNext slot false)
    else if x.policy.getLsbD 18 then s.setSkein (k.streamNext slot true)
    else (s.setSkein (k.streamNext slot true)).fetchInto core (pa / 64) false

theorem exec_streamFetch {x : Stream} (hk : s.skeins.find? (fun j => j.coreId == core && j.streams.any (·.slot == slot)) = some k)
    (hx : k.streams.find? (·.slot == slot) = some x) (hnext : x.next < x.count) (hpos : (x.next : Int) ≤ x.position + 16) :
    exec (.streamFetch core slot) s =
      .next (s.streamFetched k core slot x (s.aheadPa (s.ctxOf k) needLoad (wrap 64 ((x.start : Int) + (x.next : Int) * x.stride)))) := by
  have hopen : (!x.open) = false := by simp [Stream.open, hnext, hpos]
  show execStreamFetch core slot s = _
  unfold execStreamFetch
  rw [hk]
  dsimp only
  rw [hx]
  dsimp only
  rw [hopen]
  rfl

/-- A line that the fetch unit may fetch ahead, in a page of code that the context reads, starts its fill. -/
theorem fetchAhead_fetches {p : Split} {va : Nat} {l : Leaf} (hk : s.skein? k.id = some k) (hp : k.split? p.uid = some p)
    (hstop : k.stop = none) (hmay : s.mayFetchAhead k p va = true) (hl : s.translate (s.ctxOf k) va = .leaf l) (hex : l.ex = true)
    (hread : (s.ctxOf k).mayRead l.set = true) (hgood : s.failedLine (l.pa / 64) = false) :
    exec (.fetchAhead k.id p.uid va) s = .next (s.fetchInto k.coreId (l.pa / 64) true) := by
  have hcode : l.permits needCode = true := hex
  show execFetchAhead k.id p.uid va s = _
  unfold execFetchAhead
  simp only [hk, hp, hstop, hmay, hl, hcode, hread, hgood, Bool.not_true, Option.isSome_none, Bool.and_self, Bool.or_self,
    Bool.false_eq_true, if_false]

/-- Two changes of an entry of a list that agree on what stands there are one. -/
theorem modAt_congr {α : Type} {l : List α} {n : Nat} {x : α} {f g : α → α} (h : l[n]? = some x) (hfg : f x = g x) :
    modAt l n f = modAt l n g := by
  unfold modAt
  rw [List.modify_eq_set_getElem?, List.modify_eq_set_getElem?, h]
  exact congrArg (l.set n) hfg

theorem modCore_congr {f g : Core → Core} (h : core < s.cores.length) (hfg : f (s.core core) = g (s.core core)) :
    s.modCore core f = s.modCore core g := by
  have hget : s.cores[core]? = some (s.core core) := by
    unfold State.core
    rw [List.getD_eq_getElem?_getD, List.getElem?_eq_getElem h]
    rfl
  exact congrArg (fun l => { s with cores := l }) (modAt_congr hget hfg)

theorem modPart_congr {n : Nat} {x : Partition} {f g : Partition → Partition} (h : s.parts[n]? = some x) (hfg : f x = g x) :
    s.modPart n f = s.modPart n g := congrArg (fun l => { s with parts := l }) (modAt_congr h hfg)

theorem fill_arrives {line : Nat} {f : CLine} (hcore : core < s.cores.length)
    (hf : (s.core core).fills.find? (·.line == line) = some f) :
    exec (.instructionFetchFill core line) s = .next (s.modCore core fun c =>
      Core.addIc { c with fills := c.fills.filter (·.line != line) } f (Config.freeWay s.free line)) := by
  refine congrArg Host.Outcome.next (modCore_congr hcore ?_)
  rw [hf]

end

/-! ## Translation parks and invalidations (R199, R200, R442) -/

section

variable {s : State} {cl : Nat} {e : FaultEntry} {c : Context}

/-- The mender's act on one address of an entry: it maps what the page table leaves unmapped. -/
def State.mapMissing (s : State) (c : Context) (ctx : Nat) (t : State) (v : Nat × Nat) : State :=
  match s.walk c v.2 with
  | .leaf _ => t
  | .unmapped | .malformed => t.mapPiece ctx v.2

/-- What the mender makes of an entry of a context that lives, once it is freed. -/
def State.mended (s : State) (cl : Nat) (e : FaultEntry) (c : Context) : State :=
  let t := s.freeEntry cl e.id
  if e.malformed then t.endContext e.ctx 0x8302
  else if e.vas.all fun v => (c.region? v.2).isSome then
    (e.vas.foldl (s.mapMissing c e.ctx) t).replay e
  else t.endContext e.ctx 0x8301

theorem exec_translationParkResolve (he : (s.cluster cl).fbuf.find? (·.id == e.id) = some e) (hc : s.ctx? e.ctx = some c)
    (hover : c.over = false) : exec (.translationParkResolve cl e.id) s = .next (s.mended cl e c) := by
  show execTranslationParkResolve cl e.id s = _
  unfold execTranslationParkResolve
  rw [he]
  dsimp only
  rw [hc]
  dsimp only
  rw [hover]
  rfl

theorem mended_malformed (hm : e.malformed = true) : s.mended cl e c = (s.freeEntry cl e.id).endContext e.ctx 0x8302 := if_pos hm

theorem mended_outside (hm : e.malformed = false) (hv : ∃ v ∈ e.vas, c.region? v.2 = none) :
    s.mended cl e c = (s.freeEntry cl e.id).endContext e.ctx 0x8301 := by
  refine (if_neg (Bool.eq_false_iff.mp hm)).trans (if_neg fun hall => ?_)
  obtain ⟨v, hmem, hnone⟩ := hv
  have := List.all_eq_true.mp hall v hmem
  rw [hnone] at this
  cases this

theorem mended_held (hm : e.malformed = false) (hv : ∀ v ∈ e.vas, c.region? v.2 ≠ none) :
    s.mended cl e c = (e.vas.foldl (s.mapMissing c e.ctx) (s.freeEntry cl e.id)).replay e :=
  (if_neg (Bool.eq_false_iff.mp hm)).trans
    (if_pos (List.all_eq_true.mpr fun v hmem => Option.isSome_iff_ne_none.mpr (hv v hmem)))

theorem mended_unmapped (hm : e.malformed = false) (hv : ∀ v ∈ e.vas, c.region? v.2 ≠ none ∧ s.walk c v.2 = .unmapped) :
    s.mended cl e c = (e.vas.foldl (fun u v => u.mapPiece e.ctx v.2) (s.freeEntry cl e.id)).replay e := by
  refine (mended_held hm fun v hmem => (hv v hmem).1).trans (congrArg (State.replay · e) (List.foldl_ext _ _ _ fun t v hmem => ?_))
  unfold State.mapMissing
  rw [(hv v hmem).2]

theorem mended_mapped (hm : e.malformed = false) (hv : ∀ v ∈ e.vas, c.region? v.2 ≠ none ∧ ∃ l, s.walk c v.2 = .leaf l) :
    s.mended cl e c = (s.freeEntry cl e.id).replay e := by
  refine (mended_held hm fun v hmem => (hv v hmem).1).trans (congrArg (State.replay · e) ?_)
  refine (List.foldl_ext _ (fun t _ => t) _ fun t v hmem => ?_).trans (List.foldl_fixed e.vas)
  obtain ⟨-, l, hl⟩ := hv v hmem
  unfold State.mapMissing
  rw [hl]

theorem translation_invalidated {ctx va : Nat} (hc : s.ctx? ctx = some c) (hfree : s.commandHolds ctx (va / 65536) = false) :
    exec (.translationInvalidate ctx va) s = .next (s.setCtx { c with stale := c.stale.filter (·.1 != va / 65536) }) := by
  show execTranslationInvalidate ctx va s = _
  unfold execTranslationInvalidate
  rw [hc]
  exact congrArg Host.Outcome.next (if_neg (Bool.eq_false_iff.mp hfree))

end

/-! ## Completions (R211, R394) -/

section

variable {s : State} {k : Skein} {p : Split} {uid : Nat}

/-- A request of a split that still waits for its completion. -/
abbrev PReq.pending (q : PReq) (uid : Nat) : Prop := q.uid = uid ∧ q.status = none ∧ q.expired = false

theorem pending_iff {q : PReq} : (q.uid == uid && q.waits) = true ↔ q.pending uid := by
  simp [PReq.waits]

theorem completion_discarded {status n : Nat} {x : Partition} (hk : s.skein? k.id = some k)
    (hnone : ∀ q ∈ k.preqs, ¬q.pending uid) (hn : (s.cluster k.cluster).part = some n)
    (hx : s.parts[n]? = some x) : exec (.pcieCompletion k.id uid status) s =
      .next (s.modPart n fun y => { y with lateCompletions := min (x.lateCompletions + 1) 0xFFFFFFFF }) := by
  have hany : ¬(k.preqs.any fun r => r.uid == uid && r.waits) = true := by
    rw [List.any_eq_true]
    exact fun ⟨q, hq, hw⟩ => hnone q hq (pending_iff.mp hw)
  have hcl : k.id / 1024 = k.cluster := (Nat.div_div_eq_div_mul k.id 128 8).symm
  show execPcieCompletion k.id uid status s = _
  unfold execPcieCompletion
  rw [hk]
  dsimp only
  rw [if_neg hany]
  unfold State.lateCompletion
  rw [hcl, hn]
  exact congrArg Host.Outcome.next (modPart_congr hx rfl)

/-- The requests of a split that wait, changed; the others stay. -/
theorem map_pending (f : PReq → PReq) (l : List PReq) : (l.map fun q => if q.uid == uid && q.waits then f q else q) =
    l.map fun q => if q.pending uid then f q else q := by
  simp only [pending_iff]

variable {r : PReq} (hr : r ∈ k.preqs) (hw : r.pending uid)
include hr hw

theorem completion_arrives {status : Nat} (hk : s.skein? k.id = some k) : exec (.pcieCompletion k.id uid status) s =
    .next (s.setSkein { k with
      preqs := k.preqs.map fun q => if q.pending uid then { q with status := some status } else q }) := by
  have hany : (k.preqs.any fun r => r.uid == uid && r.waits) = true := List.any_eq_true.mpr ⟨r, hr, pending_iff.mpr hw⟩
  show execPcieCompletion k.id uid status s = _
  unfold execPcieCompletion
  rw [hk]
  dsimp only
  rw [if_pos hany, map_pending]

theorem requestLate_of_sent (hsent : r.sent + 87500000 ≤ s.ticks + s.frozenTicks) : s.requestLate k uid = true :=
  List.any_eq_true.mpr ⟨r, hr, Bool.and_eq_true_iff.mpr ⟨pending_iff.mpr hw, decide_eq_true hsent⟩⟩

/-- What a timeout at an access that waits comes to. -/
theorem exec_timeout {lanes : Mask} {ls : List Nat} (hk : s.skein? k.id = some k) (hp : k.split? uid = some p)
    (hst : p.st = .stalled (.pcie lanes ls)) (hsent : r.sent + 87500000 ≤ s.ticks + s.frozenTicks) :
    exec (.pcieCompletionTimeout k.id uid) s = .next (
      if k.stop.isSome then
        s.setSkein { k with
          preqs := k.preqs.map fun q => if q.pending uid then { q with expired := true } else q }
      else s.trapStop { k with preqs := k.preqs.filter (·.uid != uid) } p (p.hints.gpc.getD p.pc) p.pc 0x1500 lanes [] p.co) := by
  show execPcieCompletionTimeout k.id uid s = _
  unfold execPcieCompletionTimeout
  rw [hk]
  dsimp only
  rw [requestLate_of_sent hr hw hsent, hp]
  dsimp only
  rw [hst]
  dsimp only
  rw [map_pending]

end

/-! ## Writes that reach the root complex (R244, R245, R394) -/

section

variable {s : State} {pa : Nat} {bs : List Byte}

/-- A context holds the frame of a physical address as host memory. -/
abbrev Context.holdsFrame (x : Context) (pa : Nat) : Prop :=
  ∃ r ∈ x.regions, r.kind = 1 ∧ r.frame * 65536 ≤ pa ∧ pa < r.frame * 65536 + r.len

theorem holds_iff {x : Context} :
    (x.regions.any fun r => r.kind == 1 && decide (r.frame * 2 ^ 16 ≤ pa) && decide (pa < r.frame * 2 ^ 16 + r.len)) = true ↔
      x.holdsFrame pa := by
  simp [and_assoc]

theorem writeback_ends {pre post : List Context} {c : Context} (hs : s.ctxs = pre ++ c :: post)
    (hc : c.holdsFrame pa) (hpre : ∀ x ∈ pre, ¬x.holdsFrame pa) :
    exec (.writebackUndelivered pa) s = .next (s.endContext c.id 0x1500) := by
  have hfind : s.ctxs.find? (fun x => x.regions.any fun r =>
      r.kind == 1 && decide (r.frame * 2 ^ 16 ≤ pa) && decide (pa < r.frame * 2 ^ 16 + r.len)) = some c := by
    rw [List.find?_eq_some_iff_append]
    exact ⟨holds_iff.mpr hc, pre, post, hs, fun x hx => by
      rw [Bool.not_eq_true', Bool.eq_false_iff, ne_eq, holds_iff]
      exact hpre x hx⟩
  show execWritebackUndelivered pa s = _
  unfold execWritebackUndelivered
  dsimp only
  rw [hfind]

/-- A host's write reaches a memory window or host memory. -/
def State.takesWrite (s : State) (pa n : Nat) : Bool := pcieRange pa n || s.vfs.any fun v => v.window pa n && s.hbmAt pa n

theorem takesWrite_iff : s.takesWrite pa bs.length = true ↔
    (∃ v ∈ s.vfs, v.winBase ≤ pa ∧ pa + bs.length ≤ v.winBase + v.winUnits * 65536 ∧ s.hbmAt pa bs.length = true) ∨
      (paType pa = 2 ∧ paType (pa + bs.length - 1) = 2 ∧ pa + bs.length ≤ 0x400000000000) := by
  unfold State.takesWrite pcieRange VF.window
  rw [Bool.or_eq_true, or_comm, List.any_eq_true]
  simp [and_assoc]

/-- An engine holds a byte of a range. -/
theorem rangeHeld_iff : (((locG pa).span bs.length).any fun l => s.owned l || s.pinned l) = true ↔
    ∃ l ∈ (locG pa).span bs.length, s.owned l = true ∨ s.pinned l = true := by
  simp only [List.any_eq_true, Bool.or_eq_true]

theorem postedWrite_lost (h : s.takesWrite pa bs.length = false) : exec (.pciePostedWrite pa bs) s = .next s :=
  congrArg Host.Outcome.next (if_neg (Bool.eq_false_iff.mp h))

/-- A write that no other goes before is performed, or waits for an engine. -/
theorem postedWrite_reaches (hposted : s.posted = []) (h : s.takesWrite pa bs.length = true) :
    exec (.pciePostedWrite pa bs) s = .next (
      if ((locG pa).span bs.length).any fun l => s.owned l || s.pinned l then { s with posted := [(pa, bs)] }
      else { (s.pokes (locG pa) bs) with posted := [] }) := by
  refine congrArg Host.Outcome.next ((if_pos h).trans ?_)
  rw [hposted]
  rfl

end

/-- Settles O52: each event by what it finds. -/
theorem fetchAndPcieEventsComplete : Obligations.FetchAndPcieEventsComplete := by
  refine ⟨fun s k core slot x hk hx hnext hpos => ?_,
    fun s k p va l hk hp hstop hmay hl hex hread hgood => fetchAhead_fetches hk hp hstop hmay hl hex hread hgood,
    fun s core line f hcore hf => fill_arrives hcore hf, fun s cl e c he hc hover => ?_,
    fun s ctx va c hc hfree => translation_invalidated hc hfree, fun s k p r hk hr => ?_,
    fun s pa pre post c hs hc hpre => writeback_ends hs hc hpre, fun s pa bs hposted => ?_⟩
  · have hexec := exec_streamFetch hk hx hnext hpos
    refine ⟨fun hnone => ?_, fun pa hpa => ?_⟩
    · rw [hnone] at hexec
      exact hexec
    · rw [hpa] at hexec
      exact ⟨fun hbad => hexec.trans (congrArg Host.Outcome.next (if_pos hbad)),
        fun hgood => hexec.trans (congrArg Host.Outcome.next (if_neg (Bool.eq_false_iff.mp hgood)))⟩
  · have does {t : State} (h : s.mended cl e c = t) : exec (.translationParkResolve cl e.id) s = .next t :=
      h ▸ exec_translationParkResolve he hc hover
    exact ⟨fun hm => does (mended_malformed hm), fun hm hv => does (mended_outside hm hv),
      fun hm hv => does (mended_unmapped hm hv), fun hm hv => does (mended_mapped hm hv)⟩
  · refine ⟨fun hnone status n x hn hx => completion_discarded hk hnone hn hx,
      fun hw => ⟨fun status => completion_arrives hr hw hk, fun lanes ls hp hst hsent => ?_⟩⟩
    have hexec := exec_timeout hr hw hk hp hst hsent
    exact ⟨fun hrun => hexec.trans (congrArg Host.Outcome.next (if_neg (by rw [hrun]; exact Bool.false_ne_true))),
      fun hstop => hexec.trans (congrArg Host.Outcome.next (if_pos (Option.isSome_iff_ne_none.mpr hstop)))⟩
  · exact ⟨fun h => postedWrite_lost (Bool.eq_false_iff.mpr (mt takesWrite_iff.mp h)),
      fun h hfree => (postedWrite_reaches hposted (takesWrite_iff.mpr h)).trans
        (congrArg Host.Outcome.next (if_neg (mt rangeHeld_iff.mp hfree))),
      fun h hheld => (postedWrite_reaches hposted (takesWrite_iff.mpr h)).trans
        (congrArg Host.Outcome.next (if_pos (rangeHeld_iff.mpr hheld)))⟩

end Sys2Proof.Machine
end
